-- ==== Sys2Proof/Word.lean ====
section
/-! DEFINITION. Byte, word and sparse-table types of the TN96 model. -/

namespace Sys2Proof

/-- One byte. -/
abbrev Byte := BitVec 8

/-- One 32-bit word: a register, a vector lane, an FP32 bit pattern. -/
abbrev Word := BitVec 32

/-- One 64-bit word: a device address, a scalar datum. -/
abbrev DWord := BitVec 64

/-- A byte string, lowest address first (R2). -/
abbrev Bytes := List Byte

/-- A sparse table keyed by Nat: keys strictly rising, no entry equal to the table's default. -/
abbrev Table (α : Type) := List (Nat × α)

end Sys2Proof
end

