-- ==== Sys2Proof/Syntax.lean ====
section
/-! DEFINITION. The commands of spec/opcode_table.json, one constructor per row. -/

namespace Sys2Proof

/-- A fault in an array during one instruction, as the environment makes it or an injection does (R97, R127-R129, R136):
the point of the reduction (block of a narrow instruction, product of a wide one), cell row and column, bit inverted,
and target: 0 data cell, 1 checksum of the row, 2 A-side rivet lane, 3 B-side rivet lane, 4 parity of HI, 5 parity of LO, 6 parity of A's
operand register in the entry of `row`, 7 of B's in the entry of `col`. -/
structure ArrFault where
  pos : Nat
  row : Nat
  col : Nat
  bit : Nat
  target : Nat
  deriving DecidableEq, Repr

/-- A product of a Currier job that fails a stitching check (R284): core, array, KIND of R134, failing row and column. -/
structure StitchDet where
  core : Nat
  arr : Nat
  kind : Nat
  row : Option Nat
  col : Option Nat
  deriving DecidableEq, Repr

/-- What the environment decides of a bring-up (R500, R501): busbar voltages in mV; which reference inputs are present;
physical tiles (room, tile) that fail the self-test; cellar controllers that fail training three times; links between
rooms that fail it; Bridle ports that find a partner, with medium and declared power in mW; and the
ADDR_SEL pins. -/
structure BringOut where
  busA : Nat := 0
  busB : Nat := 0
  refA : Bool := false
  refB : Bool := false
  badTiles : List (Nat × Nat) := []
  badCells : List Nat := []
  badLinks : List (Nat × Nat) := []
  ports : List (Nat × Nat × Nat) := []
  addrSel : Nat := 0
  deriving DecidableEq, Repr

/-- What a register write needs of the environment where it starts something that has a row of its own: a firmware image as
read from host memory, what becomes of a wake, the cable on a port. -/
structure WriteEnv where
  img : List (BitVec 8) := []
  out : BringOut := {}
  medium : Nat := 0
  mw : Nat := 0
  deriving DecidableEq, Repr

/-- The commands, one constructor per row of the table, in its order. Operands name units of the device and carry what the
environment decides: times in monotonic ns (`t`), bytes read from the host, measured values, detected errors. -/
inductive Instr where
  /-- ARRAY_SLOT_ISSUE (R142). An array slot of an issued bundle places its array operation record in the array's waiting register. -/
  | arraySlotIssue (core arr : Nat) (det : Option (Nat × Nat))
  /-- MAC (R111). A MAC instruction leaves the waiting register and runs its multiply-accumulate, with stitching checks, over its reduction. -/
  | mac (core arr : Nat) (faults : List ArrFault)
  /-- MAC3 (R124). A MAC3 instruction starts and runs its three BF16 passes over split FP32 operands into pairs. -/
  | mac3 (core arr : Nat) (faults : List ArrFault)
  /-- MINPLUS (R120). A MINPLUS instruction starts and reduces min of sums into its cells. -/
  | minplus (core arr : Nat)
  /-- MAXPLUS (R120). A MAXPLUS instruction starts and reduces max of sums into its cells. -/
  | maxplus (core arr : Nat)
  /-- L1 (R120). An L1 instruction starts and accumulates absolute differences. -/
  | l1 (core arr : Nat)
  /-- L2SQ (R120). An L2SQ instruction starts and accumulates squared differences. -/
  | l2sq (core arr : Nat)
  /-- CMPCOUNT (R120). A CMPCOUNT instruction starts and counts positions where the relation holds. -/
  | cmpcount (core arr : Nat)
  /-- HAM (R122). A HAM instruction starts and accumulates popcounts of code differences. -/
  | ham (core arr : Nat)
  /-- ARRAY_DRAIN (R117). An instruction reaches its drain, moves accumulators to the output shadow when STORE is set and adds its counters to the statistics record. -/
  | arrayDrain (core arr quarter : Nat)
  /-- SHADOW_WRITEOUT_DONE (R108). The output shadow finishes writing out its results, releasing held accesses and a waiting drain. -/
  | shadowWriteoutDone (core arr : Nat)
  /-- VLD (R144). A vector load reads 64 elements from the own pantry into a register, widened exactly. -/
  | vld (core : Nat) (det : Option (Nat × Nat))
  /-- VST (R144). A vector store writes 64 register elements to the own pantry, rounded under RND. -/
  | vst (core : Nat)
  /-- VADD (R144). Vector FP32 addition under RNE. -/
  | vadd (core : Nat)
  /-- VSUB (R144). Vector FP32 subtraction under RNE. -/
  | vsub (core : Nat)
  /-- VMUL (R144). Vector FP32 multiplication under RNE. -/
  | vmul (core : Nat)
  /-- VFMA (R144). Vector fused multiply-add under RNE. -/
  | vfma (core : Nat)
  /-- VMIN (R144). Vector IEEE minimum. -/
  | vmin (core : Nat)
  /-- VMAX (R144). Vector IEEE maximum. -/
  | vmax (core : Nat)
  /-- VABS (R144). Vector sign clear. -/
  | vabs (core : Nat)
  /-- VNEG (R144). Vector sign inversion. -/
  | vneg (core : Nat)
  /-- VCMP (R144). Vector comparison producing 1.0 or +0 per lane. -/
  | vcmp (core : Nat)
  /-- VSEL (R144). Vector lane select on a nonzero condition register. -/
  | vsel (core : Nat)
  /-- VEXP2 (R145). Vector correctly rounded base-2 exponential. -/
  | vexp2 (core : Nat)
  /-- VLOG2 (R145). Vector correctly rounded base-2 logarithm. -/
  | vlog2 (core : Nat)
  /-- VRCP (R145). Vector correctly rounded reciprocal. -/
  | vrcp (core : Nat)
  /-- VRSQRT (R145). Vector correctly rounded reciprocal square root. -/
  | vrsqrt (core : Nat)
  /-- VRSUM (R145). Vector tree sum of all lanes broadcast to every lane. -/
  | vrsum (core : Nat)
  /-- VRMAX (R145). Vector tree maximum of all lanes broadcast to every lane. -/
  | vrmax (core : Nat)
  /-- VBCAST (R144). Vector broadcast of one lane to all lanes. -/
  | vbcast (core : Nat)
  /-- VLDS (R147). A plain scalar load issues to any allowed space. -/
  | vlds (core : Nat) (det : Option (Nat × Nat))
  /-- VLDA (R147). A scalar load with acquire ordering issues. -/
  | vlda (core : Nat) (det : Option (Nat × Nat))
  /-- VSTS (R147). A plain scalar store issues. -/
  | vsts (core : Nat)
  /-- VSTR (R168). A scalar store with release ordering issues, including ownership control stores to Bridle nodes. -/
  | vstr (core : Nat)
  /-- SCALAR_LOAD_RETURN (R147). The value of a scalar load or returning atomic arrives and is written to VD, or discarded if its attempt ended. -/
  | scalarLoadReturn (core vd : Nat)
  /-- QUANT (R74). A vector record quantises blocks of a wide row into a narrow tensor. -/
  | quant (core : Nat)
  /-- DEQUANT (R146). A vector record decodes narrow blocks into a wide destination. -/
  | dequant (core : Nat)
  /-- WSTORE (R146). A vector record rounds wide elements into an FP32, BF16 or FP16 destination. -/
  | wstore (core : Nat)
  /-- AADD (R177). Larder atomic integer add. -/
  | aadd (core : Nat)
  /-- FADD (R177). Larder atomic FP32 add. -/
  | fadd (core : Nat)
  /-- SMIN (R177). Larder atomic signed minimum. -/
  | smin (core : Nat)
  /-- SMAX (R177). Larder atomic signed maximum. -/
  | smax (core : Nat)
  /-- UMIN (R177). Larder atomic unsigned minimum. -/
  | umin (core : Nat)
  /-- UMAX (R177). Larder atomic unsigned maximum. -/
  | umax (core : Nat)
  /-- FMIN (R177). Larder atomic FP32 minimum. -/
  | fmin (core : Nat)
  /-- FMAX (R177). Larder atomic FP32 maximum. -/
  | fmax (core : Nat)
  /-- CAS (R177). Larder atomic compare-and-swap. -/
  | cas (core : Nat)
  /-- FENCE_ST (R168). Control fence ordering earlier stores before later stores. -/
  | fenceSt (core : Nat)
  /-- FENCE_FULL (R168). Control fence ordering all earlier loads and stores before later ones. -/
  | fenceFull (core : Nat)
  /-- FENCE_FABRIC (R377). Control fence that also waits for acknowledgement of earlier Bridle and host-window writes. -/
  | fenceFabric (core : Nat)
  /-- FABRIC_FENCE_PROBE (R377). After 100 µs of waiting, a Bridle FENCE is sent to each destination with a long-outstanding write. -/
  | fabricFenceProbe (core t : Nat)
  /-- BARRIER (R150). A core applies the barrier's fence and makes its arrival at the group. -/
  | barrier (core : Nat)
  /-- BARRIER_COMPLETE (R150). Every member of a group has made its k-th arrival and the waiting cores proceed. -/
  | barrierComplete (part group : Nat)
  /-- SAFEPOINT (R151). A safe point issues once the core is idle, closing the segment and optionally writing a segment time record. -/
  | safepoint (core cycles t : Nat)
  /-- KNOCK (R433). A knock raises the room's regulator setpoint and may enter high-bandwidth mode. -/
  | knock (core : Nat)
  /-- KNOCK_HOLD_END (R433). A knock's HOLD expires and the setpoint returns toward target when no other knock holds it. `ended`: the knock and the room cycles since its issue. -/
  | knockHoldEnd (room : Nat) (ended : Nat × Nat)
  /-- PHASE (R148). A core marks entry into a harness phase for Rein and taps. -/
  | phase (core : Nat)
  /-- LOOP (R149). A LOOP pushes, decrements or pops the loop stack and jumps or continues. -/
  | loop (core : Nat)
  /-- WAITV (R148). A core issues once the word at an address, read with acquire, equals the expected value. `sev`, `off`: a storage error that the read meets. -/
  | waitv (core : Nat) (sev : Option Nat) (off : Nat)
  /-- END_STEP (R152). A core, with all its work handled, reports reaching the end of the step. -/
  | endStep (core : Nat) (det : Option (Nat × Nat))
  /-- COPY_LINEAR (R160). A copy ISSUE of a LINEAR descriptor starts in its slot. -/
  | copyLinear (core : Nat)
  /-- COPY_STRIDED (R160). A copy ISSUE of a STRIDED descriptor starts in its slot. -/
  | copyStrided (core : Nat)
  /-- COPY_GATHER (R160). A copy ISSUE of a GATHER descriptor starts in its slot. -/
  | copyGather (core : Nat)
  /-- COPY_SCATTER (R160). A copy ISSUE of a SCATTER descriptor starts in its slot. -/
  | copyScatter (core : Nat)
  /-- COPY_TABLE (R160). A copy ISSUE of a TABLE descriptor starts in its slot. -/
  | copyTable (core : Nat)
  /-- COPY_REDUCE (R160). A copy ISSUE of a REDUCE descriptor starts sending reduce-writes. -/
  | copyReduce (core : Nat)
  /-- COPY_WAIT (R158). A copy WAIT handles the status of each DONE slot in its mask and frees it. -/
  | copyWait (core : Nat)
  /-- COPY_UNIT_MOVE (R162). The copy engine moves one unit of an active copy, updating taps and marks. -/
  | copyUnitMove (core slot unit : Nat) (ext : Bytes) (det : Option (Nat × Nat)) (link : Nat × Nat) (t : Nat)
  /-- COPY_COMPLETE (R164). Every read and write of a copy has returned or been acknowledged and its slot becomes DONE with a status. -/
  | copyComplete (core slot : Nat)
  /-- FLIT_FORWARD (R224). A router forwards a flit across a boundary queue against credit, combining reduce-writes where allowed. `hop`: the flit met on the way and the slot. -/
  | flitForward (id : Nat) (hop : Option Nat × Nat)
  /-- HALL_SLOT_FRAME_BOUNDARY (R238). A sending room reaches a slot frame boundary and accepted slot table writes take effect. -/
  | hallSlotFrameBoundary (lane : Nat)
  /-- FLIT_ARRIVE (R234). A flit reaches its endpoint, is checked by generation and performed or dropped. -/
  | flitArrive (id : Nat) (crcBad : Bool) (host : Nat) (det : Option (Nat × Nat)) (t : Nat)
  /-- REDUCE_WRITE_ARRIVE (R230). A reduce-write reaches its destination slice and is applied or staged until all listed contributions arrive. -/
  | reduceWriteArrive (id : Nat) (det : Option (Nat × Nat))
  /-- HALL_LINK_RETRAIN_END (R524). A 50 µs hallway link retrain ends, with three failures taking the link down and stopping every partition. -/
  | hallLinkRetrainEnd (room side : Nat) (ok : Bool) (t : Nat)
  /-- CELLAR_ACCESS (R191). A cellar controller performs a burst read or write, with ECC, encryption and read-modify-write. -/
  | cellarAccess (ctrl : Nat) (det : Option (Nat × Nat)) (link : Nat)
  /-- CELLAR_MR4_POLL (R203). The 1 ms MR4 poll of a package updates its group's heat level and limits. -/
  | cellarMr4Poll (pkg mr4 range t : Nat)
  /-- ATTEMPT_START (R137). An attempt of a step starts, resetting slots, loops, statistics, taps, DONE words and staging, and cores begin at their entry bundles. -/
  | attemptStart (part t : Nat)
  /-- ATTEMPT_CLOSE (R309). All cores reached END_STEP and jobs finished; vote-group norms are checked and CLOSE messages are sent. -/
  | attemptClose (part t : Nat)
  /-- FINAL_VOTE (R309). With every CLOSE accepted, the final vote is formed and acted on: state records, pairs, step number, audit, sparing and variant selection. -/
  | finalVote (part t : Nat)
  /-- QUIESCE_DONE (R236). The partition's in-flight flit count reaches zero and the migration proceeds. -/
  | quiesceDone (part : Nat)
  /-- MIGRATION_DONE (R235). Migration copies finish, substitution maps update and the partition resumes. `moved`: the partition, and whether a read met an uncorrectable error. -/
  | migrationDone (moved : Nat × Bool)
  /-- CURRIER_ORTHO (R286). A Currier ORTHO job starts when due and computes orthogonalised momentum. -/
  | currierOrtho (part job : Nat) (fails : List StitchDet)
  /-- KRON_STATS (R287). A Currier job updates one Kronecker factor. -/
  | kronStats (part job : Nat) (fails : List StitchDet)
  /-- KRON_ROOT (R287). A Currier job computes an inverse fourth root of a factor. -/
  | kronRoot (part job : Nat) (fails : List StitchDet)
  /-- KRON_APPLY (R287). A Currier job preconditions a gradient with two roots. -/
  | kronApply (part job : Nat) (fails : List StitchDet)
  /-- GRADCHECK (R296). A Currier job checks a gradient for non-finite values and writes its norm partial. -/
  | gradcheck (part job : Nat)
  /-- PACK (R301). A Currier job compresses gradient chunks with residuals into exchange messages and sends them. -/
  | pack (part job : Nat)
  /-- UNPACK (R307). A Currier job starts decoding and summing received chunks. -/
  | unpack (part job : Nat)
  /-- UNPACK_CHUNK_DECODE (R307). Once every ordinal's message holding a chunk is accepted and a staging slot is free, the chunk is decoded and summed. -/
  | unpackChunkDecode (part job : Nat)
  /-- CURRIER_JOB_DONE (R280). A Currier job finishes and writes 1 to its DONE word with release ordering. -/
  | currierJobDone (part job : Nat)
  /-- XG_MESSAGE_RECEIVE (R304). An assembled exchange message is accepted, held, or discarded by step and attempt. -/
  | xgMessageReceive (part t : Nat)
  /-- EXCHANGE_STALL_TIMEOUT (R308). No exchange progress within BRDL_XG_TIMEOUT stops the partition with EXCHANGE_STALL. -/
  | exchangeStallTimeout (part t : Nat)
  /-- BRDL_READ (R370). An arriving Bridle READ is resolved through the region table and answered. -/
  | brdlRead (port : Nat) (det : Option (Nat × Nat)) (t : Nat)
  /-- BRDL_WRITE (R366). An arriving sequenced WRITE is applied once in order, held, or answered. `met`: a storage error met, and the time. -/
  | brdlWrite (port : Nat) (met : Option (Nat × Nat) × Nat)
  /-- BRDL_FENCE (R377). An arriving FENCE is answered once every lower-sequenced transaction is performed. -/
  | brdlFence (port t : Nat)
  /-- BRDL_EXCHANGE (R378). An arriving EXCHANGE fragment is assembled, delivering the message at its LAST fragment. -/
  | brdlExchange (port t : Nat)
  /-- ATOMIC_ADD (R366). An arriving Bridle atomic add is applied in sequence or returns its saved result. `met`: a storage error met, and the time. -/
  | atomicAdd (port : Nat) (met : Option (Nat × Nat) × Nat)
  /-- ATOMIC_MIN (R366). An arriving Bridle atomic minimum is applied in sequence. `met`: a storage error met, and the time. -/
  | atomicMin (port : Nat) (met : Option (Nat × Nat) × Nat)
  /-- ATOMIC_MAX (R366). An arriving Bridle atomic maximum is applied in sequence. `met`: a storage error met, and the time. -/
  | atomicMax (port : Nat) (met : Option (Nat × Nat) × Nat)
  /-- ATOMIC_CAS (R366). An arriving Bridle compare-and-swap is applied in sequence. `met`: a storage error met, and the time. -/
  | atomicCas (port : Nat) (met : Option (Nat × Nat) × Nat)
  /-- OWN_REQ (R373). The home queues an ownership request and grants it when the region has no owner. -/
  | ownReq (port t : Nat)
  /-- OWN_GRANT (R372). An arriving grant makes this node owner and writes notice 1. -/
  | ownGrant (port t : Nat)
  /-- OWN_RELEASE (R373). The home accepts a release from the owner, clears the owner and answers. -/
  | ownRelease (port t : Nat)
  /-- PTP (R379). An IEEE 1588 message arrives over Bridle and disciplines the clock. -/
  | ptp (port err t : Nat)
  /-- READ_RSP (R369). A read response matching the current attempt completes the read. -/
  | readRsp (port t : Nat)
  /-- WRITE_ACK (R369). A write acknowledgement completes the write. -/
  | writeAck (port t : Nat)
  /-- FENCE_RSP (R377). A fence response counts every lower-sequenced write as answered. -/
  | fenceRsp (port t : Nat)
  /-- EXCHANGE_ACK (R369). An acknowledgement of an exchange message's last fragment completes it. -/
  | exchangeAck (port t : Nat)
  /-- ATOMIC_RSP (R369). An atomic response returns the old value. -/
  | atomicRsp (port t : Nat)
  /-- OWN_ACK (R372). The home's acknowledgement of an ownership request arrives, or a refusal writes notice 3. -/
  | ownAck (port t : Nat)
  /-- GRANT_ACK (R361). The requester's acknowledgement of a grant arrives at the home. -/
  | grantAck (port t : Nat)
  /-- RELEASE_ACK (R372). A release acknowledgement writes notice 2. -/
  | releaseAck (port t : Nat)
  /-- TXN_HELD_RETRY (R362). 20 µs after a HELD answer the transaction is sent again with the same attempt. -/
  | txnHeldRetry (tag t : Nat)
  /-- TXN_ATTEMPT_TIMEOUT (R368). An attempt without response for 2 ms is reissued on the next path, marking dead paths. -/
  | txnAttemptTimeout (tag t : Nat)
  /-- TXN_LIFETIME_EXPIRY (R368). After 50 ms the transaction completes with LINK_LOST and frees its tag. -/
  | txnLifetimeExpiry (tag t : Nat)
  /-- LINK_PACKET_RECEIVE (R357). A numbered link packet is accepted, discarded as duplicate, or answered with NAK. -/
  | linkPacketReceive (port : Nat) (pkt : Bytes) (marked : Nat) (t : Nat)
  /-- LINK_ACK (R358). An ACK frees replay buffer packets or triggers a retrain on a protocol error. -/
  | linkAck (port : Nat) (pkt : Bytes) (t : Nat)
  /-- LINK_NAK (R358). A NAK frees acknowledged packets and resends the rest in order. -/
  | linkNak (port : Nat) (pkt : Bytes) (t : Nat)
  /-- LINK_CREDIT (R355). A credit packet returns freed receive buffers to the sender. -/
  | linkCredit (port : Nat) (pkt : Bytes) (t : Nat)
  /-- LINK_ACK_DELAY_EXPIRY (R357). 1 µs after an accepted packet, or at 64 packets, the receiver sends its acknowledgement. -/
  | linkAckDelayExpiry (port t : Nat)
  /-- LINK_REPLAY_TIMEOUT (R359). 10 µs without acknowledgement resends all unacknowledged packets; four in a row start a retrain. -/
  | linkReplayTimeout (port t : Nat)
  /-- LINK_RETRAIN_COMPLETE (R359). A retrain ends, the ends exchange expected sequences and resume. -/
  | linkRetrainComplete (port peerE t : Nat)
  /-- LINK_DOWN (R359). A retrain not complete within 2 ms takes the port down. -/
  | linkDown (port t : Nat)
  /-- PORT_LINK_UP (R350). A Bridle port trains and comes up on its cable. -/
  | portLinkUp (port medium mw t : Nat)
  /-- BRIDLE_START_DELAY_END (R365). 100 ms after its first port comes up the module may send Bridle transactions. -/
  | bridleStartDelayEnd (t : Nat)
  /-- RING_DOORBELL (R391). A doorbell write sets a command ring's TAIL or a completion or receipt ring's HEAD. -/
  | ringDoorbell (fn ring val : Nat)
  /-- DESCRIPTOR_FETCH (R393). A command ring's arbiter grant takes the descriptor at HEAD and checks its sequence and fields. -/
  | descriptorFetch (fn ring : Nat) (desc : Bytes) (t : Nat)
  /-- ARBITER_DECISION (R410). At the end of a grant the port arbiter grants the highest-priority requesting ring, raising starved rings. -/
  | arbiterDecision (port slot : Nat)
  /-- LOAD_HARNESS (R248). A partition checks and places a harness image. -/
  | loadHarness (part ring : Nat) (img img2 : Bytes) (t : Nat)
  /-- RUN_STEPS (R261). A request starts running a number of steps, reading the select word first. -/
  | runSteps (part ring t : Nat)
  /-- HOST_COPY (R394). A host request copies bytes between a host window and the partition. `read`: the bytes the host gave and a storage error met. -/
  | hostCopy (part ring : Nat) (read : Bytes × Option (Nat × Nat)) (t : Nat)
  /-- SNAPSHOT (R336). A request opens a snapshot stream of chosen ranges at a step boundary. -/
  | snapshot (part ring : Nat) (ext : Bytes) (t : Nat)
  /-- SNAPSHOT_DONE (R338). The snapshot's trailer is acknowledged, or a fault ends it, releasing holds and posting the event. -/
  | snapshotDone (part t : Nat)
  /-- CHECKPOINT (R324). A request writes a two-copy checkpoint and optional export. -/
  | checkpoint (part ring : Nat) (ext : Bytes) (t : Nat)
  /-- RESTORE (R328). A request restores a checkpoint slot or imported image. -/
  | restore (part ring : Nat) (ext img : Bytes) (t : Nat)
  /-- REPLAY (R331). A request re-executes journalled steps in ordered mode and compares digests. -/
  | replay (part ring : Nat) (ext jbytes : Bytes) (t : Nat)
  /-- QUERY_STATUS (R394). A QUERY of kind 0 writes step, vote, harness and partition status. -/
  | queryStatus (fn ring t : Nat)
  /-- QUERY_TIME (R394). A QUERY of kind 1 writes monotonic and TAI time and the discontinuity count. -/
  | queryTime (fn ring t : Nat)
  /-- HOST_FENCE (R395). A FENCE request completes once every earlier request of its function has completed. -/
  | hostFence (fn ring t : Nat)
  /-- COMPLETION_RECORD_WRITE (R397). A held completion record is written once the completion ring has space. -/
  | completionRecordWrite (fn ring t : Nat)
  /-- RECEIPT_SIGN (R482). With budget available the Meter signs the oldest due record and writes it to its ring. -/
  | receiptSign (t : Nat)
  /-- SIGN_BUDGET_TICK (R482). Every 50 µs the signature budget gains one, up to 2,000. -/
  | signBudgetTick (t : Nat)
  /-- FUNCTION_LEVEL_RESET (R388). An FLR of a VF disables its rings and holds its partition at the next boundary. -/
  | functionLevelReset (fn t : Nat)
  /-- PERST_N (R557). PERST_N low for 100 µs takes a port's link down and resets its functions. -/
  | perstN (port us t : Nat)
  /-- PCIE_LINK_CHANGE (R389). A PCIe link goes down or returns, holding or releasing host-window accesses. -/
  | pcieLinkChange (port rate width flit t : Nat)
  /-- HOST_WINDOW_TIMEOUT (R389). A host-window access waiting 50 ms on a down link completes with LINK_LOST. -/
  | hostWindowTimeout (kind a b t : Nat)
  /-- PART_CREATE (R402). TACK_PART_CTRL.CREATE creates a partition with keys and live pages. -/
  | partCreate (part t : Nat)
  /-- PART_DESTROY (R405). TACK_PART_CTRL.DESTROY stops, revokes and zeroises a partition. -/
  | partDestroy (part t : Nat)
  /-- PART_MOVE (R406). TACK_PART_CTRL.MOVE schedules migration of a partition to new tiles. -/
  | partMove (part t : Nat)
  /-- PART_ZEROISED (R405). Zeroisation of a destroyed partition completes, resources return to the pool and the event posts. -/
  | partZeroised (part t : Nat)
  /-- OPERATOR_ROOM_REBRINGUP (R18). An operator re-brings-up a logical room outside running partitions, substituting it. -/
  | operatorRoomRebringup (lr : Nat) (out : BringOut) (t : Nat)
  /-- GLB_REQ_READY_IDLE (R548). A write of REQ 00 wakes the device from retain or dark. -/
  | glbReqReadyIdle (out : BringOut) (t : Nat)
  /-- GLB_REQ_RETAIN (R548). A write of REQ 01 moves the device to retain. -/
  | glbReqRetain (t : Nat)
  /-- GLB_REQ_DARK (R548). A write of REQ 10 moves the device to dark. -/
  | glbReqDark (t : Nat)
  /-- POWER_STATE_CHANGE_DONE (R548). A power state change completes and any pending request takes effect. -/
  | powerStateChangeDone (t : Nat)
  /-- RETAIN_AUTO_WAKE (R549). A descriptor or Bridle transaction arriving in retain wakes the device. -/
  | retainAutoWake (port : Option Nat) (fn ring op t : Nat)
  /-- BUSBAR_CHANGE (R422). A busbar input is lost or returns and BUS_CHANGE posts. -/
  | busbarChange (aMv bMv t : Nat)
  /-- BUS_UNDERVOLTAGE (R422). The 54 V bus below 46 V for 1 ms stops every converter. -/
  | busUndervoltage (t : Nat)
  /-- PORCH_CONVERTER_FAIL (R423). A porch converter fails; with both of a side gone, partitions stop with PORCH_POWER. -/
  | porchConverterFail (conv t : Nat)
  /-- ROOM_CONVERTER_FAIL (R426). A room converter fails and the tie closes, or the room goes dark and every partition stops. -/
  | roomConverterFail (room t : Nat)
  /-- PHASE_FAIL (R429). A regulator phase fails and opens, lowering the room's limit and forcing a stretch. -/
  | phaseFail (room phase fault t : Nat)
  /-- ROOM_OVERCURRENT (R434). Room core current above 250 A opens all headers and stops the converter. -/
  | roomOvercurrent (room deciamps t : Nat)
  /-- DROOP_STRETCH_START (R432). The droop minimum 30 mV below target doubles the room's clock period. -/
  | droopStretchStart (room mv t : Nat)
  /-- DROOP_STRETCH_END (R432). After 64 stretched cycles within 15 mV the droop stretch ends. -/
  | droopStretchEnd (room mv cycles t : Nat)
  /-- THERMTRIP (R435). A sensor at 110 °C or an external low on THERMTRIP_N stops every converter. -/
  | thermtrip (room : Option Nat) (t : Nat)
  /-- SHED_ASSERT (R459). SHED_N asserted forces the shed stretch in every live room. -/
  | shedAssert (t : Nat)
  /-- SHED_RELEASE (R458). SHED_N released lifts the shed stretch and resets the facility envelope. -/
  | shedRelease (t : Nat)
  /-- NEIGHBOUR_TEMP_SKEW (R217). Neighbour junction temperatures differing by over 40 K set the hotter room to OP0 and post HALL_SKEW. -/
  | neighbourTempSkew (a ta b tb t : Nat)
  /-- POWER_WAVE_START (R436). A power-up wave starts its rooms' soft-start sequence. -/
  | powerWaveStart (t : Nat)
  /-- HEADER_STAGE_END (R437). A header stage ends with its short check. `drawn`: the peak current and the rooms that drooped. -/
  | headerStageEnd (room railMv : Nat) (drawn : Nat × List Nat) (t : Nat)
  /-- ROOM_FULL_CHECK (R438). A room's full check repeats or retires failing tiles or fails the room. -/
  | roomFullCheck (room railMv : Nat) (tiles : List Nat) (t : Nat)
  /-- INRUSH_SHORT_DETECT (R439). A room failing the short check is isolated and its neighbours hold their stage. -/
  | inrushShortDetect (room deciamps : Nat) (drooped : List Nat) (t : Nat)
  /-- INRUSH_FAULT_CLEAR (R439). The faulty room's current falls below 1 A and drooped rooms repeat their full check. -/
  | inrushFaultClear (room t : Nat)
  /-- HEADER_STAGE_HOLD_END (R439). 50 µs after the fault clears, held neighbours repeat their stage. -/
  | headerStageHoldEnd (room t : Nat)
  /-- REFCLK_LOSS (R441). Loss of a reference input moves consumers to their next source. -/
  | refclkLoss (input t : Nat)
  /-- REFCLK_RETURN (R441). A reference present for 10 µs takes back its consumers. -/
  | refclkReturn (input t : Nat)
  /-- ROOM_REF_LOSS (R443). A room losing its reference source switches source or holds over. -/
  | roomRefLoss (room t : Nat)
  /-- HOLDOVER_CAP (R443). A holdover lasting 1 ms caps the room at OP3. -/
  | holdoverCap (room t : Nat)
  /-- ROOM_STOPPED (R444). Every live core of a room reaches a stopped state and the clock switch or relock begins. -/
  | roomStopped (room t : Nat)
  /-- CLOCK_SWITCH_DONE (R444). The divider switch or relock ends and sequencers resume at the new clock. -/
  | clockSwitchDone (room t : Nat)
  /-- VOLTAGE_RAMP_DONE (R444). A setpoint ramp of an operating-point change reaches its target. -/
  | voltageRampDone (room t : Nat)
  /-- REIN_DECISION (R452). Every 100 µs Rein updates histories and assigns operating points within the effective cap. `seen`: the readings of the rooms and of their converters. -/
  | reinDecision (seen : List (Nat × Nat × Bool × Int) × List (Nat × Nat × Nat × List Nat)) (inputMw t : Nat)
  /-- INLET_POLL (R460). At 10 Hz Rein reads the inlet sensors, posting INLET_LOST on loss. -/
  | inletPoll (a b c d : Option Int) (t : Nat)
  /-- RTH_ESTIMATE (R461). Once per second Rein updates the thermal resistance estimate. -/
  | rthEstimate (calm : Bool) (meanMw t : Nat)
  /-- THERMAL_CEILING_RAISE (R463). Each second with every sensor below 90 °C raises a room's thermal ceiling. -/
  | thermalCeilingRaise (room t : Nat)
  /-- FAN_DUTY_UPDATE (R464). Once per second Rein recomputes the fan duty. `seen` is the measured speeds of the fans in rpm,
and the time. -/
  | fanDutyUpdate (seen : List Nat × Nat)
  /-- FAN_FAIL (R465). A fan below 10 % of expected speed for 5 s fails and drives full duty. -/
  | fanFail (fan rpm t : Nat)
  /-- THROTTLE_END (R468). A reason out of force for 1 ms ends its occurrence and posts THROTTLE_END. -/
  | throttleEnd (k room t : Nat)
  /-- METER_INTERVAL (R476). Each 1 ms interval the Meter integrates energy into lines and requests and may close the ledger day. -/
  | meterInterval (input : Nat) (rooms : List (Nat × Nat)) (counts : List (Nat × Nat × Nat × Nat)) (t : Nat)
  /-- LEDGER_RESEND (R489). MTR_LEDGER_CTRL.RESEND sends again the kept records of a day with RESENT set. -/
  | ledgerResend (day : Nat)
  /-- METER_INTEGRITY_FAULT (R530). CAL_OK or KEY_OK falling stops every partition with METER_FAULT. -/
  | meterIntegrityFault (cal key : Bool)
  /-- STANDBY_FAIL (R495). Impending standby failure makes the Meter hold up and save its state. -/
  | standbyFail (t : Nat)
  /-- EPOCH_ROLL (R399). TIME_US wrapping posts EPOCH_ROLL to every enabled event ring. -/
  | epochRoll (t : Nat)
  /-- TIME_SET_GO (R493). TIME_SET_CTRL.GO applies the set time as a correction. -/
  | timeSetGo (t : Nat)
  /-- TIME_SET_AT_PPS (R492). TIME_SET_CTRL.AT_PPS arms the set time for the next PPS edge. -/
  | timeSetAtPps (t : Nat)
  /-- PPS_EDGE (R492). A PPS_IN edge aligns the second's phase and applies an armed set time. -/
  | ppsEdge (falling : Bool) (t : Nat)
  /-- TIME_SET_YMD_WRITE (R485). A date write is checked and refused if impossible. -/
  | timeSetYmdWrite (v : Nat)
  /-- TIME_SET_HMS_WRITE (R485). A time-of-day write is checked and refused if impossible. -/
  | timeSetHmsWrite (v : Nat)
  /-- TIME_SET_NS_WRITE (R497). A nanosecond write above 999,999,999 is refused as TIME_INVALID. -/
  | timeSetNsWrite (v : Nat)
  /-- UTC_OFFSET_CHANGE (R491). At TIME_NEXT_AT the scheduled UTC offset takes effect. -/
  | utcOffsetChange (t : Nat)
  /-- WALL_TIME_UNSYNC_TIMEOUT (R492). No source correction for 1,000 s makes wall time unsynced. -/
  | wallTimeUnsyncTimeout (t : Nat)
  /-- COLD_BRINGUP (R500). RST_N rising or standby rails regulating start the staged cold bring-up. -/
  | coldBringup (out : BringOut) (t : Nat)
  /-- RESET_ASSERT (R557). RST_N low for 1 ms stops every converter but standby. -/
  | resetAssert (t : Nat)
  /-- SURVEY_CONFIRM (R509). ID_CTRL.CONFIRM writes the survey list to all copies. -/
  | surveyConfirm (t : Nat)
  /-- FW_STAGE (R511). TACK_FW_CTRL.STAGE reads, checks and writes a firmware image into the other slot. -/
  | fwStage (img : Bytes) (t : Nat)
  /-- FW_ARM (R511). TACK_FW_CTRL.ARM makes the boot record prefer the staged slot on trial. -/
  | fwArm (t : Nat)
  /-- FW_CONFIRM (R511). TACK_FW_CTRL.CONFIRM keeps the new slot and raises the anti-rollback count. -/
  | fwConfirm (t : Nat)
  /-- FW_TRIAL_WATCHDOG (R511). A trial image not READY within 10 s restarts from the other slot. -/
  | fwTrialWatchdog (t : Nat)
  /-- FW_ABI_SEL_WRITE (R512). A write of TACK_FW_ABI_SEL selects the firmware ABI when in range and idle. -/
  | fwAbiSelWrite (v : Nat)
  /-- MCTP_MESSAGE (R561). An MCTP or PLDM message on the management bus is answered. -/
  | mctpMessage (addr kind sensor t : Nat)
  /-- HALL_SHARED_WRITE (R237). A write of HALL_CFG.SHARED changes mode unless a harness or several partitions forbid it. -/
  | hallSharedWrite (v : Nat)
  /-- HALL_SLOT_WRITE (R238). A slot owner write is accepted unless it touches a partition holding a harness. -/
  | hallSlotWrite (lane slot v : Nat)
  /-- PORCH_SLOT_WRITE (R409). A cellar, PCIe or Bridle port slot write is accepted unless it touches a partition holding a harness. -/
  | porchSlotWrite (kind inst idx v : Nat)
  /-- BRDL_PART_ALLOT_WRITE (R381). A tag allotment write is refused if allotments would exceed 40,960. -/
  | brdlPartAllotWrite (part v : Nat)
  /-- BRDL_REGION_VALID_WRITE (R383). Setting VALID is refused when the target or range is out of bounds. -/
  | brdlRegionValidWrite (region v : Nat)
  /-- ECC_ON_WRITE (R207). A write of ECC_ON is accepted only with no harness and a zeroised range. -/
  | eccOnWrite (part v : Nat)
  /-- RING_ALLOT_WRITE (R390). A ring allotment write is ignored if totals exceed 65,536 or PF rings are enabled. -/
  | ringAllotWrite (fn v : Nat)
  /-- RING_CTX_ENABLE (R417). EN going 0 to 1 on a ring context resets HEAD, TAIL and STOPPED. -/
  | ringCtxEnable (fn ring v : Nat)
  /-- RING_EVT_ENABLE (R416). EN going 0 to 1 on an event ring resets HEAD and TAIL. -/
  | ringEvtEnable (e v : Nat)
  /-- REIN_OP_CAP_WRITE (R457). An operator cap write is clamped to 1,000–10,000 W. -/
  | reinOpCapWrite (v : Nat)
  /-- REIN_FAC_TARGET_WRITE (R457). A facility target write is clamped to 1,000–10,000 W. -/
  | reinFacTargetWrite (v : Nat)
  /-- REIN_SHED_LEVEL_WRITE (R457). A shed level write is raised to at least 3,000 W. -/
  | reinShedLevelWrite (v : Nat)
  /-- JOURNAL_FLOOR_WRITE (R316). Raising TACK_JRNL_FLOOR may release a journal hold at the boundary. -/
  | journalFloorWrite (part v : Nat)
  /-- CFG_LOCK_WRITE (R540). Writing 1 to CFG_LOCK locks the page's RWL fields. -/
  | cfgLockWrite (typ inst v : Nat)
  /-- SOFT_RESET (R537). SOFT_RESET resets a page's fields where its block type allows. -/
  | softReset (typ inst : Nat)
  /-- PORT_DISABLE (R537). Writing 0 to a Bridle port's ENABLE takes it down and holds it down. -/
  | portDisable (port t : Nat)
  /-- PORT_ENABLE (R537). Writing 1 to a Bridle port's ENABLE trains the port. -/
  | portEnable (port medium mw t : Nat)
  /-- FREEZE_WRITE (R538). FREEZE freezes or releases the read values of a page's updated fields. -/
  | freezeWrite (typ inst : Nat) (on : Bool) (t : Nat)
  /-- LO_REGISTER_READ (R533). A 4-byte read of an updated _LO register latches its _HI partner. -/
  | loRegisterRead (fn addr n t : Nat)
  /-- REGISTER_WRITE (R5). A write to a register without its own row acts by its access type. -/
  | registerWrite (fn addr n v : Nat) (env : WriteEnv) (t : Nat)
  /-- ROOM_REF_LOCK (R443). A room in holdover locks again to a present source, lifting REF_CAPPED and resuming forwarding of the reference. -/
  | roomRefLock (room rank t : Nat)
  /-- CABLE_SUPPLY_OVERLOAD (R567). A cable drawing more than 3.0 W for 10 ms has its connector supply switched off and its four ports held down. -/
  | cableSupplyOverload (conn t : Nat)
  /-- RTH_FLASH_SAVE (R461). Once an hour the Tack Room saves the R_th estimate to flash for use at the next cold bring-up. -/
  | rthFlashSave (t : Nat)
  /-- WALL_TIME_SLEW_DONE (R493). A running slew of wall time absorbs the last of its correction, so SLEWING clears and wall time runs at its normal rate. -/
  | wallTimeSlewDone (t : Nat)
  /-- FAN_OK (R465). A failed fan turns at its expected speed again, its OK bit is set and, once every fan is OK, the forced 100 % duty ends. -/
  | fanOk (fan rpm t : Nat)
  /-- FIRMWARE_RESTART (R518). An uncorrectable error in a Tack Room memory restarts the firmware from the running slot, with the R516 registers reading 0 meanwhile. -/
  | firmwareRestart (addr t : Nat)
  deriving DecidableEq, Repr

end Sys2Proof
end

