-- ==== Sys2Proof/Decode.lean ====
section
/-! DEFINITION. The command a word of the opcode table spells. The table gives no row any bits: the block takes commands,
not words. -/

namespace Sys2Proof

/-- No row of the table has bits, so no word spells a command. (Log 6: DESIGN CHOICE.) -/
def decodeTableWord (_nbits _w : Nat) : Option Instr := none

end Sys2Proof
end

