-- ==== Sys2Proof/Config.lean ====
section
/-! DEFINITION. The values an implementation fixes and the free values the spec leaves open, as opaque constants. -/

namespace Sys2Proof

/-- R197, R365: the hardware random source, by the free counter of State. (Log 7: DESIGN CHOICE.) -/
opaque Config.random : Nat → BitVec 256

/-- Bytes the spec leaves open (a load refused at order 8 of R249), by the free counter of State. (Log 7: DESIGN CHOICE.) -/
opaque Config.freeByte : Nat → Byte

/-- R301: the magnitude, as FP32, at which a NaN at index `i` of a chunk is ranked. (Log 27: DEDUCED.) -/
opaque Config.nanRank : Nat → Word

/-- R306, R307: what element `i` of a chunk decodes to when its message, given here, is malformed or cannot be read. (Log 30: DESIGN
CHOICE.) -/
opaque Config.openChunk : List Byte → Nat → Word

/-- R472: the Meter's Ed25519 private key, which nothing outside the Meter can read. -/
opaque Config.meterKey : BitVec 256

/-- R379: the clock identity of the device, and its own data set in the comparison of the best master clock algorithm.
(Log 94: PRESUMED.) -/
opaque Config.ptpIdentity : BitVec 64
opaque Config.ptpOwnRank : List (BitVec 64)

/-- R536: the minor revision of the blocks of a type. (Log 12: DESIGN CHOICE.) -/
opaque Config.blkMinor : Nat → BitVec 8

end Sys2Proof
end

