-- ==== Sys2Proof/Machine/Table.lean ====
section
/-! DEFINITION. Operations on sparse tables in canonical form, and little-endian byte strings (R2). -/

namespace Sys2Proof.Machine
open Sys2Proof

/-- The entry at key `k`, or `d` where none is listed. -/
def tget {α : Type} (t : Table α) (k : Nat) (d : α) : α :=
  match t with
  | [] => d
  | (k', v) :: rest => if k = k' then v else tget rest k d

/-- The table without the key `k`. -/
def tdel {α : Type} (t : Table α) (k : Nat) : Table α :=
  match t with
  | [] => []
  | (k', v) :: rest =>
    if k < k' then (k', v) :: rest
    else if k = k' then rest
    else (k', v) :: tdel rest k

/-- The table with `v` at `k`, whatever `v` is. -/
def tins {α : Type} (t : Table α) (k : Nat) (v : α) : Table α :=
  match t with
  | [] => [(k, v)]
  | (k', v') :: rest =>
    if k < k' then (k, v) :: (k', v') :: rest
    else if k = k' then (k, v) :: rest
    else (k', v') :: tins rest k v

/-- The table with `v` at `k`; storing the default `d` removes the entry, so that equal tables are
equal lists. -/
def tput {α : Type} [DecidableEq α] (t : Table α) (k : Nat) (v d : α) : Table α :=
  if v = d then tdel t k else tins t k v

/-- Every key at or above `lo`, strictly rising, and no listed value equal to its key's default. -/
def tableWfFrom {α : Type} [DecidableEq α] (d : Nat → α) (lo : Nat) (t : Table α) : Bool :=
  match t with
  | [] => true
  | (k, v) :: rest => decide (lo ≤ k) && (!decide (v = d k)) && tableWfFrom d (k + 1) rest

/-- The canonical form of a sparse table whose unlisted key `k` holds `d k`. -/
def tableWf {α : Type} [DecidableEq α] (d : Nat → α) (t : Table α) : Bool := tableWfFrom d 0 t

/-- `f` applied to the entry at `k` of a table with default `d`. -/
def tmod {α : Type} [DecidableEq α] (t : Table α) (k : Nat) (d : α) (f : α → α) : Table α :=
  tput t k (f (tget t k d)) d

/-- Entries whose key lies in `[lo, lo + n)` removed (reads there answer the default). -/
def tclear {α : Type} (t : Table α) (lo n : Nat) : Table α :=
  t.filter (fun p => decide (p.1 < lo) || decide (lo + n ≤ p.1))

/-- Entries whose key lies in `[lo, lo + n)`. -/
def trange {α : Type} (t : Table α) (lo n : Nat) : Table α :=
  t.filter (fun p => decide (lo ≤ p.1) && decide (p.1 < lo + n))

/-- A set of Nats kept strictly rising. -/
def setAdd (l : List Nat) (k : Nat) : List Nat :=
  match l with
  | [] => [k]
  | x :: xs => if k < x then k :: x :: xs else if k = x then x :: xs else x :: setAdd xs k

/-- Removal from a set of Nats. -/
def setDel (l : List Nat) (k : Nat) : List Nat := l.filter (fun x => x != k)

/-- The set with `k` present exactly when `b`. -/
def setPut (l : List Nat) (k : Nat) (b : Bool) : List Nat := if b then setAdd l k else setDel l k

/-- `n` bytes of `x`, least significant first (R2). -/
def leBytes (n x : Nat) : Bytes :=
  match n with
  | 0 => []
  | k + 1 => BitVec.ofNat 8 x :: leBytes k (x / 256)

/-- The number a little-endian byte string spells (R2). -/
def leNat (bs : Bytes) : Nat :=
  match bs with
  | [] => 0
  | b :: rest => b.toNat + 256 * leNat rest

/-- Bits `[hi:lo]` of `x`. -/
def bitsOf (x hi lo : Nat) : Nat := (x / 2 ^ lo) % 2 ^ (hi + 1 - lo)

/-- Bit `i` of `x`. -/
def bitOf (x i : Nat) : Bool := x.testBit i

/-- 1 for true, 0 for false. -/
def b2n (b : Bool) : Nat := if b then 1 else 0

/-- `n` bytes of a byte string from offset `o`, short where the string ends. -/
def slice (bs : Bytes) (o n : Nat) : Bytes := (bs.drop o).take n

/-- The little-endian field of `n` bytes at offset `o`; bytes past the end read 0. -/
def fieldAt (bs : Bytes) (o n : Nat) : Nat := leNat (slice bs o n)

/-- `bs` padded with zero bytes to `n` bytes. -/
def padTo (bs : Bytes) (n : Nat) : Bytes := bs ++ List.replicate (n - bs.length) 0

/-- `bs` padded with zero bytes to a multiple of `m` bytes. -/
def padMul (bs : Bytes) (m : Nat) : Bytes :=
  bs ++ List.replicate ((m - bs.length % m) % m) 0

/-- Two's complement of `n` bits. -/
def toSigned (n x : Nat) : Int :=
  if x % 2 ^ n < 2 ^ (n - 1) then (x % 2 ^ n : Nat) else ((x % 2 ^ n : Nat) : Int) - (2 ^ n : Nat)

/-- An integer as an n-bit two's complement pattern. -/
def ofSigned (n : Nat) (x : Int) : Nat := (x % ((2 ^ n : Nat) : Int)).toNat

/-- R8: `serial_lt(a, b, w)`. -/
def serialLt (a b w : Nat) : Bool :=
  let d := (b % 2 ^ w + 2 ^ w - a % 2 ^ w) % 2 ^ w
  decide (0 < d) && decide (d < 2 ^ (w - 1))

/-- Saturating 32-bit count. -/
def sat32 (x : Nat) : Nat := min x 0xFFFFFFFF

/-- Saturating count of `n` bits. -/
def satN (n x : Nat) : Nat := min x (2 ^ n - 1)

/-- The number of bits of `n` (0 for 0), by binary descent: `fuel` halvings suffice. -/
def bitLen (n : Nat) : Nat := if n = 0 then 0 else Nat.log2 n + 1

/-- Insertion into a list sorted by `le`. -/
def insertBy {α : Type} (le : α → α → Bool) (x : α) : List α → List α
  | [] => [x]
  | y :: ys => if le x y then x :: y :: ys else y :: insertBy le x ys

/-- Stable insertion sort. -/
def sortBy {α : Type} (le : α → α → Bool) : List α → List α
  | [] => []
  | x :: xs => insertBy le x (sortBy le xs)

/-- The position of the first element satisfying `p`. -/
def findIdxFrom {α : Type} (p : α → Bool) (i : Nat) : List α → Option Nat
  | [] => none
  | x :: xs => if p x then some i else findIdxFrom p (i + 1) xs

/-- A fold that ends at the first error. -/
def foldE {ε σ α : Type} (f : σ → α → Except ε σ) (s : σ) : List α → Except ε σ
  | [] => .ok s
  | x :: xs =>
    match f s x with
    | .error e => .error e
    | .ok s' => foldE f s' xs

end Sys2Proof.Machine
end

