-- ==== Sys2Proof/Machine/Crypto.lean ====
section
/-! DEFINITION. The public algorithms the spec names: SHA-256 (R244), SHA-512 and Ed25519 (R244, R480), AES-256 in
XTS (R196), CRC-32 and CRC-64 (R263). -/

namespace Sys2Proof.Machine
open Sys2Proof

/-- FIPS 180-4: round constants of SHA-256. -/
def sha256K : List Nat :=
  [0x428A2F98, 0x71374491, 0xB5C0FBCF, 0xE9B5DBA5, 0x3956C25B, 0x59F111F1, 0x923F82A4, 0xAB1C5ED5] ++
  [0xD807AA98, 0x12835B01, 0x243185BE, 0x550C7DC3, 0x72BE5D74, 0x80DEB1FE, 0x9BDC06A7, 0xC19BF174] ++
  [0xE49B69C1, 0xEFBE4786, 0x0FC19DC6, 0x240CA1CC, 0x2DE92C6F, 0x4A7484AA, 0x5CB0A9DC, 0x76F988DA] ++
  [0x983E5152, 0xA831C66D, 0xB00327C8, 0xBF597FC7, 0xC6E00BF3, 0xD5A79147, 0x06CA6351, 0x14292967] ++
  [0x27B70A85, 0x2E1B2138, 0x4D2C6DFC, 0x53380D13, 0x650A7354, 0x766A0ABB, 0x81C2C92E, 0x92722C85] ++
  [0xA2BFE8A1, 0xA81A664B, 0xC24B8B70, 0xC76C51A3, 0xD192E819, 0xD6990624, 0xF40E3585, 0x106AA070] ++
  [0x19A4C116, 0x1E376C08, 0x2748774C, 0x34B0BCB5, 0x391C0CB3, 0x4ED8AA4A, 0x5B9CCA4F, 0x682E6FF3] ++
  [0x748F82EE, 0x78A5636F, 0x84C87814, 0x8CC70208, 0x90BEFFFA, 0xA4506CEB, 0xBEF9A3F7, 0xC67178F2]

/-- FIPS 180-4: initial value of SHA-256. -/
def sha256H : List Nat :=
  [0x6A09E667, 0xBB67AE85, 0x3C6EF372, 0xA54FF53A, 0x510E527F, 0x9B05688C, 0x1F83D9AB, 0x5BE0CD19]

/-- FIPS 180-4: round constants of SHA-512. -/
def sha512K : List Nat :=
  [0x428A2F98D728AE22, 0x7137449123EF65CD, 0xB5C0FBCFEC4D3B2F, 0xE9B5DBA58189DBBC] ++
  [0x3956C25BF348B538, 0x59F111F1B605D019, 0x923F82A4AF194F9B, 0xAB1C5ED5DA6D8118] ++
  [0xD807AA98A3030242, 0x12835B0145706FBE, 0x243185BE4EE4B28C, 0x550C7DC3D5FFB4E2] ++
  [0x72BE5D74F27B896F, 0x80DEB1FE3B1696B1, 0x9BDC06A725C71235, 0xC19BF174CF692694] ++
  [0xE49B69C19EF14AD2, 0xEFBE4786384F25E3, 0x0FC19DC68B8CD5B5, 0x240CA1CC77AC9C65] ++
  [0x2DE92C6F592B0275, 0x4A7484AA6EA6E483, 0x5CB0A9DCBD41FBD4, 0x76F988DA831153B5] ++
  [0x983E5152EE66DFAB, 0xA831C66D2DB43210, 0xB00327C898FB213F, 0xBF597FC7BEEF0EE4] ++
  [0xC6E00BF33DA88FC2, 0xD5A79147930AA725, 0x06CA6351E003826F, 0x142929670A0E6E70] ++
  [0x27B70A8546D22FFC, 0x2E1B21385C26C926, 0x4D2C6DFC5AC42AED, 0x53380D139D95B3DF] ++
  [0x650A73548BAF63DE, 0x766A0ABB3C77B2A8, 0x81C2C92E47EDAEE6, 0x92722C851482353B] ++
  [0xA2BFE8A14CF10364, 0xA81A664BBC423001, 0xC24B8B70D0F89791, 0xC76C51A30654BE30] ++
  [0xD192E819D6EF5218, 0xD69906245565A910, 0xF40E35855771202A, 0x106AA07032BBD1B8] ++
  [0x19A4C116B8D2D0C8, 0x1E376C085141AB53, 0x2748774CDF8EEB99, 0x34B0BCB5E19B48A8] ++
  [0x391C0CB3C5C95A63, 0x4ED8AA4AE3418ACB, 0x5B9CCA4F7763E373, 0x682E6FF3D6B2B8A3] ++
  [0x748F82EE5DEFB2FC, 0x78A5636F43172F60, 0x84C87814A1F0AB72, 0x8CC702081A6439EC] ++
  [0x90BEFFFA23631E28, 0xA4506CEBDE82BDE9, 0xBEF9A3F7B2C67915, 0xC67178F2E372532B] ++
  [0xCA273ECEEA26619C, 0xD186B8C721C0C207, 0xEADA7DD6CDE0EB1E, 0xF57D4F7FEE6ED178] ++
  [0x06F067AA72176FBA, 0x0A637DC5A2C898A6, 0x113F9804BEF90DAE, 0x1B710B35131C471B] ++
  [0x28DB77F523047D84, 0x32CAAB7B40C72493, 0x3C9EBE0A15C9BEBC, 0x431D67C49C100D4C] ++
  [0x4CC5D4BECB3E42B6, 0x597F299CFC657E2A, 0x5FCB6FAB3AD6FAEC, 0x6C44198C4A475817]

/-- FIPS 180-4: initial value of SHA-512. -/
def sha512H : List Nat :=
  [0x6A09E667F3BCC908, 0xBB67AE8584CAA73B, 0x3C6EF372FE94F82B, 0xA54FF53A5F1D36F1] ++
  [0x510E527FADE682D1, 0x9B05688C2B3E6C1F, 0x1F83D9ABFB41BD6B, 0x5BE0CD19137E2179]

/-- FIPS 197: the S-box. -/
def aesSbox : List Nat :=
  [0x63, 0x7C, 0x77, 0x7B, 0xF2, 0x6B, 0x6F, 0xC5, 0x30, 0x01, 0x67, 0x2B, 0xFE, 0xD7, 0xAB, 0x76] ++
  [0xCA, 0x82, 0xC9, 0x7D, 0xFA, 0x59, 0x47, 0xF0, 0xAD, 0xD4, 0xA2, 0xAF, 0x9C, 0xA4, 0x72, 0xC0] ++
  [0xB7, 0xFD, 0x93, 0x26, 0x36, 0x3F, 0xF7, 0xCC, 0x34, 0xA5, 0xE5, 0xF1, 0x71, 0xD8, 0x31, 0x15] ++
  [0x04, 0xC7, 0x23, 0xC3, 0x18, 0x96, 0x05, 0x9A, 0x07, 0x12, 0x80, 0xE2, 0xEB, 0x27, 0xB2, 0x75] ++
  [0x09, 0x83, 0x2C, 0x1A, 0x1B, 0x6E, 0x5A, 0xA0, 0x52, 0x3B, 0xD6, 0xB3, 0x29, 0xE3, 0x2F, 0x84] ++
  [0x53, 0xD1, 0x00, 0xED, 0x20, 0xFC, 0xB1, 0x5B, 0x6A, 0xCB, 0xBE, 0x39, 0x4A, 0x4C, 0x58, 0xCF] ++
  [0xD0, 0xEF, 0xAA, 0xFB, 0x43, 0x4D, 0x33, 0x85, 0x45, 0xF9, 0x02, 0x7F, 0x50, 0x3C, 0x9F, 0xA8] ++
  [0x51, 0xA3, 0x40, 0x8F, 0x92, 0x9D, 0x38, 0xF5, 0xBC, 0xB6, 0xDA, 0x21, 0x10, 0xFF, 0xF3, 0xD2] ++
  [0xCD, 0x0C, 0x13, 0xEC, 0x5F, 0x97, 0x44, 0x17, 0xC4, 0xA7, 0x7E, 0x3D, 0x64, 0x5D, 0x19, 0x73] ++
  [0x60, 0x81, 0x4F, 0xDC, 0x22, 0x2A, 0x90, 0x88, 0x46, 0xEE, 0xB8, 0x14, 0xDE, 0x5E, 0x0B, 0xDB] ++
  [0xE0, 0x32, 0x3A, 0x0A, 0x49, 0x06, 0x24, 0x5C, 0xC2, 0xD3, 0xAC, 0x62, 0x91, 0x95, 0xE4, 0x79] ++
  [0xE7, 0xC8, 0x37, 0x6D, 0x8D, 0xD5, 0x4E, 0xA9, 0x6C, 0x56, 0xF4, 0xEA, 0x65, 0x7A, 0xAE, 0x08] ++
  [0xBA, 0x78, 0x25, 0x2E, 0x1C, 0xA6, 0xB4, 0xC6, 0xE8, 0xDD, 0x74, 0x1F, 0x4B, 0xBD, 0x8B, 0x8A] ++
  [0x70, 0x3E, 0xB5, 0x66, 0x48, 0x03, 0xF6, 0x0E, 0x61, 0x35, 0x57, 0xB9, 0x86, 0xC1, 0x1D, 0x9E] ++
  [0xE1, 0xF8, 0x98, 0x11, 0x69, 0xD9, 0x8E, 0x94, 0x9B, 0x1E, 0x87, 0xE9, 0xCE, 0x55, 0x28, 0xDF] ++
  [0x8C, 0xA1, 0x89, 0x0D, 0xBF, 0xE6, 0x42, 0x68, 0x41, 0x99, 0x2D, 0x0F, 0xB0, 0x54, 0xBB, 0x16]

/-- A big-endian byte string as a number. -/
def beNat (bs : Bytes) : Nat := bs.foldl (fun a b => a * 256 + b.toNat) 0

/-- `n` bytes of `x`, most significant first. -/
def beBytes (n x : Nat) : Bytes := (leBytes n x).reverse

/-- A byte string cut into `n` blocks of `m` bytes. -/
def blocks (bs : Bytes) (m n : Nat) : List Bytes := (List.range n).map (fun i => slice bs (m * i) m)

/-- Rotate right of a `w`-bit word. -/
def rotr (w x n : Nat) : Nat := x / 2 ^ n + x % 2 ^ n * 2 ^ (w - n)

/-- The SHA-2 shape: word width, rotation amounts of Sigma0, Sigma1, sigma0, sigma1, round constants. -/
structure Sha2 where
  w : Nat
  s0 : Nat × Nat × Nat
  s1 : Nat × Nat × Nat
  t0 : Nat × Nat × Nat
  t1 : Nat × Nat × Nat
  ks : List Nat
  deriving DecidableEq, Repr

def sha256P : Sha2 := ⟨32, (2, 13, 22), (6, 11, 25), (7, 18, 3), (17, 19, 10), sha256K⟩
def sha512P : Sha2 := ⟨64, (28, 34, 39), (14, 18, 41), (1, 8, 7), (19, 61, 6), sha512K⟩

/-- Upper-case Sigma: three rotations. -/
def bigSig (w : Nat) (r : Nat × Nat × Nat) (x : Nat) : Nat := rotr w x r.1 ^^^ rotr w x r.2.1 ^^^ rotr w x r.2.2
/-- Lower-case sigma: two rotations and a shift. -/
def smallSig (w : Nat) (r : Nat × Nat × Nat) (x : Nat) : Nat := rotr w x r.1 ^^^ rotr w x r.2.1 ^^^ x / 2 ^ r.2.2

/-- The message schedule, latest word first. -/
def shaSchedule (p : Sha2) (block : Bytes) : List Nat :=
  let w0 := ((blocks block (p.w / 8) 16).map beNat).reverse
  ((List.range (p.ks.length - 16)).foldl (fun ws _ =>
    ((smallSig p.w p.t1 (ws.getD 1 0) + ws.getD 6 0 + smallSig p.w p.t0 (ws.getD 14 0) + ws.getD 15 0) % 2 ^ p.w) :: ws)
    w0).reverse

/-- One compression. -/
def shaBlock (p : Sha2) (h : List Nat) (block : Bytes) : List Nat :=
  let m := 2 ^ p.w
  let out := (List.zip (shaSchedule p block) p.ks).foldl (fun v wk =>
    let g := fun i => v.getD i 0
    let e := g 4
    let ch := (e &&& g 5) ^^^ ((m - 1 - e) &&& g 6)
    let t1 := g 7 + bigSig p.w p.s1 e + ch + wk.2 + wk.1
    let a := g 0
    let maj := (a &&& g 1) ^^^ (a &&& g 2) ^^^ (g 1 &&& g 2)
    [(t1 + bigSig p.w p.s0 a + maj) % m, a, g 1, g 2, (g 3 + t1) % m, e, g 5, g 6]) h
  (List.zip h out).map (fun x => (x.1 + x.2) % m)

/-- A SHA-2 digest. -/
def sha2 (p : Sha2) (h0 : List Nat) (msg : Bytes) : Bytes :=
  let bb := p.w * 2
  let n := (msg.length + 1 + p.w / 4 + bb - 1) / bb
  let padded := msg ++ (0x80 : Byte) :: List.replicate (n * bb - msg.length - 1 - p.w / 4) 0 ++
    beBytes (p.w / 4) (8 * msg.length)
  ((blocks padded bb n).foldl (shaBlock p) h0).flatMap (beBytes (p.w / 8))

/-- R244: SHA-256. -/
def sha256 (m : Bytes) : Bytes := sha2 sha256P sha256H m
/-- SHA-512, as Ed25519 uses it. -/
def sha512 (m : Bytes) : Bytes := sha2 sha512P sha512H m

/-! ### CRC -/

/-- One byte of a most-significant-first CRC of width `w`. -/
def crcByte (w poly c : Nat) (b : Byte) : Nat :=
  (List.range 8).foldl (fun c _ => if c.testBit (w - 1) then (c * 2 % 2 ^ w) ^^^ poly else c * 2)
    (c ^^^ b.toNat * 2 ^ (w - 8))

/-- R263: crc64. -/
def crc64 (m : Bytes) : Nat := m.foldl (crcByte 64 0x42F0E1EBA9EA3693) 0

/-- IEEE 802.3 CRC-32 (reflected, all-ones start and final inversion). -/
def crc32 (m : Bytes) : Nat :=
  (m.foldl (fun c b => (List.range 8).foldl (fun c _ => if c % 2 = 1 then c / 2 ^^^ 0xEDB88320 else c / 2)
    (c ^^^ b.toNat)) 0xFFFFFFFF) ^^^ 0xFFFFFFFF

/-! ### AES-256 and XTS (R196) -/

/-- Multiplication by x in GF(2^8). -/
def xtime (a : Nat) : Nat := if 128 ≤ a then (a * 2 - 256) ^^^ 0x1B else a * 2
/-- Multiplication in GF(2^8) by a small constant. -/
def gmul (a : Nat) (k : Nat) : Nat :=
  ((List.range 4).foldl (fun (acc : Nat × Nat) i =>
    (if k.testBit i then acc.1 ^^^ acc.2 else acc.1, xtime acc.2)) (0, a)).1

def subByte (b : Nat) : Nat := aesSbox.getD b 0
def invSubByte (b : Nat) : Nat := aesSbox.idxOf b

/-- FIPS 197: the 15 round keys of 16 bytes of a 32-byte key. -/
def aesKeys (key : List Nat) : List (List Nat) :=
  let w0 := (List.range 8).map (fun i => (key.drop (4 * i)).take 4)
  let ws := (List.range 52).foldl (fun (acc : List (List Nat) × Nat) j =>
    let i := j + 8
    let t := acc.1.getD 0 []
    let t' := if i % 8 = 0 then
        let r := (t.drop 1 ++ t.take 1).map subByte
        (r.getD 0 0 ^^^ acc.2) :: r.drop 1
      else if i % 8 = 4 then t.map subByte else t
    let nw := (List.zip (acc.1.getD 7 []) t').map (fun x => x.1 ^^^ x.2)
    (nw :: acc.1, if i % 8 = 0 then xtime acc.2 else acc.2)) (w0.reverse, 1)
  let all := ws.1.reverse
  (List.range 15).map (fun r => ((all.drop (4 * r)).take 4).flatten)

def xorL (a b : List Nat) : List Nat := (List.zip a b).map (fun x => x.1 ^^^ x.2)
def shiftRows (s : List Nat) : List Nat := (List.range 16).map (fun i => s.getD ((i + 4 * (i % 4)) % 16) 0)
def invShiftRows (s : List Nat) : List Nat := (List.range 16).map (fun i => s.getD ((i + 12 * (i % 4)) % 16) 0)
/-- A circulant column mix with first row `m`. -/
def mixCols (m : List Nat) (s : List Nat) : List Nat :=
  (List.range 16).map (fun i => (List.range 4).foldl (fun a j =>
    a ^^^ gmul (s.getD (4 * (i / 4) + j) 0) (m.getD ((j + 4 - i % 4) % 4) 0)) 0)

def aesEnc (ks : List (List Nat)) (b : List Nat) : List Nat :=
  let s := (List.range 13).foldl (fun s r =>
    xorL (mixCols [2, 3, 1, 1] (shiftRows (s.map subByte))) (ks.getD (r + 1) [])) (xorL b (ks.getD 0 []))
  xorL (shiftRows (s.map subByte)) (ks.getD 14 [])

def aesDec (ks : List (List Nat)) (b : List Nat) : List Nat :=
  let s := (List.range 13).foldl (fun s r =>
    mixCols [14, 11, 13, 9] (xorL ((invShiftRows s).map invSubByte) (ks.getD (13 - r) []))) (xorL b (ks.getD 14 []))
  xorL ((invShiftRows s).map invSubByte) (ks.getD 0 [])

/-- Bytes of a number as Nats, least significant first. -/
def natBytes (n x : Nat) : List Nat := (leBytes n x).map (fun b => b.toNat)

/-- IEEE 1619: the next block's tweak (multiplication by alpha, little-endian). -/
def xtsNext (t : Nat) : Nat := if 2 ^ 127 ≤ t then (t * 2 - 2 ^ 128) ^^^ 0x87 else t * 2

/-- XTS over whole 16-byte blocks; `f` is the block cipher or its inverse. -/
def xtsWith (f : List Nat → List Nat) (t0 : Nat) (data : Bytes) : Bytes :=
  ((blocks data 16 (data.length / 16)).foldl (fun (acc : Bytes × Nat) b =>
    let t := natBytes 16 acc.2
    let o := xorL (f (xorL (b.map (fun x => x.toNat)) t)) t
    (acc.1 ++ o.map (fun x => BitVec.ofNat 8 x), xtsNext acc.2)) ([], t0)).1

/-- R197: the two keys of key serial `k`, from the hardware random source; they differ. -/
def partKeys (k : Nat) : List Nat × List Nat :=
  let a := (Config.random (2 * k)).toNat
  let b := (Config.random (2 * k + 1)).toNat
  (natBytes 32 a, natBytes 32 (if a = b then b ^^^ 1 else b))

/-- R196: one 64 B burst enciphered under key serial `k`; the tweak is the burst number. -/
def xtsEnc (k burst : Nat) (data : Bytes) : Bytes :=
  let ks := partKeys k
  xtsWith (aesEnc (aesKeys ks.1)) (leNat ((aesEnc (aesKeys ks.2) (natBytes 16 burst)).map (fun x => BitVec.ofNat 8 x))) data

/-- R196: one 64 B burst deciphered. -/
def xtsDec (k burst : Nat) (data : Bytes) : Bytes :=
  let ks := partKeys k
  xtsWith (aesDec (aesKeys ks.1)) (leNat ((aesEnc (aesKeys ks.2) (natBytes 16 burst)).map (fun x => BitVec.ofNat 8 x))) data

/-! ### Ed25519 (RFC 8032) -/

def edP : Nat := 2 ^ 255 - 19
def edL : Nat := 2 ^ 252 + 27742317777372353535851937790883648493
/-- Power modulo edP by `n` squarings over the exponent's bits, most significant first. -/
def powMod (b e n : Nat) : Nat :=
  (List.range n).foldl (fun acc i =>
    let a := acc * acc % edP
    if e.testBit (n - 1 - i) then a * b % edP else a) 1
def edInv (x : Nat) : Nat := powMod x (edP - 2) 255
def edD : Nat := (edP - 121665) * edInv 121666 % edP
/-- Extended coordinates X, Y, Z, T. -/
abbrev EdPt := Nat × Nat × Nat × Nat
def edAdd (p q : EdPt) : EdPt :=
  let a := (p.2.1 + edP - p.1) * (q.2.1 + edP - q.1) % edP
  let b := (p.2.1 + p.1) * (q.2.1 + q.1) % edP
  let c := 2 * p.2.2.2 * q.2.2.2 * edD % edP
  let d := 2 * p.2.2.1 * q.2.2.1 % edP
  let e := b + edP - a
  let f := d + edP - c
  let g := d + c
  let h := b + a
  (e * f % edP, g * h % edP, f * g % edP, e * h % edP)
def edMul (k : Nat) (p : EdPt) : EdPt :=
  (List.range 256).foldl (fun acc i =>
    let a := edAdd acc acc
    if k.testBit (255 - i) then edAdd a p else a) (0, 1, 1, 0)
/-- Point decompression: none when the encoding is not of a point. -/
def edDecode (bs : Bytes) : Option EdPt :=
  let x := leNat bs
  let y := x % 2 ^ 255
  let sgn := x / 2 ^ 255 % 2
  if edP ≤ y then none
  else
    let y2 := y * y % edP
    let u := (y2 + edP - 1) % edP
    let v := (edD * y2 + 1) % edP
    let v3 := v * v % edP * v % edP
    let r := u * v3 % edP * powMod (u * v3 % edP * v3 % edP * v % edP) ((edP - 5) / 8) 252 % edP
    let r := if v * r % edP * r % edP = u then some r
      else if v * r % edP * r % edP = (edP - u) % edP then some (r * powMod 2 ((edP - 1) / 4) 253 % edP) else none
    match r with
    | none => none
    | some r =>
      if r = 0 ∧ sgn = 1 then none
      else
        let r := if r % 2 = sgn then r else edP - r
        some (r, y, 1, r * y % edP)
def edEncode (p : EdPt) : Bytes :=
  let zi := edInv p.2.2.1
  leBytes 32 (p.2.1 * zi % edP + p.1 * zi % edP % 2 * 2 ^ 255)
/-- The base point, of y = 4/5 and even x. -/
def edB : EdPt := (edDecode (leBytes 32 (4 * edInv 5 % edP))).getD (0, 1, 1, 0)
/-- Ed25519 verification of a 64-byte signature under a 32-byte public key. -/
def edVerify (pk msg sig : Bytes) : Bool :=
  match edDecode pk, edDecode (sig.take 32) with
  | some a, some r =>
    let s := leNat ((sig.drop 32).take 32)
    let k := leNat (sha512 (sig.take 32 ++ pk ++ msg)) % edL
    decide (s < edL) && decide (sig.length = 64) && (edEncode (edMul s edB) == edEncode (edAdd r (edMul k a)))
  | _, _ => false
/-- Ed25519 signature under a 32-byte private key. -/
def edSign (sk msg : Bytes) : Bytes :=
  let h := sha512 sk
  let a0 := leNat (h.take 32)
  let a := a0 % 2 ^ 254 / 8 * 8 + 2 ^ 254
  let pk := edEncode (edMul a edB)
  let r := leNat (sha512 (h.drop 32 ++ msg)) % edL
  let rb := edEncode (edMul r edB)
  let k := leNat (sha512 (rb ++ pk ++ msg)) % edL
  rb ++ leBytes 32 ((r + k * a) % edL)

end Sys2Proof.Machine
end

