-- ==== Sys2Proof/Machine/Float.lean ====
section
/-! DEFINITION. The wide number formats FP32, BF16, FP16 and the pair: exact values, one rounding, and the
IEEE 754-2019 operations of R46-R60, R123, R144, R145. -/

namespace Sys2Proof.Machine
open Sys2Proof

/-- A value of a wide format: finite values are `(-1)^neg * m * 2^e`, with `m = 0` a signed zero. -/
inductive Num where
  | nan
  | inf (neg : Bool)
  | fin (neg : Bool) (m : Nat) (e : Int)
  deriving DecidableEq, Repr

/-- Precision (hidden bit included) and exponent width of a binary format. -/
structure FFmt where
  p : Nat
  eb : Nat
  deriving DecidableEq, Repr

/-- binary32. -/
def fmt32 : FFmt := ⟨24, 8⟩
/-- BF16: binary32's sign and exponent, upper 7 mantissa bits (R46). -/
def fmtBF : FFmt := ⟨8, 8⟩
/-- binary16. -/
def fmt16 : FFmt := ⟨11, 5⟩

/-- Exponent bias. -/
def FFmt.bias (f : FFmt) : Int := (2 ^ (f.eb - 1) : Nat) - 1
/-- Least exponent of a last place: that of the subnormals. -/
def FFmt.qmin (f : FFmt) : Int := 1 - f.bias - ((f.p : Int) - 1)
/-- Exponent of the last place of the largest binade. -/
def FFmt.qmax (f : FFmt) : Int := f.bias - ((f.p : Int) - 1)
/-- Bit pattern of +infinity. -/
def FFmt.infBits (f : FFmt) : Nat := (2 ^ f.eb - 1) * 2 ^ (f.p - 1)
/-- Bit pattern of the largest finite magnitude. -/
def FFmt.maxBits (f : FFmt) : Nat := f.infBits - 1
/-- The sign bit. -/
def FFmt.signBit (f : FFmt) : Nat := 2 ^ (f.p - 1 + f.eb)
/-- R47: the canonical quiet NaN. -/
def FFmt.nanBits (f : FFmt) : Nat := f.infBits + 2 ^ (f.p - 2)

/-- R46: decoding a bit pattern. -/
def decodeF (f : FFmt) (x : Nat) : Num :=
  let neg := decide (f.signBit ≤ x % (2 * f.signBit))
  let man := x % 2 ^ (f.p - 1)
  let ex := (x / 2 ^ (f.p - 1)) % 2 ^ f.eb
  if ex = 2 ^ f.eb - 1 then (if man = 0 then .inf neg else .nan)
  else if ex = 0 then .fin neg man f.qmin
  else .fin neg (man + 2 ^ (f.p - 1)) (f.qmin + (ex - 1 : Nat))

/-- R51: rounding modes. -/
inductive Rnd where
  | rne | rtz | sr
  deriving DecidableEq, Repr

/-- Does the magnitude with integer part `t` and remainder `rem / 2^sh` of the last place round up?
R53, R56: `r` are the 16 random bits of SR. -/
def roundsUp (mode : Rnd) (r t rem sh : Nat) : Bool :=
  match mode with
  | .rtz => false
  | .rne => decide (2 ^ sh < 2 * rem) || (decide (2 * rem = 2 ^ sh) && decide (t % 2 = 1))
  | .sr => decide (2 ^ 16 ≤ rem * 2 ^ 16 / 2 ^ sh + r)

/-- One rounding of the finite value `m * 2^e` (sign `neg`) into format `f`: the bit pattern.
R53: overflow is an infinity under RNE and the largest finite value under RTZ; R56: SR saturates. -/
def encodeFin (f : FFmt) (mode : Rnd) (r : Nat) (neg : Bool) (m : Nat) (e : Int) : Nat :=
  let sg := if neg then f.signBit else 0
  if m = 0 then sg
  else
    let top : Int := (Nat.log2 m : Int) + e
    let q : Int := max (top - ((f.p : Int) - 1)) f.qmin
    let t : Nat :=
      if q ≤ e then m * 2 ^ (e - q).toNat
      else
        let sh := (q - e).toNat
        let t0 := m / 2 ^ sh
        if roundsUp mode r t0 (m % 2 ^ sh) sh then t0 + 1 else t0
    let bits : Int := (q - f.qmin) * (2 ^ (f.p - 1) : Nat) + t
    if bits < (f.infBits : Int) ∧ ¬ (mode = .sr ∧ f.qmax < q) then sg + bits.toNat
    else match mode with
      | .rne => sg + f.infBits
      | _ => sg + f.maxBits

/-- Rounding any value into a format (R47 for NaN, R57 for non-finite sources). -/
def encodeF (f : FFmt) (mode : Rnd) (r : Nat) : Num → Nat
  | .nan => f.nanBits
  | .inf neg => (if neg then f.signBit else 0) + f.infBits
  | .fin neg m e => encodeFin f mode r neg m e

/-- A dyadic integer multiple of a power of two. -/
def Num.ofInt (n : Int) (e : Int) : Num := .fin (decide (n < 0)) n.natAbs e

/-- The signed integer of a finite value. -/
def sInt (neg : Bool) (m : Nat) : Int := if neg then -(m : Int) else m

/-- The exact sum. A zero sum of operands of unlike sign is +0 (IEEE 754-2019 under RNE). -/
def Num.add : Num → Num → Num
  | .nan, _ => .nan
  | _, .nan => .nan
  | .inf a, .inf b => if a = b then .inf a else .nan
  | .inf a, _ => .inf a
  | _, .inf b => .inf b
  | .fin na ma ea, .fin nb mb eb =>
    let e := min ea eb
    let s := sInt na ma * (2 ^ (ea - e).toNat : Nat) + sInt nb mb * (2 ^ (eb - e).toNat : Nat)
    if s = 0 then .fin (na && nb) 0 0 else .ofInt s e

/-- Sign inversion. -/
def Num.negate : Num → Num
  | .nan => .nan
  | .inf a => .inf (!a)
  | .fin n m e => .fin (!n) m e

/-- The exact product. -/
def Num.mul : Num → Num → Num
  | .nan, _ => .nan
  | _, .nan => .nan
  | .inf a, .inf b => .inf (a != b)
  | .inf a, .fin b m _ => if m = 0 then .nan else .inf (a != b)
  | .fin a m _, .inf b => if m = 0 then .nan else .inf (a != b)
  | .fin a ma ea, .fin b mb eb => .fin (a != b) (ma * mb) (ea + eb)

/-- Magnitude. -/
def Num.abs : Num → Num
  | .nan => .nan
  | .inf _ => .inf false
  | .fin _ m e => .fin false m e

def Num.isFin : Num → Bool
  | .fin _ _ _ => true
  | _ => false

def Num.isNan : Num → Bool
  | .nan => true
  | _ => false

def Num.isZero : Num → Bool
  | .fin _ m _ => decide (m = 0)
  | _ => false

/-- Strict order of two finite values. -/
def finLt (na : Bool) (ma : Nat) (ea : Int) (nb : Bool) (mb : Nat) (eb : Int) : Bool :=
  let e := min ea eb
  decide (sInt na ma * (2 ^ (ea - e).toNat : Nat) < sInt nb mb * (2 ^ (eb - e).toNat : Nat))

/-- IEEE strict less-than (false when a NaN takes part). -/
def Num.lt : Num → Num → Bool
  | .nan, _ => false
  | _, .nan => false
  | .inf a, .inf b => a && !b
  | .inf a, .fin _ _ _ => a
  | .fin _ _ _, .inf b => !b
  | .fin na ma ea, .fin nb mb eb => finLt na ma ea nb mb eb

/-- IEEE equality (false when a NaN takes part; -0 equals +0). -/
def Num.eqv (a b : Num) : Bool := !a.isNan && !b.isNan && !a.lt b && !b.lt a

/-- Exact scaling by 2^k. -/
def Num.scale (k : Int) : Num → Num
  | .fin n m e => .fin n m (e + k)
  | x => x

/-! ### FP32 bit patterns -/

/-- The value of an FP32 pattern. -/
def f32 (w : Word) : Num := decodeF fmt32 w.toNat

/-- `fl(x)` of R58: RNE into FP32. -/
def fl (x : Num) : Word := BitVec.ofNat 32 (encodeF fmt32 .rne 0 x)

/-- R47: the canonical FP32 NaN. -/
def nan32 : Word := 0x7FC00000

/-- FP32 addition under RNE. -/
def fadd (a b : Word) : Word := fl ((f32 a).add (f32 b))
/-- FP32 subtraction under RNE. -/
def fsub (a b : Word) : Word := fl ((f32 a).add (f32 b).negate)
/-- FP32 multiplication under RNE. -/
def fmul (a b : Word) : Word := fl ((f32 a).mul (f32 b))
/-- fusedMultiplyAdd(a, b, c) under RNE. -/
def ffma (a b c : Word) : Word := fl (((f32 a).mul (f32 b)).add (f32 c))
/-- Sign inversion; NaN canonical (R144). -/
def fneg (a : Word) : Word := fl (f32 a).negate
/-- Sign clear; NaN canonical (R144). -/
def fabs (a : Word) : Word := fl (f32 a).abs

/-- R123: IEEE 754-2019 minimum: NaN prevails and -0 orders below +0. -/
def fmin (a b : Word) : Word :=
  match f32 a, f32 b with
  | .nan, _ => nan32
  | _, .nan => nan32
  | x, y =>
    if x.lt y then a else if y.lt x then b
    else if a.msb then a else b

/-- R123: IEEE 754-2019 maximum. -/
def fmax (a b : Word) : Word :=
  match f32 a, f32 b with
  | .nan, _ => nan32
  | _, .nan => nan32
  | x, y =>
    if x.lt y then b else if y.lt x then a
    else if a.msb then b else a

/-- R101 SHAPE.REL and R123: 0 GT, 1 GE, 2 EQ, 3 NE; a NaN makes GT, GE, EQ false and NE true. -/
def relHolds (rel : Nat) (a b : Num) : Bool :=
  match rel % 4 with
  | 0 => b.lt a
  | 1 => b.lt a || a.eqv b
  | 2 => a.eqv b
  | _ => !a.eqv b

/-- FP32 1.0. -/
def one32 : Word := 0x3F800000

/-! ### Correctly rounded functions (R145) -/

/-- Integer square root by bits: `fuel` bits of result, exact floor when the result fits in them. -/
def isqrtBits : Nat → Nat → Nat → Nat
  | 0, _, r => r
  | k + 1, n, r =>
    let c := r + 2 ^ k
    if c * c ≤ n then isqrtBits k n c else isqrtBits k n r

/-- floor(sqrt n). -/
def isqrt (n : Nat) : Nat := isqrtBits (bitLen n / 2 + 1) n 0

/-- Rounds `sqrt` or another real known as `m * 2^e` plus a nonzero amount below the last place when
`inexact`: the extra sticky bit makes the one rounding of R145 correct. -/
def flSticky (neg : Bool) (m : Nat) (e : Int) (inexact : Bool) : Word :=
  BitVec.ofNat 32 (encodeFin fmt32 .rne 0 neg (2 * m + b2n inexact) (e - 1))

/-- fl of the rational num/den (den > 0). -/
def flRat (neg : Bool) (num den : Nat) (e : Int) : Word :=
  if num = 0 then (if neg then 0x80000000 else 0)
  else
    let k := 80 + bitLen den
    let m := num * 2 ^ k / den
    flSticky neg m (e - k) (decide (m * den ≠ num * 2 ^ k))

/-- fl(sqrt(m * 2^e)) of a nonnegative real. -/
def flSqrt (m : Nat) (e : Int) : Word :=
  if m = 0 then 0
  else
    let e0 : Int := if e % 2 = 0 then e else e - 1
    let m0 := if e % 2 = 0 then m else 2 * m
    let n := m0 * 2 ^ 160
    let s := isqrt n
    flSticky false s (e0 / 2 - 80) (decide (s * s ≠ n))

/-- R145: 1 / x. -/
def frcp (a : Word) : Word :=
  match f32 a with
  | .nan => nan32
  | .inf n => if n then 0x80000000 else 0
  | .fin n m e => if m = 0 then (if n then 0xFF800000 else 0x7F800000) else flRat n 1 m (-e)

/-- R145: 1 / sqrt x; a negative operand gives NaN, a zero an infinity of its sign. -/
def frsqrt (a : Word) : Word :=
  match f32 a with
  | .nan => nan32
  | .inf n => if n then nan32 else 0
  | .fin n m e =>
    if m = 0 then (if n then 0xFF800000 else 0x7F800000)
    else if n then nan32
    else
      let e0 : Int := if e % 2 = 0 then e else e - 1
      let m0 := if e % 2 = 0 then m else 2 * m
      let k := 128 + bitLen m0
      let n2 := 2 ^ (2 * k)
      let s := isqrt (n2 / m0)
      flSticky false s (-(e0 / 2) - k) (decide (s * s * m0 ≠ n2))

/-- Fixed-point precision of exp2 and log2. -/
def xprec : Nat := 240

/-- Product of the constants 2^(2^-i) over the set bits of the fraction: `c` is 2^(2^-i) at `xprec` bits. -/
def exp2Bits : Nat → Nat → Nat → Nat → Nat
  | 0, _, _, acc => acc
  | k + 1, frac, c, acc =>
    let acc' := if frac.testBit k then acc * c / 2 ^ xprec else acc
    exp2Bits k frac (isqrt (c * 2 ^ xprec)) acc'

/-- R145: 2^x. The fraction of an FP32 value has at most 149 bits, so 200 hold it exactly. -/
def fexp2 (a : Word) : Word :=
  match f32 a with
  | .nan => nan32
  | .inf n => if n then 0 else 0x7F800000
  | .fin n m e =>
    let fx : Int := sInt n m * 2 ^ (200 + e).toNat
    let ip : Int := fx / (2 ^ 200 : Nat)
    let fr : Nat := (fx % ((2 ^ 200 : Nat) : Int)).toNat
    if 200 ≤ ip then 0x7F800000
    else if ip < -200 then 0
    else if fr = 0 then BitVec.ofNat 32 (encodeFin fmt32 .rne 0 false 1 ip)
    else
      let y := exp2Bits 200 fr (isqrt (2 * 2 ^ (2 * xprec))) (2 ^ xprec)
      flSticky false y (ip - xprec) true

/-- Bits of log2 of `y` in [1, 2) at `xprec` fixed point, by repeated squaring. -/
def log2Bits : Nat → Nat → Nat → Nat
  | 0, _, acc => acc
  | k + 1, y, acc =>
    let z := y * y / 2 ^ xprec
    if 2 ^ (xprec + 1) ≤ z then log2Bits k (z / 2) (2 * acc + 1) else log2Bits k z (2 * acc)

/-- R145: log2 x; a negative operand gives NaN, a zero -infinity. -/
def flog2 (a : Word) : Word :=
  match f32 a with
  | .nan => nan32
  | .inf n => if n then nan32 else 0x7F800000
  | .fin n m e =>
    if m = 0 then 0xFF800000
    else if n then nan32
    else
      let l := Nat.log2 m
      let ex : Int := e + l
      if m = 2 ^ l then fl (.ofInt ex 0)
      else
        let fr := log2Bits 100 (m * 2 ^ (xprec - l)) 0
        let v : Int := ex * (2 ^ 100 : Nat) + fr
        -- the true value lies strictly between v and v + 1 units of 2^-100
        if 0 ≤ v then flSticky false v.toNat (-100) true
        else flSticky true ((-v).toNat - 1) (-100) true

/-! ### Other formats and pairs -/

/-- BF16 pattern of a value under RNE (`bf16(e)` of R284). -/
def bf16Of (x : Num) : Nat := encodeF fmtBF .rne 0 x

/-- Widening a BF16 pattern exactly. -/
def bfWiden (h : Nat) : Num := decodeF fmtBF h

/-- R58: two_sum. -/
def twoSum (a b : Word) : Word × Word :=
  let s := fadd a b
  if (f32 s).isFin then
    let bp := fsub s a
    let ap := fsub s bp
    (s, fadd (fsub a ap) (fsub b bp))
  else (s, 0)

/-- R60: pair_add. -/
def pairAdd (hi lo t : Word) : Word × Word :=
  let (s, e) := twoSum hi t
  if (f32 s).isFin then (s, fadd lo e) else (s, 0)

/-- R60: pair_norm. -/
def pairNorm (hi lo : Word) : Word × Word := twoSum hi lo

/-- R59: the real value of a pair. -/
def pairVal (hi lo : Word) : Num := (f32 hi).add (f32 lo)

/-- R90: fp32_of(n, x). -/
def fp32Of (n : Int) (x : Int) : Word := if n = 0 then 0 else fl (.ofInt n x)

/-- R61: the 16 random bits of an element. -/
def srBits (seed step tensor index : Nat) : Nat :=
  let a : Word := BitVec.ofNat 32 seed ^^^ BitVec.ofNat 32 tensor
  let b : Word := BitVec.ofNat 32 (seed / 2 ^ 32) ^^^ BitVec.ofNat 32 step
  let k : List Word := [a, b, a ^^^ 0x9E3779B9, b ^^^ 0x9E3779B9]
  let fin := k.foldl (fun (xy : Word × Word) kj =>
    let x := (xy.1.rotateRight 8 + xy.2) ^^^ kj
    let y := xy.2.rotateLeft 3 ^^^ x
    (x, y)) (BitVec.ofNat 32 index, 0x2545F491)
  (fin.1 + fin.2).toNat / 2 ^ 16

/-- R30: the wide format codes 0x0-0x2 as formats. -/
def wideFmt (code : Nat) : FFmt := if code = 1 then fmtBF else if code = 2 then fmt16 else fmt32

/-- Element bytes of a wide format code (PAIR planes hold FP32). -/
def wideBytes (code : Nat) : Nat := if code = 1 ∨ code = 2 then 2 else 4

end Sys2Proof.Machine
end

