-- ==== Sys2Proof/Machine/Narrow.lean ====
section
/-! DEFINITION. Narrow formats, blocks, rivets and tensor descriptors (R30-R45, R98, R99), the exact reference
(R91-R93) and the block quantiser (R71-R79), as functions of bytes and numbers. -/

namespace Sys2Proof.Machine
open Sys2Proof

/-- R30: is the format code one of the narrow formats? -/
def isNarrow (fmt : Nat) : Bool := decide (8 ≤ fmt) && decide (fmt ≤ 11)
/-- R30: is the format code one of the wide formats? -/
def isWide (fmt : Nat) : Bool := decide (fmt ≤ 3)

/-- Element width in bits (R30). -/
def nWidth (fmt : Nat) : Nat := match fmt with
  | 10 => 3
  | 11 => 2
  | _ => 4
/-- R33: the exponent offset f. -/
def nOff (fmt : Nat) : Int := if fmt = 8 then -1 else 0
/-- R33: the largest element magnitude. -/
def nMax (fmt : Nat) : Nat := match fmt with
  | 8 => 6
  | 9 => 7
  | 10 => 4
  | _ => 1
/-- R31, R32: magnitudes of the non-negative codes in units of 2^f, by code. -/
def nGrid (fmt : Nat) : List Nat := match fmt with
  | 8 => [0, 1, 2, 3, 4, 6, 8, 12]
  | 9 => [0, 1, 2, 3, 4, 5, 6, 7]
  | 10 => [0, 1, 2, 4]
  | _ => [0, 1]
/-- R31, R32: the POISON code. -/
def nPoison (fmt : Nat) : Nat := match fmt with
  | 10 => 4
  | 11 => 2
  | _ => 8
/-- R31, R32: the code of the negative of the value with non-negative code `k`. -/
def nNegCode (fmt k : Nat) : Nat :=
  if k = 0 then 0
  else match fmt with
    | 8 => 8 + k
    | 9 => 16 - k
    | 10 => 4 + k
    | _ => 3

/-- R31-R33: the integer form I of a code; none is POISON. -/
def nDecode (fmt c : Nat) : Option Int :=
  if c = nPoison fmt then none
  else match fmt with
    | 8 => if c < 8 then some ((nGrid 8).getD c 0 : Nat) else some (-((nGrid 8).getD (c - 8) 0 : Nat))
    | 9 => if c < 8 then some (c : Nat) else some ((c : Int) - 16)
    | 10 => if c < 4 then some ((nGrid 10).getD c 0 : Nat) else some (-((nGrid 10).getD (c - 4) 0 : Nat))
    | _ => if c = 0 then some 0 else if c = 1 then some 1 else some (-1)

/-- E-plane bytes of one block (R41). -/
def nEBytes (fmt : Nat) : Nat := 4 * nWidth fmt

/-- One block: scale byte, 32 codes, rivet index byte and rivet value. -/
structure Blk where
  se8 : Nat := 0
  codes : List Nat := []
  ri : Nat := 0
  rv : Nat := 0
  deriving DecidableEq, Repr

/-- R42: the 32 codes of an E-plane entry. -/
def unpackCodes (fmt : Nat) (e : Bytes) : List Nat :=
  let x := leNat e
  (List.range 32).map (fun i => x / 2 ^ (nWidth fmt * i) % 2 ^ nWidth fmt)

/-- R42: the E-plane entry of 32 codes. -/
def packCodes (fmt : Nat) (cs : List Nat) : Bytes :=
  leBytes (nEBytes fmt) (cs.foldr (fun c acc => c + 2 ^ nWidth fmt * acc) 0)

/-- R38: the valid rivet's element index. -/
def Blk.rivIdx (b : Blk) : Option Nat := if 128 ≤ b.ri % 256 then some (b.ri % 32) else none

/-- A finite BF16 value as an integer times a power of two (R91); none when not finite. -/
def bfPair (h : Nat) : Option (Int × Int) :=
  match bfWiden h with
  | .fin n m e => some (sInt n m, e)
  | _ => none

/-- R35, R37, R38, R40, R50: element `i` of a block with `nv` valid positions: none is POISON, otherwise n * 2^x. -/
def Blk.elem (fmt : Nat) (nv : Nat) (b : Blk) (i : Nat) : Option (Int × Int) :=
  if nv ≤ i then some (0, 0)
  else if b.se8 = 0 then some (0, 0)
  else if b.se8 = 255 then none
  else if b.rivIdx = some i then bfPair b.rv
  else match nDecode fmt (b.codes.getD i 0) with
    | none => none
    | some n => some (n, nOff fmt + b.se8 - 127)

/-- R111 `poisoned`: a POISON block, a POISON code that counts, or a valid non-finite rivet within `nv`. -/
def Blk.poisoned (fmt nv : Nat) (b : Blk) : Bool :=
  b.se8 != 0 && (decide (b.se8 = 255 ∧ 0 < nv) || (List.range nv).any (fun i => (b.elem fmt nv i).isNone))

/-- R81 poison count of an operand block. -/
def Blk.poisonCount (fmt nv : Nat) (b : Blk) : Nat :=
  if b.se8 = 255 then nv else ((List.range nv).filter (fun i => (b.elem fmt nv i).isNone)).length

/-- R40, R81: a valid rivet that is honoured, with a finite value. -/
def Blk.rivHonoured (nv : Nat) (b : Blk) : Bool :=
  match b.rivIdx with
  | none => false
  | some i => decide (i < nv) && b.se8 != 0 && b.se8 != 255 && (bfPair b.rv).isSome

/-! ### Descriptors -/

/-- A narrow tensor descriptor (R44). -/
structure NDesc where
  fmt : Nat
  riv : Bool
  ktail : Nat
  tid : Nat
  rows : Nat
  kb : Nat
  eBase : Nat
  sBase : Nat
  riBase : Nat
  rvBase : Nat
  deriving DecidableEq, Repr

/-- A wide tensor descriptor (R98). -/
structure WDesc where
  fmt : Nat
  tid : Nat
  rows : Nat
  cols : Nat
  base : Nat
  loBase : Nat
  deriving DecidableEq, Repr

/-- A tensor descriptor of either kind. -/
inductive Desc where
  | narrow (d : NDesc)
  | wide (d : WDesc)
  deriving DecidableEq, Repr

/-- R44, R45: parsing and checking a narrow descriptor. -/
def parseNDesc (b : Bytes) : Option NDesc :=
  let d : NDesc := ⟨fieldAt b 0 1 % 16, bitOf (fieldAt b 1 1) 0, fieldAt b 2 1, fieldAt b 4 4, fieldAt b 8 4,
    fieldAt b 12 4, fieldAt b 16 8, fieldAt b 24 8, fieldAt b 32 8, fieldAt b 40 8⟩
  let ok := isNarrow d.fmt && decide (fieldAt b 0 1 < 16) && decide (fieldAt b 1 1 < 2) && decide (1 ≤ d.ktail) &&
    decide (d.ktail ≤ 32) && decide (fieldAt b 3 1 = 0) && decide (0 < d.rows) && decide (0 < d.kb) &&
    decide (d.eBase % 256 = 0) && decide (d.sBase % 256 = 0) &&
    (!d.riv || (decide (d.riBase % 256 = 0) && decide (d.rvBase % 256 = 0)))
  if ok then some d else none

/-- R98, R99: parsing and checking a wide descriptor held in a 48-byte entry. -/
def parseWDesc (b : Bytes) : Option WDesc :=
  let d : WDesc := ⟨fieldAt b 0 1 % 16, fieldAt b 4 4, fieldAt b 8 4, fieldAt b 12 4, fieldAt b 16 8, fieldAt b 24 8⟩
  let ok := isWide d.fmt && decide (fieldAt b 0 1 < 16) && decide (fieldAt b 1 3 = 0) && decide (0 < d.rows) &&
    decide (0 < d.cols) && decide (d.base % 256 = 0) && (decide (d.fmt ≠ 3) || decide (d.loBase % 256 = 0)) &&
    decide (fieldAt b 32 16 = 0)
  if ok then some d else none

/-- R45, R99: a 48-byte entry of the descriptor table; none is FORMAT_FAULT. -/
def parseDesc (b : Bytes) : Option Desc :=
  if isNarrow (fieldAt b 0 1 % 16) then (parseNDesc b).map .narrow else (parseWDesc b).map .wide

def Desc.fmt : Desc → Nat
  | .narrow d => d.fmt
  | .wide d => d.fmt
def Desc.rows : Desc → Nat
  | .narrow d => d.rows
  | .wide d => d.rows
def Desc.tid : Desc → Nat
  | .narrow d => d.tid
  | .wide d => d.tid
/-- R76: the logical reduction length, or COLS of a wide tensor (R568). -/
def Desc.k : Desc → Nat
  | .narrow d => (d.kb - 1) * 32 + d.ktail
  | .wide d => d.cols

/-- R37: valid positions of block `kb` of a row of logical length `k`. -/
def nValid (k kb : Nat) : Nat := min 32 (k - 32 * kb)

/-! ### The block quantiser -/

/-- The exact magnitude of a finite value as m * 2^e. -/
def numMag : Num → Nat × Int
  | .fin _ m e => (m, e)
  | _ => (0, 0)

/-- Order of exact magnitudes. -/
def magLt (a b : Nat × Int) : Bool :=
  let e := min a.2 b.2
  decide (a.1 * 2 ^ (a.2 - e).toNat < b.1 * 2 ^ (b.2 - e).toNat)

/-- R71: scale_exp, with `fuel` tries left from `e`. -/
def scaleExpFrom (a : Nat × Int) (mx : Nat) : Nat → Nat → Nat
  | 0, e => e
  | fuel + 1, e => if magLt (mx, (e : Int) - 127) a then scaleExpFrom a mx fuel (e + 1) else e

/-- R71: the block scale exponent of a reference magnitude. -/
def scaleExp (a : Nat × Int) (mx : Nat) : Nat := scaleExpFrom a mx 253 1

/-- R51: a rounding-mode code. Code 11 is refused at load (R69, R105); a record rewritten in the larder or pantry after
the load can still hold it, and then rounds by RNE. (Log 145: DESIGN CHOICE.) -/
def rndOf (c : Nat) : Rnd := match c with
  | 1 => .rtz
  | 2 => .sr
  | _ => .rne

/-- R54-R57: rounds the magnitude num/den, in grid units, to a non-negative code. -/
def gridRound (grid : List Nat) (mode : Rnd) (r num den : Nat) : Nat :=
  let last := grid.length - 1
  if grid.getD last 0 * den < num then last
  else
    let lo := ((List.range grid.length).filter (fun k => decide (grid.getD k 0 * den ≤ num))).getLastD 0
    let glo := grid.getD lo 0
    if glo * den = num then lo
    else
      let ghi := grid.getD (lo + 1) 0
      match mode with
      | .rtz => lo
      | .rne =>
        if 2 * num < (glo + ghi) * den then lo
        else if (glo + ghi) * den < 2 * num then lo + 1
        else if lo % 2 = 0 then lo else lo + 1
      | .sr => if 2 ^ 16 ≤ (num - glo * den) * 2 ^ 16 / ((ghi - glo) * den) + r then lo + 1 else lo

/-- R74 `narrow_round` of the magnitude `a` under scale byte `e`: the non-negative code, and whether it saturated. -/
def narrowRound (fmt : Nat) (mode : Rnd) (r : Nat) (a : Nat × Int) (e : Nat) : Nat × Bool :=
  let sh : Int := a.2 - ((e : Int) - 127) - nOff fmt
  let num := if 0 ≤ sh then a.1 * 2 ^ sh.toNat else a.1
  let den := if 0 ≤ sh then 1 else 2 ^ (-sh).toNat
  let g := nGrid fmt
  (gridRound g mode r num den, decide (g.getD (g.length - 1) 0 * den < num))

/-- R75: a rivet's BF16 value, and whether it saturated. -/
def rivetBf16 (x : Num) (mode : Rnd) (r : Nat) : Nat × Bool :=
  let big := magLt (numMag (bfWiden 0x7F7F)) (numMag x)
  match x with
  | .fin neg _ _ => if big then ((if neg then 0xFF7F else 0x7F7F), true) else
      -- a magnitude within range that RNE would carry to infinity cannot occur below the largest finite value
      (encodeF fmtBF mode r x, false)
  | _ => (0, false)

/-- The result of quantising one block: the block and its counts. -/
structure QRes where
  blk : Blk
  saturated : Nat := 0
  flushed : Nat := 0
  zero : Nat := 0
  riveted : Nat := 0
  poison : Nat := 0
  deriving DecidableEq, Repr

/-- The finite positions ranked by magnitude descending, ties by index (R74). -/
def rankFinite (xs : List Num) (nv : Nat) : List (Nat × (Nat × Int)) :=
  let fin := ((List.range nv).map (fun i => (i, xs.getD i .nan))).filter (fun p => p.2.isFin)
  sortBy (fun a b => !magLt a.2 b.2) (fin.map (fun p => (p.1, numMag p.2)))

/-- m1 >= 16 * m2 for exact magnitudes. -/
def mag16 (a b : Nat × Int) : Bool := !magLt a (b.1, b.2 + 4)

/-- R74: quantise_block. `jit` is the effective mode, `et` the tensor exponent otherwise, `bits i` the random bits. -/
def quantiseBlock (xs : List Num) (nv fmt : Nat) (jit : Bool) (mode : Rnd) (rivOn : Bool) (et : Nat)
    (bits : Nat → Nat) : QRes :=
  let ranked := rankFinite xs nv
  let zeros := List.replicate 32 0
  if ranked = [] then { blk := ⟨255, zeros, 0, 0⟩, poison := nv }
  else
    let at' := fun k => (ranked.map (fun p => p.2)).getD k (0, 0)
    let m1 := at' 0
    let m2 := at' 1
    let m3 := at' 2
    let i1 := (ranked.map (fun p => p.1)).getD 0 0
    let hasPoison := decide (ranked.length < nv)
    if m1.1 = 0 ∧ hasPoison = false then { blk := ⟨0, zeros, 0, 0⟩, zero := 1 }
    else
      let riv1 := rivOn && decide (m2.1 ≠ 0) && mag16 m1 m2
      let riv2 := jit && rivOn && decide (m3.1 ≠ 0) && mag16 m2 m3
      let riv : Option Nat := if m1.1 = 0 then none else if riv1 || riv2 then some i1 else none
      let ref := if m1.1 = 0 then (0, 0) else if riv1 then m2 else if riv2 then m3 else m1
      let e := if jit then (if ref.1 = 0 then 127 else scaleExp ref (nMax fmt)) else et
      let step := fun (acc : QRes × List Nat) (i : Nat) =>
        let (q, cs) := acc
        if nv ≤ i then (q, cs ++ [0])
        else
          match xs.getD i .nan with
          | .fin neg m ex =>
            if riv = some i then
              let (rv, s) := rivetBf16 (.fin neg m ex) mode (bits i)
              ({ q with blk := { q.blk with rv := rv, ri := 128 + i }, saturated := q.saturated + b2n s }, cs ++ [0])
            else
              let (k, s) := narrowRound fmt mode (bits i) (m, ex) e
              ({ q with saturated := q.saturated + b2n s, flushed := q.flushed + b2n (decide (k = 0 ∧ m ≠ 0)) },
                cs ++ [if neg then nNegCode fmt k else k])
          | _ => ({ q with poison := q.poison + 1 }, cs ++ [nPoison fmt])
      let (q, cs) := (List.range 32).foldl step (({ blk := ⟨e, [], 0, 0⟩ } : QRes), [])
      if riv = none ∧ hasPoison = false ∧ cs.all (fun c => c == 0) then
        { q with blk := ⟨0, zeros, 0, 0⟩ }
      else { q with blk := { q.blk with codes := cs }, riveted := b2n riv.isSome }

/-- R38, R40, R79: the decoded value of element `i` of a block; a POISON element decodes as NaN, an honoured rivet as its
BF16 value, the sign of a zero included (R48). -/
def Blk.value (fmt nv : Nat) (b : Blk) (i : Nat) : Num :=
  if b.rivIdx = some i ∧ b.rivHonoured nv then bfWiden b.rv
  else
    match b.elem fmt nv i with
    | none => .nan
    | some (n, x) => .ofInt n x

/-- R79: the residual written for an element: BF16 under RNE of x' - d, saturating at 0x7F7F, +0 for non-finite x'. -/
def residualOut (x d : Num) : Nat :=
  match x.add d.negate with
  | .fin neg m e =>
    if x.isFin then
      if magLt (numMag (bfWiden 0x7F7F)) (m, e) then (if neg then 0xFF7F else 0x7F7F)
      else bf16Of (.fin neg m e)
    else 0
  | _ => 0

/-- R73: a magnitude rounded upward to FP32, capped at the largest finite value. -/
def fp32Up (a : Nat × Int) : Nat :=
  if magLt (numMag (decodeF fmt32 0x7F7FFFFF)) a then 0x7F7FFFFF
  else
    let t := encodeF fmt32 .rtz 0 (.fin false a.1 a.2)
    if magLt (numMag (decodeF fmt32 t)) a then t + 1 else t

/-! ### Exact reference (R90-R93) -/

/-- The exact sum of integer multiples of powers of two. -/
def exactSum (ts : List (Int × Int)) : Int × Int :=
  ts.foldl (fun acc t =>
    let e := min acc.2 t.2
    (acc.1 * (2 ^ (acc.2 - e).toNat : Nat) + t.1 * (2 ^ (t.2 - e).toNat : Nat), e)) (0, 0)

/-- R91, R92: the FP32 result of an exact sum of terms and c, and the exact sum itself for R93. `negZero` says every
term is a zero of sign minus. -/
def exactFinish (terms : List (Int × Int)) (c : Word) (allNegZero : Bool) : Word × (Int × Int) :=
  match f32 c with
  | .nan => (nan32, (0, 0))
  | .inf n => ((if n then 0xFF800000 else 0x7F800000), (0, 0))
  | .fin n m e =>
    let nz := terms.filter (fun t => decide (t.1 ≠ 0))
    let s := exactSum (nz ++ [(sInt n m, e)])
    if nz = [] ∧ m = 0 then ((if n && allNegZero then 0x80000000 else 0), (0, 0))
    else if s.1 = 0 then (0, (0, 0))
    else (fp32Of s.1 s.2, s)

/-- R93: lo is fp32_of of the exact remainder for a finite hi, else +0. -/
def exactLo (hi : Word) (s : Int × Int) : Word :=
  match f32 hi with
  | .fin n m e =>
    let r := exactSum [s, (-(sInt n m), e)]
    fp32Of r.1 r.2
  | _ => 0

end Sys2Proof.Machine
end

