-- ==== Sys2Proof/Machine/RegDefs.lean ====
section
/-! DEFINITION. Every register and register field the spec names: page type (R542), offset, element count and
stride, bit range, write masks by access type (R5) and reset value, as the register tables of spec/ give them. -/

namespace Sys2Proof.Machine
open Sys2Proof

/-- A register: the page type that holds it (R542), its byte offset, the stride and count of its elements. -/
structure Reg where
  typ : Nat
  off : Nat
  stride : Nat
  count : Nat
  deriving DecidableEq, Repr

/-- A field of a register, bits `[hi:lo]`. -/
structure Fld where
  reg : Reg
  hi : Nat
  lo : Nat
  deriving DecidableEq, Repr

/-- R5: the bits of a register software may write, by access type, and its reset value. -/
structure RegRow where
  reg : Reg
  rw : Nat
  rwl : Nat
  w1c : Nat
  reset : Nat
  deriving DecidableEq, Repr

namespace RG

/-- R25. -/
def GLB_ROOM_MAP : Reg := ⟨0x2, 0x040, 4, 96⟩
/-- R26. -/
def GLB_SPARE_ROOM_STAT : Reg := ⟨0x2, 0x1c0, 0, 1⟩
/-- R27. -/
def ROOM_TILE_MAP : Reg := ⟨0x10, 0x040, 4, 32⟩
/-- R27. -/
def ROOM_TILE_RETIRED_LO : Reg := ⟨0x10, 0x0c0, 0, 1⟩
/-- R27. -/
def ROOM_TILE_RETIRED_HI : Reg := ⟨0x10, 0x0c4, 0, 1⟩
/-- R134. -/
def ROOM_STITCH_LAST : Reg := ⟨0x10, 0x104, 0, 1⟩
/-- R134. -/
def ROOM_STITCH_LAST_STEP : Reg := ⟨0x10, 0x108, 0, 1⟩
/-- R134. -/
def ROOM_STITCH_FAILS : Reg := ⟨0x10, 0x10c, 0, 1⟩
/-- R134. -/
def ROOM_STITCH_STRIKES : Reg := ⟨0x10, 0x140, 4, 32⟩
/-- R135. -/
def ROOM_STITCH_INJ : Reg := ⟨0x10, 0x100, 0, 1⟩
/-- R205. -/
def LARD_LAYOUT : Reg := ⟨0x21, 0x040, 0, 1⟩
/-- R205. -/
def LARD_SLICES : Reg := ⟨0x21, 0x044, 0, 1⟩
/-- R205. -/
def LARD_CACHE_WIN : Reg := ⟨0x21, 0x048, 0, 1⟩
/-- R206. -/
def CELL_PART_CFG : Reg := ⟨0x22, 0x040, 0, 1⟩
/-- R206. -/
def CELL_STACK_BASE : Reg := ⟨0x22, 0x044, 0, 1⟩
/-- R206. -/
def CELL_PART_CAP : Reg := ⟨0x22, 0x048, 0, 1⟩
/-- R208. -/
def CELL_TEMP : Reg := ⟨0x30, 0x040, 0, 1⟩
/-- R208. -/
def CELL_STAT : Reg := ⟨0x30, 0x044, 0, 1⟩
/-- R237. -/
def HALL_CFG : Reg := ⟨0x3, 0x040, 0, 1⟩
/-- R237. -/
def HALL_HOLE : Reg := ⟨0x3, 0x044, 4, 4⟩
/-- R238. -/
def HALL_SLOT : Reg := ⟨0x20, 0x040, 4, 64⟩
/-- R239. -/
def HALL_GEN : Reg := ⟨0x23, 0x040, 0, 1⟩
/-- R239. -/
def HALL_GEN_DROPS : Reg := ⟨0x23, 0x044, 0, 1⟩
/-- R239. -/
def HALL_MIGR : Reg := ⟨0x23, 0x048, 0, 1⟩
/-- R239. -/
def HALL_LANES : Reg := ⟨0x23, 0x04c, 0, 1⟩
/-- R275. -/
def TACK_HARN_STAT : Reg := ⟨0x24, 0x040, 0, 1⟩
/-- R275. -/
def TACK_HARN_LOAD_STATUS : Reg := ⟨0x24, 0x044, 0, 1⟩
/-- R275. -/
def TACK_HARN_VERSION_LO : Reg := ⟨0x24, 0x048, 0, 1⟩
/-- R275. -/
def TACK_HARN_VERSION_HI : Reg := ⟨0x24, 0x04c, 0, 1⟩
/-- R275. -/
def TACK_HARN_DIGEST : Reg := ⟨0x24, 0x050, 4, 8⟩
/-- R275. -/
def TACK_HARN_SEED_LO : Reg := ⟨0x24, 0x070, 0, 1⟩
/-- R275. -/
def TACK_HARN_SEED_HI : Reg := ⟨0x24, 0x074, 0, 1⟩
/-- R276. -/
def TACK_HKEY : Reg := ⟨0x4, 0x040, 4, 128⟩
/-- R276. -/
def TACK_HKEY_VALID : Reg := ⟨0x4, 0x240, 0, 1⟩
/-- R311. -/
def BRDL_XG_CFG : Reg := ⟨0x25, 0x040, 0, 1⟩
/-- R311. -/
def BRDL_XG_TIMEOUT : Reg := ⟨0x25, 0x044, 0, 1⟩
/-- R311. -/
def BRDL_XG_VOTE : Reg := ⟨0x25, 0x048, 0, 1⟩
/-- R311. -/
def BRDL_XG_STEP_LO : Reg := ⟨0x25, 0x04c, 0, 1⟩
/-- R311. -/
def BRDL_XG_STEP_HI : Reg := ⟨0x25, 0x050, 0, 1⟩
/-- R311. -/
def BRDL_XG_DISCARDS : Reg := ⟨0x25, 0x054, 0, 1⟩
/-- R311. -/
def BRDL_XG_COUNTS : Reg := ⟨0x25, 0x058, 0, 1⟩
/-- R311. -/
def BRDL_XG_NODE : Reg := ⟨0x25, 0x800, 4, 512⟩
/-- R339. -/
def TACK_JRNL_CFG : Reg := ⟨0x26, 0x040, 0, 1⟩
/-- R339. -/
def TACK_JRNL_AREA : Reg := ⟨0x26, 0x044, 0, 1⟩
/-- R339. -/
def TACK_CKPT_AREA : Reg := ⟨0x26, 0x048, 0, 1⟩
/-- R339. -/
def TACK_JRNL_WRITE_LO : Reg := ⟨0x26, 0x04c, 0, 1⟩
/-- R339. -/
def TACK_JRNL_WRITE_HI : Reg := ⟨0x26, 0x050, 0, 1⟩
/-- R339. -/
def TACK_JRNL_FLOOR_LO : Reg := ⟨0x26, 0x054, 0, 1⟩
/-- R339. -/
def TACK_JRNL_FLOOR_HI : Reg := ⟨0x26, 0x058, 0, 1⟩
/-- R339. -/
def TACK_JRNL_STAT : Reg := ⟨0x26, 0x05c, 0, 1⟩
/-- R339. -/
def TACK_CKPT_STAT : Reg := ⟨0x26, 0x060, 0, 1⟩
/-- R339. -/
def TACK_CKPT_STEP0_LO : Reg := ⟨0x26, 0x064, 0, 1⟩
/-- R339. -/
def TACK_CKPT_STEP0_HI : Reg := ⟨0x26, 0x068, 0, 1⟩
/-- R339. -/
def TACK_CKPT_STEP1_LO : Reg := ⟨0x26, 0x06c, 0, 1⟩
/-- R339. -/
def TACK_CKPT_STEP1_HI : Reg := ⟨0x26, 0x070, 0, 1⟩
/-- R339. -/
def TACK_SNAP_STAT : Reg := ⟨0x26, 0x074, 0, 1⟩
/-- R381. -/
def BRDL_NODE : Reg := ⟨0x32, 0x040, 0, 1⟩
/-- R381. -/
def BRDL_CHARTER_RANGE : Reg := ⟨0x32, 0x044, 4, 4⟩
/-- R381. -/
def BRDL_CHARTER_OPS : Reg := ⟨0x32, 0x054, 0, 1⟩
/-- R381. -/
def BRDL_CHARTER_RATE : Reg := ⟨0x32, 0x058, 0, 1⟩
/-- R381. -/
def BRDL_PTP : Reg := ⟨0x32, 0x05c, 0, 1⟩
/-- R381. -/
def BRDL_PART_ALLOT : Reg := ⟨0x32, 0x800, 4, 512⟩
/-- R382. -/
def BRDL_PORT_STAT : Reg := ⟨0x31, 0x040, 0, 1⟩
/-- R382. -/
def BRDL_PORT_RETRAINS : Reg := ⟨0x31, 0x044, 0, 1⟩
/-- R382. -/
def BRDL_PORT_FEC_UNCORR : Reg := ⟨0x31, 0x048, 0, 1⟩
/-- R382. -/
def BRDL_PORT_REPLAYS : Reg := ⟨0x31, 0x04c, 0, 1⟩
/-- R382. -/
def BRDL_PORT_SLOT : Reg := ⟨0x31, 0x100, 4, 64⟩
/-- R383. -/
def BRDL_RGN_CTRL : Reg := ⟨0x35, 0x040, 0, 1⟩
/-- R383. -/
def BRDL_RGN_BASE : Reg := ⟨0x35, 0x044, 0, 1⟩
/-- R383. -/
def BRDL_RGN_LEN : Reg := ⟨0x35, 0x048, 0, 1⟩
/-- R383. -/
def BRDL_RGN_TARGET : Reg := ⟨0x35, 0x04c, 0, 1⟩
/-- R383. -/
def BRDL_RGN_READERS : Reg := ⟨0x35, 0x050, 0, 1⟩
/-- R383. -/
def BRDL_RGN_OWNER : Reg := ⟨0x35, 0x054, 0, 1⟩
/-- R384. -/
def BRDL_LAST_REFUSAL : Reg := ⟨0x25, 0x05c, 0, 1⟩
/-- R384. -/
def BRDL_LAST_REFUSAL_OFF_LO : Reg := ⟨0x25, 0x060, 0, 1⟩
/-- R384. -/
def BRDL_LAST_REFUSAL_OFF_HI : Reg := ⟨0x25, 0x064, 0, 1⟩
/-- R416. -/
def RING_DB : Reg := ⟨0x50, 0x040, 4, 128⟩
/-- R416. -/
def RING_EVT_BASE_LO : Reg := ⟨0x51, 0x040, 0, 1⟩
/-- R416. -/
def RING_EVT_BASE_HI : Reg := ⟨0x51, 0x044, 0, 1⟩
/-- R416. -/
def RING_EVT_CFG : Reg := ⟨0x51, 0x048, 0, 1⟩
/-- R416. -/
def RING_EVT_HEAD : Reg := ⟨0x51, 0x04c, 0, 1⟩
/-- R416. -/
def RING_EVT_TAIL : Reg := ⟨0x51, 0x050, 0, 1⟩
/-- R416. -/
def RING_EVT_LOST : Reg := ⟨0x51, 0x054, 0, 1⟩
/-- R416. -/
def TACK_PART_STAT : Reg := ⟨0x52, 0x040, 0, 1⟩
/-- R417. -/
def RING_CTX_BASE_LO : Reg := ⟨0x54, 0x040, 32, 32⟩
/-- R417. -/
def RING_CTX_BASE_HI : Reg := ⟨0x54, 0x044, 32, 32⟩
/-- R417. -/
def RING_CTX_CFG : Reg := ⟨0x54, 0x048, 32, 32⟩
/-- R417. -/
def RING_CTX_PTR : Reg := ⟨0x54, 0x04c, 32, 32⟩
/-- R417. -/
def RING_CTX_SEQ_LO : Reg := ⟨0x54, 0x050, 32, 32⟩
/-- R417. -/
def RING_CTX_SEQ_HI : Reg := ⟨0x54, 0x054, 32, 32⟩
/-- R417. -/
def RING_CTX_ARB : Reg := ⟨0x54, 0x058, 32, 32⟩
/-- R418. -/
def TACK_CKEY : Reg := ⟨0x53, 0x040, 4, 32⟩
/-- R418. -/
def TACK_CKEY_VALID : Reg := ⟨0x53, 0x0c0, 0, 1⟩
/-- R419. -/
def TACK_PART_CTRL : Reg := ⟨0x27, 0x040, 0, 1⟩
/-- R419. -/
def TACK_PART_CELL : Reg := ⟨0x27, 0x048, 0, 1⟩
/-- R419. -/
def TACK_PART_RINGS : Reg := ⟨0x27, 0x04c, 0, 1⟩
/-- R419. -/
def TACK_PART_GUAR : Reg := ⟨0x27, 0x050, 0, 1⟩
/-- R419. -/
def TACK_PART_HWIN_LO : Reg := ⟨0x27, 0x080, 16, 16⟩
/-- R419. -/
def TACK_PART_HWIN_HI : Reg := ⟨0x27, 0x084, 16, 16⟩
/-- R419. -/
def TACK_PART_HWIN_LEN : Reg := ⟨0x27, 0x088, 16, 16⟩
/-- R419. -/
def TACK_PART_TILES : Reg := ⟨0x27, 0x200, 4, 96⟩
/-- R419. -/
def TACK_PART_NEW_TILES : Reg := ⟨0x27, 0x400, 4, 96⟩
/-- R420. -/
def PRCH_CELL_SLOT : Reg := ⟨0x34, 0x100, 4, 512⟩
/-- R420. -/
def PCIE_SLOT : Reg := ⟨0x33, 0x100, 4, 512⟩
/-- R420. -/
def PCIE_LINK_STAT : Reg := ⟨0x33, 0x040, 0, 1⟩
/-- R445. -/
def PWR_BUS : Reg := ⟨0x5, 0x040, 0, 1⟩
/-- R445. -/
def PWR_BUS_MV : Reg := ⟨0x5, 0x044, 0, 1⟩
/-- R445. -/
def PWR_PORCH_CONV : Reg := ⟨0x5, 0x048, 0, 1⟩
/-- R445. -/
def PWR_TIE_CLOSED_LO : Reg := ⟨0x5, 0x04c, 0, 1⟩
/-- R445. -/
def PWR_TIE_CLOSED_HI : Reg := ⟨0x5, 0x050, 0, 1⟩
/-- R445. -/
def PWR_TRIP : Reg := ⟨0x5, 0x054, 0, 1⟩
/-- R446. -/
def PWR_PHASE_STAT : Reg := ⟨0x11, 0x040, 4, 12⟩
/-- R446. -/
def PWR_ROOM_STAT : Reg := ⟨0x11, 0x070, 0, 1⟩
/-- R446. -/
def PWR_ROOM_MV : Reg := ⟨0x11, 0x074, 0, 1⟩
/-- R446. -/
def PWR_ROOM_AMPS : Reg := ⟨0x11, 0x078, 0, 1⟩
/-- R446. -/
def PWR_STRETCH_CYCLES : Reg := ⟨0x11, 0x07c, 0, 1⟩
/-- R447. -/
def CLK_REF_STAT : Reg := ⟨0x6, 0x040, 0, 1⟩
/-- R447. -/
def CLK_REF_LOSSES : Reg := ⟨0x6, 0x044, 0, 1⟩
/-- R448. -/
def CLK_ROOM_STAT : Reg := ⟨0x12, 0x040, 0, 1⟩
/-- R448. -/
def CLK_ROOM_SRC : Reg := ⟨0x12, 0x044, 4, 4⟩
/-- R448. -/
def CLK_ROOM_CHANGES : Reg := ⟨0x12, 0x054, 0, 1⟩
/-- R448. -/
def CLK_ROOM_STOP_NS : Reg := ⟨0x12, 0x058, 0, 1⟩
/-- R448. -/
def CLK_ROOM_REFSW : Reg := ⟨0x12, 0x05c, 0, 1⟩
/-- R469. -/
def REIN_CFG : Reg := ⟨0x7, 0x040, 0, 1⟩
/-- R469. -/
def REIN_OP_CAP : Reg := ⟨0x7, 0x044, 0, 1⟩
/-- R469. -/
def REIN_FAC_TARGET : Reg := ⟨0x7, 0x048, 0, 1⟩
/-- R469. -/
def REIN_FAC_RAMP : Reg := ⟨0x7, 0x04c, 0, 1⟩
/-- R469. -/
def REIN_FAC_NOW : Reg := ⟨0x7, 0x050, 0, 1⟩
/-- R469. -/
def REIN_SHED_LEVEL : Reg := ⟨0x7, 0x054, 0, 1⟩
/-- R469. -/
def REIN_THERM_CAP : Reg := ⟨0x7, 0x058, 0, 1⟩
/-- R469. -/
def REIN_EFF_CAP : Reg := ⟨0x7, 0x05c, 0, 1⟩
/-- R469. -/
def REIN_RTH : Reg := ⟨0x7, 0x060, 0, 1⟩
/-- R469. -/
def REIN_RTH_INIT : Reg := ⟨0x7, 0x064, 0, 1⟩
/-- R469. -/
def REIN_INLET : Reg := ⟨0x7, 0x068, 0, 1⟩
/-- R469. -/
def REIN_TEMP : Reg := ⟨0x7, 0x06c, 0, 1⟩
/-- R469. -/
def REIN_FAN : Reg := ⟨0x7, 0x070, 0, 1⟩
/-- R469. -/
def REIN_FAN_EXPECT : Reg := ⟨0x7, 0x074, 0, 1⟩
/-- R469. -/
def REIN_FAN_RPM : Reg := ⟨0x7, 0x080, 4, 8⟩
/-- R469. -/
def REIN_THR_NS_LO : Reg := ⟨0x7, 0x100, 8, 11⟩
/-- R469. -/
def REIN_THR_NS_HI : Reg := ⟨0x7, 0x104, 8, 11⟩
/-- R470. -/
def REIN_ROOM_STAT : Reg := ⟨0x13, 0x040, 0, 1⟩
/-- R470. -/
def REIN_ROOM_HIST : Reg := ⟨0x13, 0x044, 0, 1⟩
/-- R470. -/
def REIN_ROOM_LEAD : Reg := ⟨0x13, 0x048, 0, 1⟩
/-- R496. -/
def MTR_STAT : Reg := ⟨0x40, 0x040, 0, 1⟩
/-- R496. -/
def MTR_CAL_ID : Reg := ⟨0x40, 0x044, 0, 1⟩
/-- R496. -/
def MTR_INPUT_MW : Reg := ⟨0x40, 0x048, 0, 1⟩
/-- R496. -/
def MTR_TOTAL_MJ_LO : Reg := ⟨0x40, 0x04c, 0, 1⟩
/-- R496. -/
def MTR_TOTAL_MJ_HI : Reg := ⟨0x40, 0x050, 0, 1⟩
/-- R496. -/
def MTR_OPER_MJ_LO : Reg := ⟨0x40, 0x054, 0, 1⟩
/-- R496. -/
def MTR_OPER_MJ_HI : Reg := ⟨0x40, 0x058, 0, 1⟩
/-- R496. -/
def MTR_SIGNED : Reg := ⟨0x40, 0x05c, 0, 1⟩
/-- R496. -/
def MTR_ROLLUPS : Reg := ⟨0x40, 0x060, 0, 1⟩
/-- R496. -/
def MTR_LEDGER_CTRL : Reg := ⟨0x40, 0x064, 0, 1⟩
/-- R496. -/
def MTR_LEDGER_RING : Reg := ⟨0x40, 0x068, 0, 1⟩
/-- R496. -/
def MTR_ROOM_MW : Reg := ⟨0x40, 0x100, 4, 96⟩
/-- R496. -/
def MTR_COEF : Reg := ⟨0x40, 0x300, 4, 50⟩
/-- R497. -/
def TIME_MONO_LO : Reg := ⟨0x41, 0x040, 0, 1⟩
/-- R497. -/
def TIME_MONO_HI : Reg := ⟨0x41, 0x044, 0, 1⟩
/-- R497. -/
def TIME_TAI_LO : Reg := ⟨0x41, 0x048, 0, 1⟩
/-- R497. -/
def TIME_TAI_HI : Reg := ⟨0x41, 0x04c, 0, 1⟩
/-- R497. -/
def TIME_UTC_OFFSET : Reg := ⟨0x41, 0x050, 0, 1⟩
/-- R497. -/
def TIME_NEXT_OFFSET : Reg := ⟨0x41, 0x054, 0, 1⟩
/-- R497. -/
def TIME_NEXT_AT_LO : Reg := ⟨0x41, 0x058, 0, 1⟩
/-- R497. -/
def TIME_NEXT_AT_HI : Reg := ⟨0x41, 0x05c, 0, 1⟩
/-- R497. -/
def TIME_SET_YMD : Reg := ⟨0x41, 0x060, 0, 1⟩
/-- R497. -/
def TIME_SET_HMS : Reg := ⟨0x41, 0x064, 0, 1⟩
/-- R497. -/
def TIME_SET_NS : Reg := ⟨0x41, 0x068, 0, 1⟩
/-- R497. -/
def TIME_SET_CTRL : Reg := ⟨0x41, 0x06c, 0, 1⟩
/-- R497. -/
def TIME_STAT : Reg := ⟨0x41, 0x070, 0, 1⟩
/-- R497. -/
def TIME_DISC : Reg := ⟨0x41, 0x074, 0, 1⟩
/-- R497. -/
def TIME_SLEW_NS : Reg := ⟨0x41, 0x078, 0, 1⟩
/-- R497. -/
def TIME_CFG : Reg := ⟨0x41, 0x07c, 0, 1⟩
/-- R498. -/
def MTR_LEDGER_CFG : Reg := ⟨0x52, 0x048, 0, 1⟩
/-- R498. -/
def MTR_PART_MW : Reg := ⟨0x52, 0x04c, 0, 1⟩
/-- R498. -/
def MTR_PART_DAY_MJ_LO : Reg := ⟨0x52, 0x050, 0, 1⟩
/-- R498. -/
def MTR_PART_DAY_MJ_HI : Reg := ⟨0x52, 0x054, 0, 1⟩
/-- R516. -/
def TACK_BRINGUP : Reg := ⟨0x8, 0x040, 0, 1⟩
/-- R516. -/
def TACK_FW_STAT : Reg := ⟨0x8, 0x044, 0, 1⟩
/-- R516. -/
def TACK_FW_CTRL : Reg := ⟨0x8, 0x048, 0, 1⟩
/-- R516. -/
def TACK_FW_SRC_LO : Reg := ⟨0x8, 0x04c, 0, 1⟩
/-- R516. -/
def TACK_FW_SRC_HI : Reg := ⟨0x8, 0x050, 0, 1⟩
/-- R516. -/
def TACK_FW_ABI_SEL : Reg := ⟨0x8, 0x054, 0, 1⟩
/-- R516. -/
def TACK_FW_ABI_RANGE : Reg := ⟨0x8, 0x058, 0, 1⟩
/-- R516. -/
def TACK_PF_RINGS : Reg := ⟨0x8, 0x05c, 0, 1⟩
/-- R517. -/
def ID_LOT_LO : Reg := ⟨0x9, 0x040, 0, 1⟩
/-- R517. -/
def ID_LOT_HI : Reg := ⟨0x9, 0x044, 0, 1⟩
/-- R517. -/
def ID_UNIT : Reg := ⟨0x9, 0x048, 0, 1⟩
/-- R517. -/
def ID_MFG_DAY : Reg := ⟨0x9, 0x04c, 0, 1⟩
/-- R517. -/
def ID_REC_STAT : Reg := ⟨0x9, 0x050, 0, 1⟩
/-- R517. -/
def ID_EPOCH : Reg := ⟨0x9, 0x054, 0, 1⟩
/-- R517. -/
def ID_CTRL : Reg := ⟨0x9, 0x058, 0, 1⟩
/-- R517. -/
def ID_ROOM_SERIAL : Reg := ⟨0x9, 0x100, 4, 100⟩
/-- R517. -/
def ID_EVENT : Reg := ⟨0x9, 0x400, 4, 768⟩
/-- R531. -/
def ERR_LOG_COUNT : Reg := ⟨0xa, 0x040, 0, 1⟩
/-- R531. -/
def ERR_LOG_SEL : Reg := ⟨0xa, 0x044, 0, 1⟩
/-- R531. -/
def ERR_LOG_STAT : Reg := ⟨0xa, 0x048, 0, 1⟩
/-- R531. -/
def ERR_LOG_DATA : Reg := ⟨0xa, 0x060, 4, 8⟩
/-- R536. -/
def BLK_ID : Reg := ⟨0x0, 0x000, 0, 1⟩
/-- R536. -/
def BLK_REV : Reg := ⟨0x0, 0x004, 0, 1⟩
/-- R536. -/
def BLK_CAP_LO : Reg := ⟨0x0, 0x008, 0, 1⟩
/-- R536. -/
def BLK_CAP_HI : Reg := ⟨0x0, 0x00c, 0, 1⟩
/-- R536. -/
def BLK_CTRL : Reg := ⟨0x0, 0x010, 0, 1⟩
/-- R536. -/
def BLK_STAT : Reg := ⟨0x0, 0x014, 0, 1⟩
/-- R536. -/
def EVT_EN : Reg := ⟨0x0, 0x018, 0, 1⟩
/-- R536. -/
def EVT_STAT : Reg := ⟨0x0, 0x01c, 0, 1⟩
/-- R536. -/
def ERR_CE_CNT : Reg := ⟨0x0, 0x020, 0, 1⟩
/-- R536. -/
def ERR_UE_CNT : Reg := ⟨0x0, 0x024, 0, 1⟩
/-- R536. -/
def ERR_ADDR_LO : Reg := ⟨0x0, 0x028, 0, 1⟩
/-- R536. -/
def ERR_ADDR_HI : Reg := ⟨0x0, 0x02c, 0, 1⟩
/-- R536. -/
def CFG_LOCK : Reg := ⟨0x0, 0x030, 0, 1⟩
/-- R536. -/
def OWNER : Reg := ⟨0x0, 0x034, 0, 1⟩
/-- R547. -/
def GLB_POWER_STATE : Reg := ⟨0x1, 0x040, 0, 1⟩
/-- R547. -/
def GLB_STAT : Reg := ⟨0x1, 0x044, 0, 1⟩
/-- R547. -/
def GLB_WAKE_US : Reg := ⟨0x1, 0x048, 0, 1⟩
/-- R550. -/
def ROOM_STAT : Reg := ⟨0x10, 0x0c8, 0, 1⟩
/-- R550. -/
def ROOM_TILE_PART : Reg := ⟨0x10, 0x200, 4, 32⟩
/-- R551. -/
def PRCH_SIDE_CELL : Reg := ⟨0x36, 0x040, 0, 1⟩
/-- R551. -/
def PRCH_SIDE_PORTS : Reg := ⟨0x36, 0x044, 0, 1⟩
/-- R551. -/
def PRCH_SIDE_HEAT : Reg := ⟨0x36, 0x048, 0, 1⟩
/-- R551. -/
def PRCH_SIDE_POWER : Reg := ⟨0x36, 0x04c, 0, 1⟩
/-- R498. -/
def MTR_CERT_LEN : Reg := ⟨0x42, 0x040, 0, 1⟩
/-- R498. -/
def MTR_CERT_DATA : Reg := ⟨0x42, 0x800, 4, 512⟩
/-- R498: the same registers on a VF status page. -/
def VF_CERT_LEN : Reg := ⟨0x52, 0x044, 0, 1⟩
/-- R498. -/
def VF_CERT_DATA : Reg := ⟨0x52, 0x800, 4, 512⟩

end RG

namespace F
open RG

def GLB_ROOM_MAP_PHYS_X : Fld := ⟨GLB_ROOM_MAP, 3, 0⟩
def GLB_ROOM_MAP_PHYS_Y : Fld := ⟨GLB_ROOM_MAP, 7, 4⟩
def GLB_ROOM_MAP_SUBST : Fld := ⟨GLB_ROOM_MAP, 8, 8⟩
def GLB_ROOM_MAP_TILE_SPARES_FREE : Fld := ⟨GLB_ROOM_MAP, 11, 9⟩
def GLB_ROOM_MAP_SHORT : Fld := ⟨GLB_ROOM_MAP, 12, 12⟩
def GLB_ROOM_MAP_OUT_OF_SERVICE : Fld := ⟨GLB_ROOM_MAP, 13, 13⟩
def GLB_SPARE_ROOM_STAT_NW_FREE : Fld := ⟨GLB_SPARE_ROOM_STAT, 0, 0⟩
def GLB_SPARE_ROOM_STAT_NE_FREE : Fld := ⟨GLB_SPARE_ROOM_STAT, 1, 1⟩
def GLB_SPARE_ROOM_STAT_SW_FREE : Fld := ⟨GLB_SPARE_ROOM_STAT, 2, 2⟩
def GLB_SPARE_ROOM_STAT_SE_FREE : Fld := ⟨GLB_SPARE_ROOM_STAT, 3, 3⟩
def ROOM_TILE_MAP_PHYS_TILE : Fld := ⟨ROOM_TILE_MAP, 5, 0⟩
def ROOM_TILE_MAP_SUBST : Fld := ⟨ROOM_TILE_MAP, 6, 6⟩
def ROOM_TILE_RETIRED_LO_RETIRED : Fld := ⟨ROOM_TILE_RETIRED_LO, 31, 0⟩
def ROOM_TILE_RETIRED_HI_RETIRED : Fld := ⟨ROOM_TILE_RETIRED_HI, 3, 0⟩
def ROOM_STITCH_LAST_TILE : Fld := ⟨ROOM_STITCH_LAST, 4, 0⟩
def ROOM_STITCH_LAST_CORE : Fld := ⟨ROOM_STITCH_LAST, 6, 5⟩
def ROOM_STITCH_LAST_ARRAY : Fld := ⟨ROOM_STITCH_LAST, 7, 7⟩
def ROOM_STITCH_LAST_ROW : Fld := ⟨ROOM_STITCH_LAST, 13, 8⟩
def ROOM_STITCH_LAST_ROW_VALID : Fld := ⟨ROOM_STITCH_LAST, 14, 14⟩
def ROOM_STITCH_LAST_COL : Fld := ⟨ROOM_STITCH_LAST, 20, 15⟩
def ROOM_STITCH_LAST_COL_VALID : Fld := ⟨ROOM_STITCH_LAST, 21, 21⟩
def ROOM_STITCH_LAST_KIND : Fld := ⟨ROOM_STITCH_LAST, 23, 22⟩
def ROOM_STITCH_LAST_VALID : Fld := ⟨ROOM_STITCH_LAST, 31, 31⟩
def ROOM_STITCH_LAST_STEP_STEP : Fld := ⟨ROOM_STITCH_LAST_STEP, 31, 0⟩
def ROOM_STITCH_FAILS_COUNT : Fld := ⟨ROOM_STITCH_FAILS, 31, 0⟩
def ROOM_STITCH_STRIKES_STRIKES : Fld := ⟨ROOM_STITCH_STRIKES, 15, 0⟩
def ROOM_STITCH_INJ_TILE : Fld := ⟨ROOM_STITCH_INJ, 4, 0⟩
def ROOM_STITCH_INJ_CORE : Fld := ⟨ROOM_STITCH_INJ, 6, 5⟩
def ROOM_STITCH_INJ_ARRAY : Fld := ⟨ROOM_STITCH_INJ, 7, 7⟩
def ROOM_STITCH_INJ_ROW : Fld := ⟨ROOM_STITCH_INJ, 13, 8⟩
def ROOM_STITCH_INJ_COL : Fld := ⟨ROOM_STITCH_INJ, 19, 14⟩
def ROOM_STITCH_INJ_BIT : Fld := ⟨ROOM_STITCH_INJ, 24, 20⟩
def ROOM_STITCH_INJ_TARGET : Fld := ⟨ROOM_STITCH_INJ, 25, 25⟩
def ROOM_STITCH_INJ_ARM : Fld := ⟨ROOM_STITCH_INJ, 31, 31⟩
def LARD_LAYOUT_LOCAL_PAGES : Fld := ⟨LARD_LAYOUT, 11, 0⟩
def LARD_LAYOUT_CACHE_PAGES : Fld := ⟨LARD_LAYOUT, 27, 16⟩
def LARD_SLICES_COUNT : Fld := ⟨LARD_SLICES, 11, 0⟩
def LARD_CACHE_WIN_BASE_GIB : Fld := ⟨LARD_CACHE_WIN, 14, 0⟩
def LARD_CACHE_WIN_LIMIT_GIB : Fld := ⟨LARD_CACHE_WIN, 30, 16⟩
def CELL_PART_CFG_ECC_ON : Fld := ⟨CELL_PART_CFG, 0, 0⟩
def CELL_PART_CFG_STACK_VIEW : Fld := ⟨CELL_PART_CFG, 1, 1⟩
def CELL_STACK_BASE_BASE_GIB : Fld := ⟨CELL_STACK_BASE, 14, 0⟩
def CELL_PART_CAP_MIB : Fld := ⟨CELL_PART_CAP, 23, 0⟩
def CELL_TEMP_PKG0_MR4 : Fld := ⟨CELL_TEMP, 4, 0⟩
def CELL_TEMP_PKG1_MR4 : Fld := ⟨CELL_TEMP, 12, 8⟩
def CELL_TEMP_LEVEL : Fld := ⟨CELL_TEMP, 17, 16⟩
def CELL_STAT_TRAINED : Fld := ⟨CELL_STAT, 0, 0⟩
def CELL_STAT_SELF_REFRESH : Fld := ⟨CELL_STAT, 1, 1⟩
def CELL_STAT_HALF_RATE : Fld := ⟨CELL_STAT, 2, 2⟩
def CELL_STAT_HELD : Fld := ⟨CELL_STAT, 3, 3⟩
def HALL_CFG_SHARED : Fld := ⟨HALL_CFG, 0, 0⟩
def HALL_CFG_COMBINE_EN : Fld := ⟨HALL_CFG, 1, 1⟩
def HALL_HOLE_HOLE : Fld := ⟨HALL_HOLE, 31, 0⟩
def HALL_SLOT_PART : Fld := ⟨HALL_SLOT, 8, 0⟩
def HALL_SLOT_OWNED : Fld := ⟨HALL_SLOT, 9, 9⟩
def HALL_GEN_GEN : Fld := ⟨HALL_GEN, 15, 0⟩
def HALL_GEN_DROPS_COUNT : Fld := ⟨HALL_GEN_DROPS, 31, 0⟩
def HALL_MIGR_SINCE_QUIESCE : Fld := ⟨HALL_MIGR, 14, 0⟩
def HALL_MIGR_QUIESCES : Fld := ⟨HALL_MIGR, 31, 16⟩
def HALL_LANES_COUNT : Fld := ⟨HALL_LANES, 8, 0⟩
def TACK_HARN_STAT_LOADED : Fld := ⟨TACK_HARN_STAT, 0, 0⟩
def TACK_HARN_STAT_ABI : Fld := ⟨TACK_HARN_STAT, 2, 1⟩
def TACK_HARN_STAT_ORDERED : Fld := ⟨TACK_HARN_STAT, 3, 3⟩
def TACK_HARN_STAT_VARIANT : Fld := ⟨TACK_HARN_STAT, 7, 4⟩
def TACK_HARN_LOAD_STATUS_STATUS : Fld := ⟨TACK_HARN_LOAD_STATUS, 15, 0⟩
def TACK_HARN_VERSION_LO_VERSION : Fld := ⟨TACK_HARN_VERSION_LO, 31, 0⟩
def TACK_HARN_VERSION_HI_VERSION : Fld := ⟨TACK_HARN_VERSION_HI, 31, 0⟩
def TACK_HARN_DIGEST_DIGEST : Fld := ⟨TACK_HARN_DIGEST, 31, 0⟩
def TACK_HARN_SEED_LO_SEED : Fld := ⟨TACK_HARN_SEED_LO, 31, 0⟩
def TACK_HARN_SEED_HI_SEED : Fld := ⟨TACK_HARN_SEED_HI, 31, 0⟩
def TACK_HKEY_KEY : Fld := ⟨TACK_HKEY, 31, 0⟩
def TACK_HKEY_VALID_VALID : Fld := ⟨TACK_HKEY_VALID, 15, 0⟩
def BRDL_XG_CFG_PCOUNT : Fld := ⟨BRDL_XG_CFG, 10, 0⟩
def BRDL_XG_CFG_ORDINAL : Fld := ⟨BRDL_XG_CFG, 25, 16⟩
def BRDL_XG_TIMEOUT_MS : Fld := ⟨BRDL_XG_TIMEOUT, 15, 0⟩
def BRDL_XG_VOTE_LOCAL : Fld := ⟨BRDL_XG_VOTE, 1, 0⟩
def BRDL_XG_VOTE_FINAL : Fld := ⟨BRDL_XG_VOTE, 3, 2⟩
def BRDL_XG_VOTE_ATTEMPT : Fld := ⟨BRDL_XG_VOTE, 5, 4⟩
def BRDL_XG_VOTE_CLOSED : Fld := ⟨BRDL_XG_VOTE, 6, 6⟩
def BRDL_XG_STEP_LO_STEP : Fld := ⟨BRDL_XG_STEP_LO, 31, 0⟩
def BRDL_XG_STEP_HI_STEP : Fld := ⟨BRDL_XG_STEP_HI, 31, 0⟩
def BRDL_XG_DISCARDS_COUNT : Fld := ⟨BRDL_XG_DISCARDS, 31, 0⟩
def BRDL_XG_COUNTS_SKIPS : Fld := ⟨BRDL_XG_COUNTS, 15, 0⟩
def BRDL_XG_COUNTS_REPLAYS : Fld := ⟨BRDL_XG_COUNTS, 31, 16⟩
def BRDL_XG_NODE_NODE_EVEN : Fld := ⟨BRDL_XG_NODE, 15, 0⟩
def BRDL_XG_NODE_NODE_ODD : Fld := ⟨BRDL_XG_NODE, 31, 16⟩
def TACK_JRNL_CFG_EN : Fld := ⟨TACK_JRNL_CFG, 0, 0⟩
def TACK_JRNL_CFG_FULL_HOLD : Fld := ⟨TACK_JRNL_CFG, 1, 1⟩
def TACK_JRNL_CFG_AUTO_CKPT : Fld := ⟨TACK_JRNL_CFG, 2, 2⟩
def TACK_JRNL_CFG_AUTO_FLOOR : Fld := ⟨TACK_JRNL_CFG, 3, 3⟩
def TACK_JRNL_AREA_BASE_GIB : Fld := ⟨TACK_JRNL_AREA, 14, 0⟩
def TACK_JRNL_AREA_SIZE_GIB : Fld := ⟨TACK_JRNL_AREA, 30, 16⟩
def TACK_CKPT_AREA_BASE_GIB : Fld := ⟨TACK_CKPT_AREA, 14, 0⟩
def TACK_CKPT_AREA_SIZE_GIB : Fld := ⟨TACK_CKPT_AREA, 30, 16⟩
def TACK_JRNL_WRITE_LO_BYTES : Fld := ⟨TACK_JRNL_WRITE_LO, 31, 0⟩
def TACK_JRNL_WRITE_HI_BYTES : Fld := ⟨TACK_JRNL_WRITE_HI, 31, 0⟩
def TACK_JRNL_FLOOR_LO_STEP : Fld := ⟨TACK_JRNL_FLOOR_LO, 31, 0⟩
def TACK_JRNL_FLOOR_HI_STEP : Fld := ⟨TACK_JRNL_FLOOR_HI, 31, 0⟩
def TACK_JRNL_STAT_GAP : Fld := ⟨TACK_JRNL_STAT, 0, 0⟩
def TACK_JRNL_STAT_HELD : Fld := ⟨TACK_JRNL_STAT, 1, 1⟩
def TACK_JRNL_STAT_REPLAYING : Fld := ⟨TACK_JRNL_STAT, 2, 2⟩
def TACK_CKPT_STAT_VALID0 : Fld := ⟨TACK_CKPT_STAT, 0, 0⟩
def TACK_CKPT_STAT_VALID1 : Fld := ⟨TACK_CKPT_STAT, 1, 1⟩
def TACK_CKPT_STAT_LATEST : Fld := ⟨TACK_CKPT_STAT, 2, 2⟩
def TACK_CKPT_STAT_STALE0 : Fld := ⟨TACK_CKPT_STAT, 3, 3⟩
def TACK_CKPT_STAT_STALE1 : Fld := ⟨TACK_CKPT_STAT, 4, 4⟩
def TACK_CKPT_STAT_BUSY : Fld := ⟨TACK_CKPT_STAT, 5, 5⟩
def TACK_CKPT_STEP0_LO_STEP : Fld := ⟨TACK_CKPT_STEP0_LO, 31, 0⟩
def TACK_CKPT_STEP0_HI_STEP : Fld := ⟨TACK_CKPT_STEP0_HI, 31, 0⟩
def TACK_CKPT_STEP1_LO_STEP : Fld := ⟨TACK_CKPT_STEP1_LO, 31, 0⟩
def TACK_CKPT_STEP1_HI_STEP : Fld := ⟨TACK_CKPT_STEP1_HI, 31, 0⟩
def TACK_SNAP_STAT_OPEN : Fld := ⟨TACK_SNAP_STAT, 0, 0⟩
def TACK_SNAP_STAT_HOLDING : Fld := ⟨TACK_SNAP_STAT, 1, 1⟩
def TACK_SNAP_STAT_LAST_STATUS : Fld := ⟨TACK_SNAP_STAT, 31, 16⟩
def BRDL_NODE_NODE : Fld := ⟨BRDL_NODE, 11, 0⟩
def BRDL_NODE_INC : Fld := ⟨BRDL_NODE, 31, 16⟩
def BRDL_CHARTER_RANGE_LO : Fld := ⟨BRDL_CHARTER_RANGE, 11, 0⟩
def BRDL_CHARTER_RANGE_HI : Fld := ⟨BRDL_CHARTER_RANGE, 27, 16⟩
def BRDL_CHARTER_RANGE_EN : Fld := ⟨BRDL_CHARTER_RANGE, 31, 31⟩
def BRDL_CHARTER_OPS_READ : Fld := ⟨BRDL_CHARTER_OPS, 0, 0⟩
def BRDL_CHARTER_OPS_WRITE : Fld := ⟨BRDL_CHARTER_OPS, 1, 1⟩
def BRDL_CHARTER_OPS_ATOMIC : Fld := ⟨BRDL_CHARTER_OPS, 2, 2⟩
def BRDL_CHARTER_OPS_EXCHANGE : Fld := ⟨BRDL_CHARTER_OPS, 3, 3⟩
def BRDL_CHARTER_OPS_OWN : Fld := ⟨BRDL_CHARTER_OPS, 4, 4⟩
def BRDL_CHARTER_OPS_PTP : Fld := ⟨BRDL_CHARTER_OPS, 5, 5⟩
def BRDL_CHARTER_RATE_GBPS : Fld := ⟨BRDL_CHARTER_RATE, 8, 0⟩
def BRDL_PTP_DOMAIN : Fld := ⟨BRDL_PTP, 7, 0⟩
def BRDL_PTP_PORT : Fld := ⟨BRDL_PTP, 14, 8⟩
def BRDL_PTP_MASTER_OK : Fld := ⟨BRDL_PTP, 15, 15⟩
def BRDL_PART_ALLOT_TAGS : Fld := ⟨BRDL_PART_ALLOT, 15, 0⟩
def BRDL_PORT_STAT_STATE : Fld := ⟨BRDL_PORT_STAT, 1, 0⟩
def BRDL_PORT_STAT_DEAD : Fld := ⟨BRDL_PORT_STAT, 2, 2⟩
def BRDL_PORT_STAT_CR4 : Fld := ⟨BRDL_PORT_STAT, 3, 3⟩
def BRDL_PORT_RETRAINS_COUNT : Fld := ⟨BRDL_PORT_RETRAINS, 31, 0⟩
def BRDL_PORT_FEC_UNCORR_COUNT : Fld := ⟨BRDL_PORT_FEC_UNCORR, 31, 0⟩
def BRDL_PORT_REPLAYS_COUNT : Fld := ⟨BRDL_PORT_REPLAYS, 31, 0⟩
def BRDL_PORT_SLOT_PART : Fld := ⟨BRDL_PORT_SLOT, 8, 0⟩
def BRDL_PORT_SLOT_OWNED : Fld := ⟨BRDL_PORT_SLOT, 9, 9⟩
def BRDL_RGN_CTRL_VALID : Fld := ⟨BRDL_RGN_CTRL, 0, 0⟩
def BRDL_RGN_CTRL_SPACE : Fld := ⟨BRDL_RGN_CTRL, 1, 1⟩
def BRDL_RGN_CTRL_READ : Fld := ⟨BRDL_RGN_CTRL, 2, 2⟩
def BRDL_RGN_CTRL_WRITE : Fld := ⟨BRDL_RGN_CTRL, 3, 3⟩
def BRDL_RGN_CTRL_MAINT : Fld := ⟨BRDL_RGN_CTRL, 4, 4⟩
def BRDL_RGN_CTRL_OWNED : Fld := ⟨BRDL_RGN_CTRL, 5, 5⟩
def BRDL_RGN_CTRL_PART : Fld := ⟨BRDL_RGN_CTRL, 24, 16⟩
def BRDL_RGN_BASE_BASE : Fld := ⟨BRDL_RGN_BASE, 27, 0⟩
def BRDL_RGN_LEN_LEN : Fld := ⟨BRDL_RGN_LEN, 27, 0⟩
def BRDL_RGN_TARGET_TARGET : Fld := ⟨BRDL_RGN_TARGET, 27, 0⟩
def BRDL_RGN_READERS_RD_LO : Fld := ⟨BRDL_RGN_READERS, 11, 0⟩
def BRDL_RGN_READERS_RD_HI : Fld := ⟨BRDL_RGN_READERS, 27, 16⟩
def BRDL_RGN_OWNER_NODE : Fld := ⟨BRDL_RGN_OWNER, 11, 0⟩
def BRDL_RGN_OWNER_QUEUED : Fld := ⟨BRDL_RGN_OWNER, 20, 16⟩
def BRDL_LAST_REFUSAL_STATUS : Fld := ⟨BRDL_LAST_REFUSAL, 3, 0⟩
def BRDL_LAST_REFUSAL_NODE : Fld := ⟨BRDL_LAST_REFUSAL, 27, 16⟩
def BRDL_LAST_REFUSAL_OFF_LO_OFFSET : Fld := ⟨BRDL_LAST_REFUSAL_OFF_LO, 31, 0⟩
def BRDL_LAST_REFUSAL_OFF_HI_OFFSET : Fld := ⟨BRDL_LAST_REFUSAL_OFF_HI, 11, 0⟩
def RING_DB_INDEX : Fld := ⟨RING_DB, 15, 0⟩
def RING_EVT_BASE_LO_BASE : Fld := ⟨RING_EVT_BASE_LO, 31, 0⟩
def RING_EVT_BASE_HI_BASE : Fld := ⟨RING_EVT_BASE_HI, 31, 0⟩
def RING_EVT_CFG_LOG2 : Fld := ⟨RING_EVT_CFG, 4, 0⟩
def RING_EVT_CFG_VECTOR : Fld := ⟨RING_EVT_CFG, 12, 8⟩
def RING_EVT_CFG_IRQ : Fld := ⟨RING_EVT_CFG, 13, 13⟩
def RING_EVT_CFG_EN : Fld := ⟨RING_EVT_CFG, 31, 31⟩
def RING_EVT_HEAD_HEAD : Fld := ⟨RING_EVT_HEAD, 15, 0⟩
def RING_EVT_TAIL_TAIL : Fld := ⟨RING_EVT_TAIL, 15, 0⟩
def RING_EVT_LOST_COUNT : Fld := ⟨RING_EVT_LOST, 31, 0⟩
def TACK_PART_STAT_STATE : Fld := ⟨TACK_PART_STAT, 1, 0⟩
def TACK_PART_STAT_BUSY : Fld := ⟨TACK_PART_STAT, 2, 2⟩
def TACK_PART_STAT_STOPPED : Fld := ⟨TACK_PART_STAT, 3, 3⟩
def TACK_PART_STAT_SHORTFALL : Fld := ⟨TACK_PART_STAT, 4, 4⟩
def TACK_PART_STAT_FLR_HOLD : Fld := ⟨TACK_PART_STAT, 5, 5⟩
def TACK_PART_STAT_TILES : Fld := ⟨TACK_PART_STAT, 27, 16⟩
def RING_CTX_BASE_LO_BASE : Fld := ⟨RING_CTX_BASE_LO, 31, 0⟩
def RING_CTX_BASE_HI_BASE : Fld := ⟨RING_CTX_BASE_HI, 31, 0⟩
def RING_CTX_CFG_LOG2 : Fld := ⟨RING_CTX_CFG, 4, 0⟩
def RING_CTX_CFG_TYPE : Fld := ⟨RING_CTX_CFG, 6, 5⟩
def RING_CTX_CFG_VECTOR : Fld := ⟨RING_CTX_CFG, 12, 8⟩
def RING_CTX_CFG_STOPPED : Fld := ⟨RING_CTX_CFG, 30, 30⟩
def RING_CTX_CFG_EN : Fld := ⟨RING_CTX_CFG, 31, 31⟩
def RING_CTX_PTR_HEAD : Fld := ⟨RING_CTX_PTR, 15, 0⟩
def RING_CTX_PTR_TAIL : Fld := ⟨RING_CTX_PTR, 31, 16⟩
def RING_CTX_SEQ_LO_EXP_SEQ : Fld := ⟨RING_CTX_SEQ_LO, 31, 0⟩
def RING_CTX_SEQ_HI_EXP_SEQ : Fld := ⟨RING_CTX_SEQ_HI, 31, 0⟩
def RING_CTX_ARB_PRIO : Fld := ⟨RING_CTX_ARB, 2, 0⟩
def RING_CTX_ARB_WEIGHT : Fld := ⟨RING_CTX_ARB, 7, 4⟩
def TACK_CKEY_KEY : Fld := ⟨TACK_CKEY, 31, 0⟩
def TACK_CKEY_VALID_VALID : Fld := ⟨TACK_CKEY_VALID, 3, 0⟩
def TACK_PART_CTRL_CREATE : Fld := ⟨TACK_PART_CTRL, 0, 0⟩
def TACK_PART_CTRL_DESTROY : Fld := ⟨TACK_PART_CTRL, 1, 1⟩
def TACK_PART_CTRL_MOVE : Fld := ⟨TACK_PART_CTRL, 2, 2⟩
def TACK_PART_CELL_BASE_GIB : Fld := ⟨TACK_PART_CELL, 14, 0⟩
def TACK_PART_CELL_SIZE_GIB : Fld := ⟨TACK_PART_CELL, 30, 16⟩
def TACK_PART_RINGS_ALLOT : Fld := ⟨TACK_PART_RINGS, 7, 0⟩
def TACK_PART_GUAR_MIN_W : Fld := ⟨TACK_PART_GUAR, 15, 0⟩
def TACK_PART_HWIN_LO_BASE : Fld := ⟨TACK_PART_HWIN_LO, 31, 0⟩
def TACK_PART_HWIN_HI_BASE : Fld := ⟨TACK_PART_HWIN_HI, 31, 0⟩
def TACK_PART_HWIN_LEN_PAGES : Fld := ⟨TACK_PART_HWIN_LEN, 31, 0⟩
def TACK_PART_TILES_TILES : Fld := ⟨TACK_PART_TILES, 31, 0⟩
def TACK_PART_NEW_TILES_TILES : Fld := ⟨TACK_PART_NEW_TILES, 31, 0⟩
def PRCH_CELL_SLOT_PART_EVEN : Fld := ⟨PRCH_CELL_SLOT, 8, 0⟩
def PCIE_SLOT_PART_EVEN : Fld := ⟨PCIE_SLOT, 8, 0⟩
def PRCH_CELL_SLOT_OWNED_EVEN : Fld := ⟨PRCH_CELL_SLOT, 9, 9⟩
def PCIE_SLOT_OWNED_EVEN : Fld := ⟨PCIE_SLOT, 9, 9⟩
def PRCH_CELL_SLOT_PART_ODD : Fld := ⟨PRCH_CELL_SLOT, 24, 16⟩
def PCIE_SLOT_PART_ODD : Fld := ⟨PCIE_SLOT, 24, 16⟩
def PRCH_CELL_SLOT_OWNED_ODD : Fld := ⟨PRCH_CELL_SLOT, 25, 25⟩
def PCIE_SLOT_OWNED_ODD : Fld := ⟨PCIE_SLOT, 25, 25⟩
def PCIE_LINK_STAT_RATE : Fld := ⟨PCIE_LINK_STAT, 2, 0⟩
def PCIE_LINK_STAT_WIDTH : Fld := ⟨PCIE_LINK_STAT, 7, 3⟩
def PCIE_LINK_STAT_FLIT : Fld := ⟨PCIE_LINK_STAT, 8, 8⟩
def PWR_BUS_A_OK : Fld := ⟨PWR_BUS, 0, 0⟩
def PWR_BUS_B_OK : Fld := ⟨PWR_BUS, 1, 1⟩
def PWR_BUS_MV_A_MV : Fld := ⟨PWR_BUS_MV, 15, 0⟩
def PWR_BUS_MV_B_MV : Fld := ⟨PWR_BUS_MV, 31, 16⟩
def PWR_PORCH_CONV_OK : Fld := ⟨PWR_PORCH_CONV, 7, 0⟩
def PWR_TIE_CLOSED_LO_CLOSED : Fld := ⟨PWR_TIE_CLOSED_LO, 31, 0⟩
def PWR_TIE_CLOSED_HI_CLOSED : Fld := ⟨PWR_TIE_CLOSED_HI, 15, 0⟩
def PWR_TRIP_SEEN : Fld := ⟨PWR_TRIP, 0, 0⟩
def PWR_TRIP_EXTERNAL : Fld := ⟨PWR_TRIP, 1, 1⟩
def PWR_TRIP_ROOM : Fld := ⟨PWR_TRIP, 14, 8⟩
def PWR_PHASE_STAT_HEALTHY : Fld := ⟨PWR_PHASE_STAT, 0, 0⟩
def PWR_PHASE_STAT_FAULT : Fld := ⟨PWR_PHASE_STAT, 3, 1⟩
def PWR_PHASE_STAT_AMPS : Fld := ⟨PWR_PHASE_STAT, 15, 8⟩
def PWR_ROOM_STAT_HEALTHY_PHASES : Fld := ⟨PWR_ROOM_STAT, 3, 0⟩
def PWR_ROOM_STAT_OP_LIMIT : Fld := ⟨PWR_ROOM_STAT, 6, 4⟩
def PWR_ROOM_STAT_TIED : Fld := ⟨PWR_ROOM_STAT, 7, 7⟩
def PWR_ROOM_STAT_CONV_FAIL : Fld := ⟨PWR_ROOM_STAT, 8, 8⟩
def PWR_ROOM_STAT_DARK : Fld := ⟨PWR_ROOM_STAT, 9, 9⟩
def PWR_ROOM_STAT_HB : Fld := ⟨PWR_ROOM_STAT, 10, 10⟩
def PWR_ROOM_STAT_DROOP_STRETCH : Fld := ⟨PWR_ROOM_STAT, 11, 11⟩
def PWR_ROOM_STAT_FORCED_STRETCH : Fld := ⟨PWR_ROOM_STAT, 12, 12⟩
def PWR_ROOM_STAT_FAILED : Fld := ⟨PWR_ROOM_STAT, 13, 13⟩
def PWR_ROOM_MV_TARGET_MV : Fld := ⟨PWR_ROOM_MV, 9, 0⟩
def PWR_ROOM_MV_DROOP_MIN_MV : Fld := ⟨PWR_ROOM_MV, 25, 16⟩
def PWR_ROOM_MV_KNOCK_MV : Fld := ⟨PWR_ROOM_MV, 30, 26⟩
def PWR_ROOM_AMPS_DECIAMPS : Fld := ⟨PWR_ROOM_AMPS, 15, 0⟩
def PWR_STRETCH_CYCLES_COUNT : Fld := ⟨PWR_STRETCH_CYCLES, 31, 0⟩
def CLK_REF_STAT_A_PRESENT : Fld := ⟨CLK_REF_STAT, 0, 0⟩
def CLK_REF_STAT_B_PRESENT : Fld := ⟨CLK_REF_STAT, 1, 1⟩
def CLK_REF_STAT_PORCH_SRC : Fld := ⟨CLK_REF_STAT, 2, 2⟩
def CLK_REF_STAT_BRIDLE_NOREF : Fld := ⟨CLK_REF_STAT, 3, 3⟩
def CLK_REF_STAT_CELLAR_XTAL : Fld := ⟨CLK_REF_STAT, 4, 4⟩
def CLK_REF_LOSSES_A : Fld := ⟨CLK_REF_LOSSES, 15, 0⟩
def CLK_REF_LOSSES_B : Fld := ⟨CLK_REF_LOSSES, 31, 16⟩
def CLK_ROOM_STAT_OP : Fld := ⟨CLK_ROOM_STAT, 2, 0⟩
def CLK_ROOM_STAT_OP_TARGET : Fld := ⟨CLK_ROOM_STAT, 5, 3⟩
def CLK_ROOM_STAT_SRC : Fld := ⟨CLK_ROOM_STAT, 7, 6⟩
def CLK_ROOM_STAT_HOLDOVER : Fld := ⟨CLK_ROOM_STAT, 8, 8⟩
def CLK_ROOM_STAT_SWITCHING : Fld := ⟨CLK_ROOM_STAT, 9, 9⟩
def CLK_ROOM_STAT_RELOCK : Fld := ⟨CLK_ROOM_STAT, 10, 10⟩
def CLK_ROOM_STAT_REF_CAPPED : Fld := ⟨CLK_ROOM_STAT, 11, 11⟩
def CLK_ROOM_STAT_SRC_COUNT : Fld := ⟨CLK_ROOM_STAT, 14, 12⟩
def CLK_ROOM_SRC_KIND : Fld := ⟨CLK_ROOM_SRC, 2, 0⟩
def CLK_ROOM_SRC_PRESENT : Fld := ⟨CLK_ROOM_SRC, 3, 3⟩
def CLK_ROOM_CHANGES_COUNT : Fld := ⟨CLK_ROOM_CHANGES, 31, 0⟩
def CLK_ROOM_STOP_NS_NS : Fld := ⟨CLK_ROOM_STOP_NS, 31, 0⟩
def CLK_ROOM_REFSW_SWITCHES : Fld := ⟨CLK_ROOM_REFSW, 15, 0⟩
def CLK_ROOM_REFSW_HOLDOVERS : Fld := ⟨CLK_ROOM_REFSW, 31, 16⟩
def REIN_CFG_POLICY : Fld := ⟨REIN_CFG, 0, 0⟩
def REIN_OP_CAP_W : Fld := ⟨REIN_OP_CAP, 13, 0⟩
def REIN_FAC_TARGET_W : Fld := ⟨REIN_FAC_TARGET, 13, 0⟩
def REIN_FAC_RAMP_WPS : Fld := ⟨REIN_FAC_RAMP, 12, 0⟩
def REIN_FAC_NOW_W : Fld := ⟨REIN_FAC_NOW, 13, 0⟩
def REIN_SHED_LEVEL_W : Fld := ⟨REIN_SHED_LEVEL, 13, 0⟩
def REIN_THERM_CAP_W : Fld := ⟨REIN_THERM_CAP, 13, 0⟩
def REIN_EFF_CAP_W : Fld := ⟨REIN_EFF_CAP, 13, 0⟩
def REIN_EFF_CAP_BINDING : Fld := ⟨REIN_EFF_CAP, 19, 16⟩
def REIN_RTH_UKW : Fld := ⟨REIN_RTH, 15, 0⟩
def REIN_RTH_INIT_UKW : Fld := ⟨REIN_RTH_INIT, 15, 0⟩
def REIN_INLET_S : Fld := ⟨REIN_INLET, 31, 0⟩
def REIN_TEMP_T_IN : Fld := ⟨REIN_TEMP, 7, 0⟩
def REIN_TEMP_TJ_MAX : Fld := ⟨REIN_TEMP, 15, 8⟩
def REIN_TEMP_TJ_ROOM : Fld := ⟨REIN_TEMP, 22, 16⟩
def REIN_FAN_DUTY : Fld := ⟨REIN_FAN, 6, 0⟩
def REIN_FAN_OK : Fld := ⟨REIN_FAN, 15, 8⟩
def REIN_FAN_TARGET : Fld := ⟨REIN_FAN, 23, 16⟩
def REIN_FAN_EXPECT_RPM_100 : Fld := ⟨REIN_FAN_EXPECT, 15, 0⟩
def REIN_FAN_RPM_RPM : Fld := ⟨REIN_FAN_RPM, 15, 0⟩
def REIN_THR_NS_LO_NS : Fld := ⟨REIN_THR_NS_LO, 31, 0⟩
def REIN_THR_NS_HI_NS : Fld := ⟨REIN_THR_NS_HI, 31, 0⟩
def REIN_ROOM_STAT_CEILING : Fld := ⟨REIN_ROOM_STAT, 2, 0⟩
def REIN_ROOM_STAT_ASSIGNED : Fld := ⟨REIN_ROOM_STAT, 5, 3⟩
def REIN_ROOM_STAT_PHASE : Fld := ⟨REIN_ROOM_STAT, 15, 8⟩
def REIN_ROOM_STAT_REASONS : Fld := ⟨REIN_ROOM_STAT, 26, 16⟩
def REIN_ROOM_STAT_SHED_STRETCH : Fld := ⟨REIN_ROOM_STAT, 27, 27⟩
def REIN_ROOM_STAT_THERM_CEIL : Fld := ⟨REIN_ROOM_STAT, 30, 28⟩
def REIN_ROOM_HIST_CW : Fld := ⟨REIN_ROOM_HIST, 15, 0⟩
def REIN_ROOM_LEAD_PART : Fld := ⟨REIN_ROOM_LEAD, 8, 0⟩
def REIN_ROOM_LEAD_NONE : Fld := ⟨REIN_ROOM_LEAD, 9, 9⟩
def MTR_STAT_RUNNING : Fld := ⟨MTR_STAT, 0, 0⟩
def MTR_STAT_CAL_OK : Fld := ⟨MTR_STAT, 1, 1⟩
def MTR_STAT_KEY_OK : Fld := ⟨MTR_STAT, 2, 2⟩
def MTR_STAT_HOLDUP_OK : Fld := ⟨MTR_STAT, 3, 3⟩
def MTR_CAL_ID_ID : Fld := ⟨MTR_CAL_ID, 31, 0⟩
def MTR_INPUT_MW_MW : Fld := ⟨MTR_INPUT_MW, 31, 0⟩
def MTR_TOTAL_MJ_LO_MJ : Fld := ⟨MTR_TOTAL_MJ_LO, 31, 0⟩
def MTR_TOTAL_MJ_HI_MJ : Fld := ⟨MTR_TOTAL_MJ_HI, 31, 0⟩
def MTR_OPER_MJ_LO_MJ : Fld := ⟨MTR_OPER_MJ_LO, 31, 0⟩
def MTR_OPER_MJ_HI_MJ : Fld := ⟨MTR_OPER_MJ_HI, 31, 0⟩
def MTR_SIGNED_LAST_S : Fld := ⟨MTR_SIGNED, 15, 0⟩
def MTR_SIGNED_BUDGET : Fld := ⟨MTR_SIGNED, 31, 16⟩
def MTR_ROLLUPS_COUNT : Fld := ⟨MTR_ROLLUPS, 31, 0⟩
def MTR_LEDGER_CTRL_DAY : Fld := ⟨MTR_LEDGER_CTRL, 17, 0⟩
def MTR_LEDGER_CTRL_RESEND : Fld := ⟨MTR_LEDGER_CTRL, 18, 18⟩
def MTR_LEDGER_RING_RRING : Fld := ⟨MTR_LEDGER_RING, 6, 0⟩
def MTR_LEDGER_RING_EN : Fld := ⟨MTR_LEDGER_RING, 7, 7⟩
def MTR_ROOM_MW_MW : Fld := ⟨MTR_ROOM_MW, 31, 0⟩
def MTR_COEF_FJ : Fld := ⟨MTR_COEF, 31, 0⟩
def TIME_MONO_LO_NS : Fld := ⟨TIME_MONO_LO, 31, 0⟩
def TIME_MONO_HI_NS : Fld := ⟨TIME_MONO_HI, 31, 0⟩
def TIME_TAI_LO_NS : Fld := ⟨TIME_TAI_LO, 31, 0⟩
def TIME_TAI_HI_NS : Fld := ⟨TIME_TAI_HI, 31, 0⟩
def TIME_UTC_OFFSET_S : Fld := ⟨TIME_UTC_OFFSET, 15, 0⟩
def TIME_NEXT_OFFSET_S : Fld := ⟨TIME_NEXT_OFFSET, 15, 0⟩
def TIME_NEXT_AT_LO_S : Fld := ⟨TIME_NEXT_AT_LO, 31, 0⟩
def TIME_NEXT_AT_HI_S : Fld := ⟨TIME_NEXT_AT_HI, 31, 0⟩
def TIME_SET_YMD_YEAR : Fld := ⟨TIME_SET_YMD, 15, 0⟩
def TIME_SET_YMD_MONTH : Fld := ⟨TIME_SET_YMD, 19, 16⟩
def TIME_SET_YMD_DAY : Fld := ⟨TIME_SET_YMD, 24, 20⟩
def TIME_SET_HMS_HOUR : Fld := ⟨TIME_SET_HMS, 4, 0⟩
def TIME_SET_HMS_MIN : Fld := ⟨TIME_SET_HMS, 10, 5⟩
def TIME_SET_HMS_SEC : Fld := ⟨TIME_SET_HMS, 16, 11⟩
def TIME_SET_NS_NS : Fld := ⟨TIME_SET_NS, 29, 0⟩
def TIME_SET_CTRL_GO : Fld := ⟨TIME_SET_CTRL, 0, 0⟩
def TIME_SET_CTRL_AT_PPS : Fld := ⟨TIME_SET_CTRL, 1, 1⟩
def TIME_STAT_SOURCE : Fld := ⟨TIME_STAT, 1, 0⟩
def TIME_STAT_SET : Fld := ⟨TIME_STAT, 2, 2⟩
def TIME_STAT_UNSYNCED : Fld := ⟨TIME_STAT, 3, 3⟩
def TIME_STAT_SLEWING : Fld := ⟨TIME_STAT, 4, 4⟩
def TIME_STAT_SET_STATUS : Fld := ⟨TIME_STAT, 10, 8⟩
def TIME_DISC_COUNT : Fld := ⟨TIME_DISC, 31, 0⟩
def TIME_SLEW_NS_NS : Fld := ⟨TIME_SLEW_NS, 31, 0⟩
def TIME_CFG_PTP_EN : Fld := ⟨TIME_CFG, 0, 0⟩
def TIME_CFG_PPS_EN : Fld := ⟨TIME_CFG, 1, 1⟩
def TIME_CFG_PPS_FALL : Fld := ⟨TIME_CFG, 2, 2⟩
def MTR_LEDGER_CFG_RRING : Fld := ⟨MTR_LEDGER_CFG, 6, 0⟩
def MTR_LEDGER_CFG_EN : Fld := ⟨MTR_LEDGER_CFG, 7, 7⟩
def MTR_PART_MW_MW : Fld := ⟨MTR_PART_MW, 31, 0⟩
def MTR_PART_DAY_MJ_LO_MJ : Fld := ⟨MTR_PART_DAY_MJ_LO, 31, 0⟩
def MTR_PART_DAY_MJ_HI_MJ : Fld := ⟨MTR_PART_DAY_MJ_HI, 31, 0⟩
def TACK_BRINGUP_STAGE : Fld := ⟨TACK_BRINGUP, 3, 0⟩
def TACK_BRINGUP_READY : Fld := ⟨TACK_BRINGUP, 4, 4⟩
def TACK_BRINGUP_SURVEY : Fld := ⟨TACK_BRINGUP, 5, 5⟩
def TACK_BRINGUP_WAKE : Fld := ⟨TACK_BRINGUP, 6, 6⟩
def TACK_BRINGUP_FAIL : Fld := ⟨TACK_BRINGUP, 11, 8⟩
def TACK_FW_STAT_SLOT : Fld := ⟨TACK_FW_STAT, 0, 0⟩
def TACK_FW_STAT_TRIAL : Fld := ⟨TACK_FW_STAT, 1, 1⟩
def TACK_FW_STAT_SVN_FUSE : Fld := ⟨TACK_FW_STAT, 8, 2⟩
def TACK_FW_STAT_STAGE_STATUS : Fld := ⟨TACK_FW_STAT, 12, 9⟩
def TACK_FW_CTRL_STAGE : Fld := ⟨TACK_FW_CTRL, 0, 0⟩
def TACK_FW_CTRL_ARM : Fld := ⟨TACK_FW_CTRL, 1, 1⟩
def TACK_FW_CTRL_CONFIRM : Fld := ⟨TACK_FW_CTRL, 2, 2⟩
def TACK_FW_SRC_LO_ADDR : Fld := ⟨TACK_FW_SRC_LO, 31, 0⟩
def TACK_FW_SRC_HI_ADDR : Fld := ⟨TACK_FW_SRC_HI, 31, 0⟩
def TACK_FW_ABI_SEL_ABI : Fld := ⟨TACK_FW_ABI_SEL, 31, 0⟩
def TACK_FW_ABI_RANGE_MIN : Fld := ⟨TACK_FW_ABI_RANGE, 15, 0⟩
def TACK_FW_ABI_RANGE_MAX : Fld := ⟨TACK_FW_ABI_RANGE, 31, 16⟩
def TACK_PF_RINGS_ALLOT : Fld := ⟨TACK_PF_RINGS, 7, 0⟩
def ID_LOT_LO_LOT : Fld := ⟨ID_LOT_LO, 31, 0⟩
def ID_LOT_HI_LOT : Fld := ⟨ID_LOT_HI, 31, 0⟩
def ID_UNIT_WAFER : Fld := ⟨ID_UNIT, 7, 0⟩
def ID_UNIT_ORDER : Fld := ⟨ID_UNIT, 8, 8⟩
def ID_UNIT_BANK : Fld := ⟨ID_UNIT, 9, 9⟩
def ID_MFG_DAY_DAY : Fld := ⟨ID_MFG_DAY, 31, 0⟩
def ID_REC_STAT_EVENTS : Fld := ⟨ID_REC_STAT, 12, 0⟩
def ID_REC_STAT_EFUSE_FREE : Fld := ⟨ID_REC_STAT, 27, 16⟩
def ID_REC_STAT_EFUSE_DIVERGED : Fld := ⟨ID_REC_STAT, 28, 28⟩
def ID_REC_STAT_EFUSE_FULL : Fld := ⟨ID_REC_STAT, 29, 29⟩
def ID_REC_STAT_VOTE : Fld := ⟨ID_REC_STAT, 31, 30⟩
def ID_EPOCH_EPOCH : Fld := ⟨ID_EPOCH, 15, 0⟩
def ID_CTRL_CONFIRM : Fld := ⟨ID_CTRL, 0, 0⟩
def ID_ROOM_SERIAL_SERIAL : Fld := ⟨ID_ROOM_SERIAL, 15, 0⟩
def ID_EVENT_EVENT : Fld := ⟨ID_EVENT, 31, 0⟩
def ERR_LOG_COUNT_COUNT : Fld := ⟨ERR_LOG_COUNT, 31, 0⟩
def ERR_LOG_SEL_SEQ : Fld := ⟨ERR_LOG_SEL, 31, 0⟩
def ERR_LOG_STAT_VALID : Fld := ⟨ERR_LOG_STAT, 0, 0⟩
def ERR_LOG_DATA_DATA : Fld := ⟨ERR_LOG_DATA, 31, 0⟩
def BLK_ID_INSTANCE : Fld := ⟨BLK_ID, 15, 0⟩
def BLK_ID_TYPE : Fld := ⟨BLK_ID, 31, 16⟩
def BLK_REV_MINOR : Fld := ⟨BLK_REV, 7, 0⟩
def BLK_REV_MAJOR : Fld := ⟨BLK_REV, 15, 8⟩
def BLK_CAP_LO_INSTANCES : Fld := ⟨BLK_CAP_LO, 15, 0⟩
def BLK_CAP_HI_CAP : Fld := ⟨BLK_CAP_HI, 31, 0⟩
def BLK_CTRL_ENABLE : Fld := ⟨BLK_CTRL, 0, 0⟩
def BLK_CTRL_SOFT_RESET : Fld := ⟨BLK_CTRL, 1, 1⟩
def BLK_CTRL_FREEZE : Fld := ⟨BLK_CTRL, 2, 2⟩
def BLK_STAT_ENABLED : Fld := ⟨BLK_STAT, 0, 0⟩
def BLK_STAT_RESET_BUSY : Fld := ⟨BLK_STAT, 1, 1⟩
def BLK_STAT_FROZEN : Fld := ⟨BLK_STAT, 2, 2⟩
def BLK_STAT_LOCKED : Fld := ⟨BLK_STAT, 3, 3⟩
def BLK_STAT_FAULT : Fld := ⟨BLK_STAT, 4, 4⟩
def EVT_EN_EN : Fld := ⟨EVT_EN, 31, 0⟩
def EVT_STAT_STAT : Fld := ⟨EVT_STAT, 31, 0⟩
def ERR_CE_CNT_COUNT : Fld := ⟨ERR_CE_CNT, 31, 0⟩
def ERR_UE_CNT_COUNT : Fld := ⟨ERR_UE_CNT, 31, 0⟩
def ERR_ADDR_LO_ADDR : Fld := ⟨ERR_ADDR_LO, 31, 0⟩
def ERR_ADDR_HI_ADDR : Fld := ⟨ERR_ADDR_HI, 31, 0⟩
def CFG_LOCK_LOCK : Fld := ⟨CFG_LOCK, 0, 0⟩
def OWNER_OWNER : Fld := ⟨OWNER, 9, 0⟩
def GLB_POWER_STATE_REQ : Fld := ⟨GLB_POWER_STATE, 1, 0⟩
def GLB_POWER_STATE_STATE : Fld := ⟨GLB_POWER_STATE, 5, 4⟩
def GLB_POWER_STATE_CHANGING : Fld := ⟨GLB_POWER_STATE, 6, 6⟩
def GLB_POWER_STATE_REQ_STATUS : Fld := ⟨GLB_POWER_STATE, 9, 8⟩
def GLB_STAT_READY : Fld := ⟨GLB_STAT, 0, 0⟩
def GLB_STAT_SHARED : Fld := ⟨GLB_STAT, 1, 1⟩
def GLB_STAT_PARTITIONS : Fld := ⟨GLB_STAT, 11, 2⟩
def GLB_STAT_ANY_STOPPED : Fld := ⟨GLB_STAT, 12, 12⟩
def GLB_STAT_ANY_SHORTFALL : Fld := ⟨GLB_STAT, 13, 13⟩
def GLB_WAKE_US_US : Fld := ⟨GLB_WAKE_US, 31, 0⟩
def ROOM_STAT_PHYS_X : Fld := ⟨ROOM_STAT, 3, 0⟩
def ROOM_STAT_PHYS_Y : Fld := ⟨ROOM_STAT, 7, 4⟩
def ROOM_STAT_BACKS : Fld := ⟨ROOM_STAT, 8, 8⟩
def ROOM_STAT_LOGICAL : Fld := ⟨ROOM_STAT, 15, 9⟩
def ROOM_STAT_STATE : Fld := ⟨ROOM_STAT, 17, 16⟩
def ROOM_TILE_PART_PART : Fld := ⟨ROOM_TILE_PART, 8, 0⟩
def ROOM_TILE_PART_ASSIGNED : Fld := ⟨ROOM_TILE_PART, 9, 9⟩
def ROOM_TILE_PART_ZEROISING : Fld := ⟨ROOM_TILE_PART, 10, 10⟩
def PRCH_SIDE_CELL_TRAINED : Fld := ⟨PRCH_SIDE_CELL, 23, 0⟩
def PRCH_SIDE_PORTS_UP : Fld := ⟨PRCH_SIDE_PORTS, 23, 0⟩
def PRCH_SIDE_HEAT_LEVEL : Fld := ⟨PRCH_SIDE_HEAT, 11, 0⟩
def PRCH_SIDE_POWER_CONV_OK : Fld := ⟨PRCH_SIDE_POWER, 1, 0⟩
def PRCH_SIDE_POWER_DOWN : Fld := ⟨PRCH_SIDE_POWER, 2, 2⟩

end F

open RG

/-- R536: the registers of the first 64 bytes, on every page. -/
def commonRows : List RegRow := [
  ⟨BLK_ID, 0x0, 0x0, 0x0, 0x0⟩,
  ⟨BLK_REV, 0x0, 0x0, 0x0, 0x100⟩,
  ⟨BLK_CAP_LO, 0x0, 0x0, 0x0, 0x0⟩,
  ⟨BLK_CAP_HI, 0x0, 0x0, 0x0, 0x0⟩,
  ⟨BLK_CTRL, 0x5, 0x0, 0x0, 0x1⟩,
  ⟨BLK_STAT, 0x0, 0x0, 0x0, 0x1⟩,
  ⟨EVT_EN, 0xffffffff, 0x0, 0x0, 0xffffffff⟩,
  ⟨EVT_STAT, 0x0, 0x0, 0xffffffff, 0x0⟩,
  ⟨ERR_CE_CNT, 0x0, 0x0, 0x0, 0x0⟩,
  ⟨ERR_UE_CNT, 0x0, 0x0, 0x0, 0x0⟩,
  ⟨ERR_ADDR_LO, 0x0, 0x0, 0x0, 0x0⟩,
  ⟨ERR_ADDR_HI, 0x0, 0x0, 0x0, 0x0⟩,
  ⟨CFG_LOCK, 0x0, 0x1, 0x0, 0x0⟩,
  ⟨OWNER, 0x0, 0x0, 0x0, 0x3ff⟩]

/-- Registers of the pages of type 0x0001 (R542). -/
def rowsOf1 : List RegRow := [
  ⟨GLB_POWER_STATE, 0x3, 0x0, 0x0, 0x0⟩,
  ⟨GLB_STAT, 0x0, 0x0, 0x0, 0x0⟩,
  ⟨GLB_WAKE_US, 0x0, 0x0, 0x0, 0x0⟩]

/-- Registers of the pages of type 0x0002 (R542). -/
def rowsOf2 : List RegRow := [
  ⟨GLB_ROOM_MAP, 0x0, 0x0, 0x0, 0x0⟩,
  ⟨GLB_SPARE_ROOM_STAT, 0x0, 0x0, 0x0, 0x0⟩]

/-- Registers of the pages of type 0x0003 (R542). -/
def rowsOf3 : List RegRow := [
  ⟨HALL_CFG, 0x3, 0x0, 0x0, 0x2⟩,
  ⟨HALL_HOLE, 0x0, 0x0, 0x0, 0x0⟩]

/-- Registers of the pages of type 0x0004 (R542). -/
def rowsOf4 : List RegRow := [
  ⟨TACK_HKEY, 0x0, 0xffffffff, 0x0, 0x0⟩,
  ⟨TACK_HKEY_VALID, 0x0, 0xffff, 0x0, 0x0⟩]

/-- Registers of the pages of type 0x0005 (R542). -/
def rowsOf5 : List RegRow := [
  ⟨PWR_BUS, 0x0, 0x0, 0x0, 0x0⟩,
  ⟨PWR_BUS_MV, 0x0, 0x0, 0x0, 0x0⟩,
  ⟨PWR_PORCH_CONV, 0x0, 0x0, 0x0, 0x0⟩,
  ⟨PWR_TIE_CLOSED_LO, 0x0, 0x0, 0x0, 0x0⟩,
  ⟨PWR_TIE_CLOSED_HI, 0x0, 0x0, 0x0, 0x0⟩,
  ⟨PWR_TRIP, 0x0, 0x0, 0x0, 0x0⟩]

/-- Registers of the pages of type 0x0006 (R542). -/
def rowsOf6 : List RegRow := [
  ⟨CLK_REF_STAT, 0x0, 0x0, 0x0, 0x0⟩,
  ⟨CLK_REF_LOSSES, 0x0, 0x0, 0x0, 0x0⟩]

/-- Registers of the pages of type 0x0007 (R542). -/
def rowsOf7 : List RegRow := [
  ⟨REIN_CFG, 0x1, 0x0, 0x0, 0x0⟩,
  ⟨REIN_OP_CAP, 0x3fff, 0x0, 0x0, 0x251c⟩,
  ⟨REIN_FAC_TARGET, 0x3fff, 0x0, 0x0, 0x2710⟩,
  ⟨REIN_FAC_RAMP, 0x1fff, 0x0, 0x0, 0x3e8⟩,
  ⟨REIN_FAC_NOW, 0x0, 0x0, 0x0, 0x2710⟩,
  ⟨REIN_SHED_LEVEL, 0x0, 0x3fff, 0x0, 0xbb8⟩,
  ⟨REIN_THERM_CAP, 0x0, 0x0, 0x0, 0x3fff⟩,
  ⟨REIN_EFF_CAP, 0x0, 0x0, 0x0, 0x251c⟩,
  ⟨REIN_RTH, 0x0, 0x0, 0x0, 0x157c⟩,
  ⟨REIN_RTH_INIT, 0xffff, 0x0, 0x0, 0x157c⟩,
  ⟨REIN_INLET, 0x0, 0x0, 0x0, 0x80808080⟩,
  ⟨REIN_TEMP, 0x0, 0x0, 0x0, 0x0⟩,
  ⟨REIN_FAN, 0xff0000, 0x0, 0x0, 0x500064⟩,
  ⟨REIN_FAN_EXPECT, 0xffff, 0x0, 0x0, 0x2ee0⟩,
  ⟨REIN_FAN_RPM, 0x0, 0x0, 0x0, 0x0⟩,
  ⟨REIN_THR_NS_LO, 0x0, 0x0, 0x0, 0x0⟩,
  ⟨REIN_THR_NS_HI, 0x0, 0x0, 0x0, 0x0⟩]

/-- Registers of the pages of type 0x0008 (R542). -/
def rowsOf8 : List RegRow := [
  ⟨TACK_BRINGUP, 0x0, 0x0, 0x0, 0x1⟩,
  ⟨TACK_FW_STAT, 0x0, 0x0, 0x0, 0x0⟩,
  ⟨TACK_FW_CTRL, 0x0, 0x0, 0x0, 0x0⟩,
  ⟨TACK_FW_SRC_LO, 0xffffffff, 0x0, 0x0, 0x0⟩,
  ⟨TACK_FW_SRC_HI, 0xffffffff, 0x0, 0x0, 0x0⟩,
  ⟨TACK_FW_ABI_SEL, 0xffffffff, 0x0, 0x0, 0x0⟩,
  ⟨TACK_FW_ABI_RANGE, 0x0, 0x0, 0x0, 0x0⟩,
  ⟨TACK_PF_RINGS, 0xff, 0x0, 0x0, 0x0⟩]

/-- Registers of the pages of type 0x0009 (R542). -/
def rowsOf9 : List RegRow := [
  ⟨ID_LOT_LO, 0x0, 0x0, 0x0, 0x0⟩,
  ⟨ID_LOT_HI, 0x0, 0x0, 0x0, 0x0⟩,
  ⟨ID_UNIT, 0x0, 0x0, 0x0, 0x0⟩,
  ⟨ID_MFG_DAY, 0x0, 0x0, 0x0, 0x0⟩,
  ⟨ID_REC_STAT, 0x0, 0x0, 0x0, 0x0⟩,
  ⟨ID_EPOCH, 0x0, 0x0, 0x0, 0x0⟩,
  ⟨ID_CTRL, 0x0, 0x0, 0x0, 0x0⟩,
  ⟨ID_ROOM_SERIAL, 0x0, 0x0, 0x0, 0x0⟩,
  ⟨ID_EVENT, 0x0, 0x0, 0x0, 0x0⟩]

/-- Registers of the pages of type 0x000a (R542). -/
def rowsOfa : List RegRow := [
  ⟨ERR_LOG_COUNT, 0x0, 0x0, 0x0, 0x0⟩,
  ⟨ERR_LOG_SEL, 0xffffffff, 0x0, 0x0, 0x0⟩,
  ⟨ERR_LOG_STAT, 0x0, 0x0, 0x0, 0x0⟩,
  ⟨ERR_LOG_DATA, 0x0, 0x0, 0x0, 0x0⟩]

/-- Registers of the pages of type 0x0010 (R542). R135 lists ROOM_STITCH_INJ[30:26] as reserved with access RW, where R6 has
reserved bits read 0 and ignore writes: the bits follow R6. (Log 151: DESIGN CHOICE.) -/
def rowsOf10 : List RegRow := [
  ⟨ROOM_TILE_MAP, 0x0, 0x0, 0x0, 0x0⟩,
  ⟨ROOM_TILE_RETIRED_LO, 0x0, 0x0, 0x0, 0x0⟩,
  ⟨ROOM_TILE_RETIRED_HI, 0x0, 0x0, 0x0, 0x0⟩,
  ⟨ROOM_STITCH_LAST, 0x0, 0x0, 0x0, 0x0⟩,
  ⟨ROOM_STITCH_LAST_STEP, 0x0, 0x0, 0x0, 0x0⟩,
  ⟨ROOM_STITCH_FAILS, 0x0, 0x0, 0x0, 0x0⟩,
  ⟨ROOM_STITCH_STRIKES, 0x0, 0x0, 0x0, 0x0⟩,
  ⟨ROOM_STITCH_INJ, 0x83ffffff, 0x0, 0x0, 0x0⟩,
  ⟨ROOM_STAT, 0x0, 0x0, 0x0, 0x0⟩,
  ⟨ROOM_TILE_PART, 0x0, 0x0, 0x0, 0x0⟩]

/-- Registers of the pages of type 0x0011 (R542). -/
def rowsOf11 : List RegRow := [
  ⟨PWR_PHASE_STAT, 0x0, 0x0, 0x0, 0x0⟩,
  ⟨PWR_ROOM_STAT, 0x0, 0x0, 0x0, 0x0⟩,
  ⟨PWR_ROOM_MV, 0x0, 0x0, 0x0, 0x0⟩,
  ⟨PWR_ROOM_AMPS, 0x0, 0x0, 0x0, 0x0⟩,
  ⟨PWR_STRETCH_CYCLES, 0x0, 0x0, 0x0, 0x0⟩]

/-- Registers of the pages of type 0x0012 (R542). -/
def rowsOf12 : List RegRow := [
  ⟨CLK_ROOM_STAT, 0x0, 0x0, 0x0, 0x0⟩,
  ⟨CLK_ROOM_SRC, 0x0, 0x0, 0x0, 0x0⟩,
  ⟨CLK_ROOM_CHANGES, 0x0, 0x0, 0x0, 0x0⟩,
  ⟨CLK_ROOM_STOP_NS, 0x0, 0x0, 0x0, 0x0⟩,
  ⟨CLK_ROOM_REFSW, 0x0, 0x0, 0x0, 0x0⟩]

/-- Registers of the pages of type 0x0013 (R542). -/
def rowsOf13 : List RegRow := [
  ⟨REIN_ROOM_STAT, 0x0, 0x0, 0x0, 0x40000000⟩,
  ⟨REIN_ROOM_HIST, 0x0, 0x0, 0x0, 0x0⟩,
  ⟨REIN_ROOM_LEAD, 0x0, 0x0, 0x0, 0x200⟩]

/-- Registers of the pages of type 0x0020 (R542). -/
def rowsOf20 : List RegRow := [
  ⟨HALL_SLOT, 0x3ff, 0x0, 0x0, 0x0⟩]

/-- Registers of the pages of type 0x0021 (R542). -/
def rowsOf21 : List RegRow := [
  ⟨LARD_LAYOUT, 0x0, 0x0, 0x0, 0x0⟩,
  ⟨LARD_SLICES, 0x0, 0x0, 0x0, 0x0⟩,
  ⟨LARD_CACHE_WIN, 0x0, 0x0, 0x0, 0x0⟩]

/-- Registers of the pages of type 0x0022 (R542). -/
def rowsOf22 : List RegRow := [
  ⟨CELL_PART_CFG, 0x0, 0x1, 0x0, 0x0⟩,
  ⟨CELL_STACK_BASE, 0x0, 0x0, 0x0, 0x0⟩,
  ⟨CELL_PART_CAP, 0x0, 0x0, 0x0, 0x0⟩]

/-- Registers of the pages of type 0x0023 (R542). -/
def rowsOf23 : List RegRow := [
  ⟨HALL_GEN, 0x0, 0x0, 0x0, 0x0⟩,
  ⟨HALL_GEN_DROPS, 0x0, 0x0, 0x0, 0x0⟩,
  ⟨HALL_MIGR, 0x0, 0x0, 0x0, 0x0⟩,
  ⟨HALL_LANES, 0x0, 0x0, 0x0, 0x0⟩]

/-- Registers of the pages of type 0x0024 (R542). -/
def rowsOf24 : List RegRow := [
  ⟨TACK_HARN_STAT, 0x0, 0x0, 0x0, 0x0⟩,
  ⟨TACK_HARN_LOAD_STATUS, 0x0, 0x0, 0x0, 0x0⟩,
  ⟨TACK_HARN_VERSION_LO, 0x0, 0x0, 0x0, 0x0⟩,
  ⟨TACK_HARN_VERSION_HI, 0x0, 0x0, 0x0, 0x0⟩,
  ⟨TACK_HARN_DIGEST, 0x0, 0x0, 0x0, 0x0⟩,
  ⟨TACK_HARN_SEED_LO, 0x0, 0x0, 0x0, 0x0⟩,
  ⟨TACK_HARN_SEED_HI, 0x0, 0x0, 0x0, 0x0⟩]

/-- Registers of the pages of type 0x0025 (R542). -/
def rowsOf25 : List RegRow := [
  ⟨BRDL_XG_CFG, 0x0, 0x3ff07ff, 0x0, 0x1⟩,
  ⟨BRDL_XG_TIMEOUT, 0x0, 0xffff, 0x0, 0x2710⟩,
  ⟨BRDL_XG_VOTE, 0x0, 0x0, 0x0, 0x0⟩,
  ⟨BRDL_XG_STEP_LO, 0x0, 0x0, 0x0, 0x0⟩,
  ⟨BRDL_XG_STEP_HI, 0x0, 0x0, 0x0, 0x0⟩,
  ⟨BRDL_XG_DISCARDS, 0x0, 0x0, 0x0, 0x0⟩,
  ⟨BRDL_XG_COUNTS, 0x0, 0x0, 0x0, 0x0⟩,
  ⟨BRDL_XG_NODE, 0x0, 0xffffffff, 0x0, 0x0⟩,
  ⟨BRDL_LAST_REFUSAL, 0x0, 0x0, 0x0, 0x0⟩,
  ⟨BRDL_LAST_REFUSAL_OFF_LO, 0x0, 0x0, 0x0, 0x0⟩,
  ⟨BRDL_LAST_REFUSAL_OFF_HI, 0x0, 0x0, 0x0, 0x0⟩]

/-- Registers of the pages of type 0x0026 (R542). -/
def rowsOf26 : List RegRow := [
  ⟨TACK_JRNL_CFG, 0xf, 0x0, 0x0, 0x8⟩,
  ⟨TACK_JRNL_AREA, 0x0, 0x7fff7fff, 0x0, 0x0⟩,
  ⟨TACK_CKPT_AREA, 0x0, 0x7fff7fff, 0x0, 0x0⟩,
  ⟨TACK_JRNL_WRITE_LO, 0x0, 0x0, 0x0, 0x0⟩,
  ⟨TACK_JRNL_WRITE_HI, 0x0, 0x0, 0x0, 0x0⟩,
  ⟨TACK_JRNL_FLOOR_LO, 0xffffffff, 0x0, 0x0, 0x0⟩,
  ⟨TACK_JRNL_FLOOR_HI, 0xffffffff, 0x0, 0x0, 0x0⟩,
  ⟨TACK_JRNL_STAT, 0x0, 0x0, 0x0, 0x0⟩,
  ⟨TACK_CKPT_STAT, 0x0, 0x0, 0x0, 0x0⟩,
  ⟨TACK_CKPT_STEP0_LO, 0x0, 0x0, 0x0, 0x0⟩,
  ⟨TACK_CKPT_STEP0_HI, 0x0, 0x0, 0x0, 0x0⟩,
  ⟨TACK_CKPT_STEP1_LO, 0x0, 0x0, 0x0, 0x0⟩,
  ⟨TACK_CKPT_STEP1_HI, 0x0, 0x0, 0x0, 0x0⟩,
  ⟨TACK_SNAP_STAT, 0x0, 0x0, 0x0, 0x0⟩]

/-- Registers of the pages of type 0x0027 (R542). -/
def rowsOf27 : List RegRow := [
  ⟨TACK_PART_CTRL, 0x0, 0x0, 0x0, 0x0⟩,
  ⟨TACK_PART_CELL, 0x7fff7fff, 0x0, 0x0, 0x0⟩,
  ⟨TACK_PART_RINGS, 0xff, 0x0, 0x0, 0x0⟩,
  ⟨TACK_PART_GUAR, 0xffff, 0x0, 0x0, 0x0⟩,
  ⟨TACK_PART_HWIN_LO, 0x0, 0xffffffff, 0x0, 0x0⟩,
  ⟨TACK_PART_HWIN_HI, 0x0, 0xffffffff, 0x0, 0x0⟩,
  ⟨TACK_PART_HWIN_LEN, 0x0, 0xffffffff, 0x0, 0x0⟩,
  ⟨TACK_PART_TILES, 0xffffffff, 0x0, 0x0, 0x0⟩,
  ⟨TACK_PART_NEW_TILES, 0xffffffff, 0x0, 0x0, 0x0⟩]

/-- Registers of the pages of type 0x0030 (R542). -/
def rowsOf30 : List RegRow := [
  ⟨CELL_TEMP, 0x0, 0x0, 0x0, 0x0⟩,
  ⟨CELL_STAT, 0x0, 0x0, 0x0, 0x0⟩]

/-- Registers of the pages of type 0x0031 (R542). -/
def rowsOf31 : List RegRow := [
  ⟨BRDL_PORT_STAT, 0x0, 0x0, 0x0, 0x0⟩,
  ⟨BRDL_PORT_RETRAINS, 0x0, 0x0, 0x0, 0x0⟩,
  ⟨BRDL_PORT_FEC_UNCORR, 0x0, 0x0, 0x0, 0x0⟩,
  ⟨BRDL_PORT_REPLAYS, 0x0, 0x0, 0x0, 0x0⟩,
  ⟨BRDL_PORT_SLOT, 0x3ff, 0x0, 0x0, 0x0⟩]

/-- Registers of the pages of type 0x0032 (R542). -/
def rowsOf32 : List RegRow := [
  ⟨BRDL_NODE, 0x0, 0xfff, 0x0, 0x0⟩,
  ⟨BRDL_CHARTER_RANGE, 0x0, 0x8fff0fff, 0x0, 0x0⟩,
  ⟨BRDL_CHARTER_OPS, 0x0, 0x3f, 0x0, 0x0⟩,
  ⟨BRDL_CHARTER_RATE, 0x0, 0x1ff, 0x0, 0x190⟩,
  ⟨BRDL_PTP, 0xffff, 0x0, 0x0, 0x0⟩,
  ⟨BRDL_PART_ALLOT, 0xffff, 0x0, 0x0, 0x0⟩]

/-- Registers of the pages of type 0x0033 (R542). -/
def rowsOf33 : List RegRow := [
  ⟨PCIE_SLOT, 0x3ff03ff, 0x0, 0x0, 0x0⟩,
  ⟨PCIE_LINK_STAT, 0x0, 0x0, 0x0, 0x0⟩]

/-- Registers of the pages of type 0x0034 (R542). -/
def rowsOf34 : List RegRow := [
  ⟨PRCH_CELL_SLOT, 0x3ff03ff, 0x0, 0x0, 0x0⟩]

/-- Registers of the pages of type 0x0035 (R542). -/
def rowsOf35 : List RegRow := [
  ⟨BRDL_RGN_CTRL, 0x1ff003f, 0x0, 0x0, 0x0⟩,
  ⟨BRDL_RGN_BASE, 0xfffffff, 0x0, 0x0, 0x0⟩,
  ⟨BRDL_RGN_LEN, 0xfffffff, 0x0, 0x0, 0x0⟩,
  ⟨BRDL_RGN_TARGET, 0xfffffff, 0x0, 0x0, 0x0⟩,
  ⟨BRDL_RGN_READERS, 0xfff0fff, 0x0, 0x0, 0x0⟩,
  ⟨BRDL_RGN_OWNER, 0xfff, 0x0, 0x0, 0x0⟩]

/-- Registers of the pages of type 0x0036 (R542). -/
def rowsOf36 : List RegRow := [
  ⟨PRCH_SIDE_CELL, 0x0, 0x0, 0x0, 0x0⟩,
  ⟨PRCH_SIDE_PORTS, 0x0, 0x0, 0x0, 0x0⟩,
  ⟨PRCH_SIDE_HEAT, 0x0, 0x0, 0x0, 0x0⟩,
  ⟨PRCH_SIDE_POWER, 0x0, 0x0, 0x0, 0x0⟩]

/-- Registers of the pages of type 0x0040 (R542). -/
def rowsOf40 : List RegRow := [
  ⟨MTR_STAT, 0x0, 0x0, 0x0, 0x0⟩,
  ⟨MTR_CAL_ID, 0x0, 0x0, 0x0, 0x0⟩,
  ⟨MTR_INPUT_MW, 0x0, 0x0, 0x0, 0x0⟩,
  ⟨MTR_TOTAL_MJ_LO, 0x0, 0x0, 0x0, 0x0⟩,
  ⟨MTR_TOTAL_MJ_HI, 0x0, 0x0, 0x0, 0x0⟩,
  ⟨MTR_OPER_MJ_LO, 0x0, 0x0, 0x0, 0x0⟩,
  ⟨MTR_OPER_MJ_HI, 0x0, 0x0, 0x0, 0x0⟩,
  ⟨MTR_SIGNED, 0x0, 0x0, 0x0, 0x7d00000⟩,
  ⟨MTR_ROLLUPS, 0x0, 0x0, 0x0, 0x0⟩,
  ⟨MTR_LEDGER_CTRL, 0x3ffff, 0x0, 0x0, 0x0⟩,
  ⟨MTR_LEDGER_RING, 0xff, 0x0, 0x0, 0x0⟩,
  ⟨MTR_ROOM_MW, 0x0, 0x0, 0x0, 0x0⟩,
  ⟨MTR_COEF, 0x0, 0x0, 0x0, 0x0⟩]

/-- Registers of the pages of type 0x0041 (R542). -/
def rowsOf41 : List RegRow := [
  ⟨TIME_MONO_LO, 0x0, 0x0, 0x0, 0x0⟩,
  ⟨TIME_MONO_HI, 0x0, 0x0, 0x0, 0x0⟩,
  ⟨TIME_TAI_LO, 0x0, 0x0, 0x0, 0x0⟩,
  ⟨TIME_TAI_HI, 0x0, 0x0, 0x0, 0x0⟩,
  ⟨TIME_UTC_OFFSET, 0xffff, 0x0, 0x0, 0x25⟩,
  ⟨TIME_NEXT_OFFSET, 0xffff, 0x0, 0x0, 0x0⟩,
  ⟨TIME_NEXT_AT_LO, 0xffffffff, 0x0, 0x0, 0x0⟩,
  ⟨TIME_NEXT_AT_HI, 0xffffffff, 0x0, 0x0, 0x0⟩,
  ⟨TIME_SET_YMD, 0x1ffffff, 0x0, 0x0, 0x1107d0⟩,
  ⟨TIME_SET_HMS, 0x1ffff, 0x0, 0x0, 0x0⟩,
  ⟨TIME_SET_NS, 0x3fffffff, 0x0, 0x0, 0x0⟩,
  ⟨TIME_SET_CTRL, 0x0, 0x0, 0x0, 0x0⟩,
  ⟨TIME_STAT, 0x0, 0x0, 0x0, 0x8⟩,
  ⟨TIME_DISC, 0x0, 0x0, 0x0, 0x0⟩,
  ⟨TIME_SLEW_NS, 0x0, 0x0, 0x0, 0x0⟩,
  ⟨TIME_CFG, 0x7, 0x0, 0x0, 0x1⟩]

/-- Registers of the pages of type 0x0042 (R542). -/
def rowsOf42 : List RegRow := [
  ⟨MTR_CERT_LEN, 0x0, 0x0, 0x0, 0x0⟩,
  ⟨MTR_CERT_DATA, 0x0, 0x0, 0x0, 0x0⟩]

/-- Registers of the pages of type 0x0050 (R542). -/
def rowsOf50 : List RegRow := [
  ⟨RING_DB, 0x0, 0x0, 0x0, 0x0⟩]

/-- Registers of the pages of type 0x0051 (R542). -/
def rowsOf51 : List RegRow := [
  ⟨RING_EVT_BASE_LO, 0xffffffff, 0x0, 0x0, 0x0⟩,
  ⟨RING_EVT_BASE_HI, 0xffffffff, 0x0, 0x0, 0x0⟩,
  ⟨RING_EVT_CFG, 0x80003f1f, 0x0, 0x0, 0x4⟩,
  ⟨RING_EVT_HEAD, 0xffff, 0x0, 0x0, 0x0⟩,
  ⟨RING_EVT_TAIL, 0x0, 0x0, 0x0, 0x0⟩,
  ⟨RING_EVT_LOST, 0x0, 0x0, 0x0, 0x0⟩]

/-- Registers of the pages of type 0x0052 (R542). -/
def rowsOf52 : List RegRow := [
  ⟨TACK_PART_STAT, 0x0, 0x0, 0x0, 0x0⟩,
  ⟨MTR_LEDGER_CFG, 0xff, 0x0, 0x0, 0x0⟩,
  ⟨MTR_PART_MW, 0x0, 0x0, 0x0, 0x0⟩,
  ⟨MTR_PART_DAY_MJ_LO, 0x0, 0x0, 0x0, 0x0⟩,
  ⟨MTR_PART_DAY_MJ_HI, 0x0, 0x0, 0x0, 0x0⟩,
  ⟨VF_CERT_LEN, 0x0, 0x0, 0x0, 0x0⟩,
  ⟨VF_CERT_DATA, 0x0, 0x0, 0x0, 0x0⟩]

/-- Registers of the pages of type 0x0053 (R542). -/
def rowsOf53 : List RegRow := [
  ⟨TACK_CKEY, 0x0, 0xffffffff, 0x0, 0x0⟩,
  ⟨TACK_CKEY_VALID, 0x0, 0xf, 0x0, 0x0⟩]

/-- Registers of the pages of type 0x0054 (R542). -/
def rowsOf54 : List RegRow := [
  ⟨RING_CTX_BASE_LO, 0xffffffff, 0x0, 0x0, 0x0⟩,
  ⟨RING_CTX_BASE_HI, 0xffffffff, 0x0, 0x0, 0x0⟩,
  ⟨RING_CTX_CFG, 0x80001f7f, 0x0, 0x0, 0x4⟩,
  ⟨RING_CTX_PTR, 0x0, 0x0, 0x0, 0x0⟩,
  ⟨RING_CTX_SEQ_LO, 0xffffffff, 0x0, 0x0, 0x0⟩,
  ⟨RING_CTX_SEQ_HI, 0xffffffff, 0x0, 0x0, 0x0⟩,
  ⟨RING_CTX_ARB, 0xf7, 0x0, 0x0, 0x10⟩]

/-- The block-specific registers of a page type. -/
def typeRows (typ : Nat) : List RegRow :=
  match typ with
  | 0x1 => rowsOf1
  | 0x2 => rowsOf2
  | 0x3 => rowsOf3
  | 0x4 => rowsOf4
  | 0x5 => rowsOf5
  | 0x6 => rowsOf6
  | 0x7 => rowsOf7
  | 0x8 => rowsOf8
  | 0x9 => rowsOf9
  | 0xa => rowsOfa
  | 0x10 => rowsOf10
  | 0x11 => rowsOf11
  | 0x12 => rowsOf12
  | 0x13 => rowsOf13
  | 0x20 => rowsOf20
  | 0x21 => rowsOf21
  | 0x22 => rowsOf22
  | 0x23 => rowsOf23
  | 0x24 => rowsOf24
  | 0x25 => rowsOf25
  | 0x26 => rowsOf26
  | 0x27 => rowsOf27
  | 0x30 => rowsOf30
  | 0x31 => rowsOf31
  | 0x32 => rowsOf32
  | 0x33 => rowsOf33
  | 0x34 => rowsOf34
  | 0x35 => rowsOf35
  | 0x36 => rowsOf36
  | 0x40 => rowsOf40
  | 0x41 => rowsOf41
  | 0x42 => rowsOf42
  | 0x50 => rowsOf50
  | 0x51 => rowsOf51
  | 0x52 => rowsOf52
  | 0x53 => rowsOf53
  | 0x54 => rowsOf54
  | _ => []

end Sys2Proof.Machine
end

