-- ==== Sys2Proof/Machine/Flags.lean ====
section
/-! DEFINITION. Status codes (R528), event codes (R529), votes (R85, R304), error kinds (R526) and the flag and mark
computations shared by the meanings. -/

namespace Sys2Proof.Machine
open Sys2Proof

/-! ### Status codes (R528) -/
namespace St
def OK : Nat := 0x0000
def ADDR_FAULT : Nat := 0x0001
def FORMAT_FAULT : Nat := 0x0002
def OP_FAULT : Nat := 0x0003
def SHAPE_FAULT : Nat := 0x0004
def SEGMENT_TOO_LONG : Nat := 0x0005
def IMAGE_FAULT : Nat := 0x0101
def ABI_UNSUPPORTED : Nat := 0x0102
def FW_ABI_LOW : Nat := 0x0103
def FOOTPRINT_MISMATCH : Nat := 0x0104
def MODE_MISMATCH : Nat := 0x0105
def SIG_FAULT : Nat := 0x0106
def DIGEST_MISMATCH : Nat := 0x0107
def STAGING_SHORT : Nat := 0x0108
def CURRIER_UNAVAILABLE : Nat := 0x0109
def CURRIER_SCRATCH : Nat := 0x010A
def EXCHANGE_SIZE : Nat := 0x010B
def HALL_NO_SLOTS : Nat := 0x010C
def STACK_VIEW_RANGE : Nat := 0x010D
def COMBINE_ORDER : Nat := 0x010E
def JOURNAL_RANGE : Nat := 0x010F
def ATOMIC_ORDER : Nat := 0x0110
def DATA_UE : Nat := 0x0201
def LINK_LOST : Nat := 0x0202
def ATOMIC_SPACE : Nat := 0x0203
def REDUCE_FAULT : Nat := 0x0204
def NO_VARIANT : Nat := 0x0205
def EXCHANGE_STALL : Nat := 0x0206
def TILE_LOST : Nat := 0x0207
def ROOM_SHORT : Nat := 0x0208
def ROOM_DARK : Nat := 0x0209
def PORCH_POWER : Nat := 0x020A
def HALL_LINK_DOWN : Nat := 0x020B
def METER_FAULT : Nat := 0x020C
def NO_REGION : Nat := 0x0302
def ACCESS : Nat := 0x0303
def NOT_OWNER : Nat := 0x0304
def ATOMIC_NOT_IN_SERVICE : Nat := 0x0305
def CHARTER : Nat := 0x0306
def CKPT_SPACE : Nat := 0x0401
def CKPT_DATA_UE : Nat := 0x0402
def CKPT_NONE : Nat := 0x0403
def CKPT_STALE : Nat := 0x0404
def CKPT_DIGEST : Nat := 0x0405
def HARNESS_MISMATCH : Nat := 0x0406
def REPLAY_RANGE : Nat := 0x0407
def JOURNAL_GAP : Nat := 0x0408
def SNAPSHOT_BUSY : Nat := 0x0409
def PARTITION_BUSY : Nat := 0x0501
def SEQ_FAULT : Nat := 0x0502
def RING_FAULT : Nat := 0x0503
def PARTITION_GONE : Nat := 0x0504
def PART_FAULT : Nat := 0x0505
def FLR_HOLD : Nat := 0x0506
def GEOMETRY_SHORT : Nat := 0x0507
def IDENTITY_LOST : Nat := 0x0508
def CELLAR_DOWN : Nat := 0x0509
def SURVEY_HOLD : Nat := 0x050A
end St

/-! ### Event codes (R529) -/
namespace Ev
def OK : Nat := 0x0000
def EPOCH_ROLL : Nat := 0x0001
def STEP_VOTE : Nat := 0x1001
def NUMERIC_TROUBLE : Nat := 0x1002
def STITCH_FAIL : Nat := 0x2001
def TILE_RETIRE : Nat := 0x2002
def COPY_FAULT : Nat := 0x3001
def CELLAR_HOT : Nat := 0x3002
def ECC_CE : Nat := 0x3003
def ECC_UE : Nat := 0x3004
def MARK_LOST : Nat := 0x3005
def CELLAR_TRAIN_FAIL : Nat := 0x3006
def HALL_SKEW : Nat := 0x4001
def HALL_GEN_AHEAD : Nat := 0x4002
def HALL_LINK_RETRAIN : Nat := 0x4003
def HALL_LINK_DOWN : Nat := 0x4004
def LINK_RETRAIN : Nat := 0x5001
def LINK_DOWN : Nat := 0x5002
def PATH_DEAD : Nat := 0x5003
def CHARTER_REFUSE : Nat := 0x5004
def EXCHANGE_STRAY : Nat := 0x5005
def EXCHANGE_MALFORMED : Nat := 0x5006
def BUS_CHANGE : Nat := 0x6001
def PORCH_CONV_FAIL : Nat := 0x6002
def CONV_TIE : Nat := 0x6003
def PHASE_FAIL : Nat := 0x6004
def ROOM_DARK : Nat := 0x6005
def INRUSH_FAULT : Nat := 0x6006
def REF_SWITCH : Nat := 0x6007
def REF_LOST : Nat := 0x6008
def THROTTLE_START : Nat := 0x7001
def THROTTLE_END : Nat := 0x7002
def INLET_LOST : Nat := 0x7003
def COOLING_DEGRADED : Nat := 0x7004
def FAN_FAIL : Nat := 0x7005
def RECEIPT_ROLLUP : Nat := 0x8001
def LEDGER_CLOSED : Nat := 0x8002
def TIME_STEP : Nat := 0x8003
def JOURNAL_FULL : Nat := 0x9001
def CKPT_REPAIR : Nat := 0x9002
def SNAPSHOT_DONE : Nat := 0x9003
def FW_TRIAL_FAILED : Nat := 0x9004
def EFUSE_FULL : Nat := 0x9005
def EFUSE_DIVERGED : Nat := 0x9006
def SURVEY_MODE : Nat := 0x9007
def GUARANTEE_SHORTFALL : Nat := 0xA001
def PART_ZEROISED : Nat := 0xA002
def PREV_THERMTRIP : Nat := 0xF001
def METER_FAULT : Nat := 0xF002
end Ev

/-! ### Votes (R85-R87): COMMIT below REPLAY below SKIP -/
def voteCommit : Nat := 0
def voteReplay : Nat := 1
def voteSkip : Nat := 2

/-- R539: the EVT_STAT bit of an event code. -/
def evtBit (code : Nat) : Nat := if code / 4096 = 15 then 31 else code % 4096 - 1

end Sys2Proof.Machine
end

