-- ==== Sys2Proof/Machine/State.lean ====
section
/-! DEFINITION. The state of the device as plain data: every register, memory, queue and mode the spec names, the queue
of waiting commands, the reasons a command can stop, and the state after reset. -/

namespace Sys2Proof.Machine
open Sys2Proof

/-- Nothing the spec describes stops the block with a fault: errors are statuses, events and marks in State. The type
has no constructor, so no command can end in a fault. (Log 4: DESIGN CHOICE.) -/
inductive Fault where
  deriving DecidableEq, Repr

/-- Why a command is refused. (Log 4: DESIGN CHOICE.) -/
inductive Refusal where
  /-- No meaning has been written for the command yet. Raised by exec only. Safe. -/
  | notModelled (mnemonic : String)
  /-- The command names a unit the device does not have (core 12,288, port 96, ...), so no rule of the spec speaks of
  it. Raised by the well-formedness guard of a meaning. Safe. -/
  | illFormed
  deriving DecidableEq, Repr

/-! ### Arrays (R94-R136) -/

/-- An array operation record of R101, its fields decoded. -/
structure ArrRec where
  op : Nat := 0
  xref : Bool := false
  pacc : Bool := false
  neg : Bool := false
  quart : Bool := false
  quarter : Nat := 0
  cinit : Nat := 0
  m : Nat := 16
  n : Nat := 16
  rel : Nat := 0
  store : Bool := false
  qaxis : Bool := false
  rnd : Nat := 0
  aDesc : Nat := 0
  bDesc : Nat := 0
  cDesc : Nat := 0
  nk : Nat := 0
  k0 : Nat := 0
  aRow : Nat := 0
  bRow : Nat := 0
  cRow : Nat := 0
  cCol : Nat := 0
  qcfg : Nat := 0
  stats : Nat := 0
  deriving DecidableEq, Repr

/-- The five operation counters of R81. -/
structure Counters where
  saturated : Nat := 0
  flushed : Nat := 0
  zeroBlocks : Nat := 0
  riveted : Nat := 0
  poison : Nat := 0
  deriving DecidableEq, Repr

/-- What an access must wait for (R168): stores below `st` visible (for a store), every access below `all` complete,
every fabric write below `fab` acknowledged, and the acquiring load with sequence number `acq - 1` bound (0: none). -/
structure Need where
  st : Nat := 0
  all : Nat := 0
  fab : Nat := 0
  acq : Nat := 0
  deriving DecidableEq, Repr

/-- An instruction in a running position: its reduction is done and it waits for its drain. -/
structure ArrJob where
  r : ArrRec
  need : Need := {}
  cnt : Counters := {}
  /-- Flagged STITCH_FAIL (R131). -/
  failed : Bool := false
  deriving DecidableEq, Repr

/-- Half of a double-buffered operand register (R96): the block (or position) of the reduction it holds, and its entries
by operand row, each the bytes of the row's block or element. -/
structure OpBuf where
  pos : Nat
  rows : List Bytes
  deriving DecidableEq, Repr

/-- One array: waiting register with the issuing core's sequence number, running positions keyed by quarter (4 for the
whole array), output shadow as pending writes by device address with the sequence number of its instruction,
accumulators HI and LO by cell 64 * row + column, and the cells whose previous instruction had PACC set (R95, R96, R106,
R108, R116, R142), and by running position the operand registers of A and B, the newest block last (R96).
(Log 10: DESIGN CHOICE.) -/
structure ArrSt where
  waiting : Option ArrRec := none
  wsq : Nat := 0
  wneed : Need := {}
  running : List (Nat × Nat × ArrJob) := []
  shadow : Option (List (Nat × Bytes)) := none
  shadowSq : Nat := 0
  shadowNeed : Need := {}
  hi : Table Word := []
  lo : Table Word := []
  paccCells : List Nat := []
  opA : Table (List OpBuf) := []
  opB : Table (List OpBuf) := []
  deriving DecidableEq, Repr

/-! ### Cores (R137-R172) -/

/-- A copy descriptor of R159, decoded. -/
structure CopyDesc where
  kind : Nat := 0
  rfmt : Nat := 0
  esize : Nat := 0
  rows : Nat := 1
  src : Nat := 0
  dst : Nat := 0
  len : Nat := 0
  redTag : Nat := 0
  srcStride : Int := 0
  dstStride : Int := 0
  table : Nat := 0
  deriving DecidableEq, Repr

/-- A copy unit that is waiting for Bridle: bytes read so far, byte ranges known bad, lines still to be asked for (line
address, first byte, count, place in the unit), reads not yet answered, and pieces of its destination still to be sent. -/
structure UnitBuf where
  unit : Nat
  dst : Nat
  data : Bytes
  bad : List (Nat × Nat) := []
  rtodo : List (Nat × Nat × Nat × Nat) := []
  left : Nat := 0
  wtodo : Option (List (Nat × Nat)) := none
  deriving DecidableEq, Repr

/-- A copy slot that is not FREE (R158): BUSY while `status` is none, then DONE. -/
structure CopySlot where
  desc : CopyDesc := {}
  status : Option Nat := none
  /-- Units begun so far, in ascending order, and those moved or abandoned. -/
  next : Nat := 0
  moved : List Nat := []
  /-- Worst status met so far (0 OK) and the address it was met at (R165). -/
  worst : Nat := 0
  failAddr : Nat := 0
  /-- Bridle transactions and reduce-writes of the copy not yet acknowledged. -/
  outstanding : Nat := 0
  /-- The unit that met ADDR_FAULT: no later unit is moved (R165). -/
  stopped : Bool := false
  /-- Per-core access sequence at its ISSUE (R164), and the orderings then in force. -/
  sq : Nat := 0
  need : Need := {}
  /-- The core's phase at its ISSUE (R266), and its issue ordinal (R313). -/
  phase : Nat := 0
  ord : Nat := 0
  /-- The unit whose host-window access waits for its port link, and since when in monotonic ns (R389). -/
  linkWait : Option (Nat × Nat) := none
  /-- Units in the middle of a Bridle access. -/
  bufs : List UnitBuf := []
  deriving DecidableEq, Repr

/-- A scalar load or returning atomic whose destination register is not yet written (R147, R178); register 32 stands for the
word a WAITV reads. -/
structure PendLoad where
  vd : Nat
  width : Nat
  sq : Nat
  /-- Device address, and scalar ordinal of R313 for an access to space 0x4 or 0x5. -/
  addr : Nat := 0
  ord : Nat := 0
  value : Option Nat := none
  deriving DecidableEq, Repr

/-- An access issued and not yet complete (R168): sequence number, store or load. A write to space 0x4 or 0x5 is
`fabric`; once accepted by its port it is neither store nor load and only awaits its acknowledgement. -/
structure OutAcc where
  sq : Nat
  isStore : Bool
  isLoad : Bool
  fabric : Bool := false
  deriving DecidableEq, Repr

/-- A core: sequencer, vector registers, arrays, copy slots and ordering state. (Log 10: DESIGN CHOICE.) -/
structure CoreSt where
  vr : Table Word := []
  loads : List PendLoad := []
  arr0 : ArrSt := {}
  arr1 : ArrSt := {}
  pc : Nat := 0
  /-- Slots of the current bundle already acted on, in the order of R140: 0 none .. 5 all. -/
  slotPos : Nat := 0
  /-- The condition of the current bundle's BARRIER or WAITV has been met (R139, R148, R150). -/
  gate : Bool := false
  loops : List (Nat × Nat) := []
  slots : Table (Option CopySlot) := []
  /-- The copy slot the engine last worked on (R162); 48 none yet. -/
  turn : Nat := 48
  phase : Nat := 0
  /-- Arrivals at each barrier group this attempt (R150). -/
  arrivals : Table Nat := []
  /-- The group whose barrier holds this core. -/
  atBarrier : Option Nat := none
  /-- END_STEP reported (R152). -/
  ended : Bool := false
  sq : Nat := 0
  outs : List OutAcc := []
  /-- ISSUE operations, and scalar loads and returning atomics to spaces 0x4 and 0x5, of this attempt (R313). -/
  issues : Nat := 0
  scalars : Nat := 0
  /-- Orderings in force for accesses issued now. -/
  need : Need := {}
  /-- Monotonic ns at which the current segment opened (R171). -/
  segNs : Nat := 0
  deriving DecidableEq, Repr

/-! ### Larder cache (R183-R186) -/

/-- A resident cache line of 256 B: its native granule, its way and whether it is dirty. The data lie in the larder
cache pages. -/
structure CLine where
  g : Nat
  way : Nat
  dirty : Bool
  deriving DecidableEq, Repr
/-! ### Currier tables (R279, R288, R289, R292) and expert routes (R340) -/

/-- A Currier job record of R279. -/
structure CurJob where
  kind : Nat := 1
  mode : Nat := 0
  group : Nat := 0
  arrival : Nat := 1
  set : Nat := 0
  roomFirst : Nat := 0
  roomCount : Nat := 1
  inp : Nat := 0
  out : Nat := 0
  aux : Nat := 0
  aux2 : Nat := 0
  vgroup : Nat := 0
  slot : Nat := 0
  chunkFirst : Nat := 0
  chunkCount : Nat := 1
  k : Nat := 2
  cpm : Nat := 1
  msgFirst : Nat := 0
  done : Nat := 0
  scratch : Nat := 0
  pwin : Nat := 0
  deriving DecidableEq, Repr

/-- A coefficient set of R289; COEF as triples A, B, C. -/
structure CoefSet where
  kind : Nat := 1
  iters : Nat := 1
  eps : Word := 0
  outScale : Word := 0x3F800000
  beta : Word := 0
  coef : List (Word × Word × Word) := []
  deriving DecidableEq, Repr

/-- An A/B pair of R292, held in the Curriers. -/
structure PairEnt where
  aBase : Nat := 0
  bBase : Nat := 0
  len : Nat := 256
  parity : Bool := false
  written : Bool := false
  deriving DecidableEq, Repr

/-- The CURRIER_TABLES section as held by the Curriers (R288, R290). -/
structure CurrierTab where
  jobs : List CurJob := []
  sets : List CoefSet := []
  pairs : List PairEnt := []
  /-- Larder offset of the pair table, where PARITY is written back at every boundary. -/
  pairBase : Nat := 0
  recvBase : Nat := 0
  rslots : Nat := 1
  pmax : Nat := 1
  stageSlots : Nat := 0
  stageBase : Nat := 0
  release : Nat := 0
  deriving DecidableEq, Repr

/-- A route template of the DISPATCH section (R340-R343): larder offsets the device itself uses. -/
structure DispatchEnt where
  statsOff : Nat := 0
  statsLen : Nat := 0
  deriving DecidableEq, Repr
/-! ### Harness (R241-R270) -/

/-- A program header of R246. -/
structure ProgHdr where
  instrBase : Nat := 0
  instrLen : Nat := 0
  recBase : Nat := 0
  recLen : Nat := 0
  entry : List Nat := []
  deriving DecidableEq, Repr

/-- A knock table entry of R252. -/
structure KnockEnt where
  raiseMv : Nat := 0
  hb : Bool := false
  level : Nat := 0
  hold : Nat := 1
  deriving DecidableEq, Repr

/-- A phase table entry of R255. -/
structure PhaseEnt where
  kind : Nat := 0
  opMin : Nat := 0
  opMax : Nat := 4
  planCycles : Nat := 0
  planW : Nat := 0
  deriving DecidableEq, Repr

/-- A reduction entry of R257 with its source list. -/
structure RedEnt where
  tag : Nat := 0
  dst : Nat := 0
  lines : Nat := 1
  srcs : List Nat := []
  deriving DecidableEq, Repr

/-- A variant index entry of R259. -/
structure VariantEnt where
  lo : Nat := 0
  hi : Nat := 0
  variant : Nat := 0
  deriving DecidableEq, Repr

/-- A tap of R265. -/
structure TapEnt where
  role : Nat := 0
  dir : Nat := 0
  phase : Nat := 0
  layer : Nat := 0
  base : Nat := 0
  len : Nat := 64
  digestAddr : Nat := 0
  deriving DecidableEq, Repr

/-- The loaded harness of a partition: header fields of R241 and the tables the device holds. -/
structure Harness where
  abi : Nat := 3
  version : Nat := 0
  ordered : Bool := false
  sharedOk : Bool := false
  exclusiveOk : Bool := false
  stackView : Bool := false
  minFwAbi : Nat := 0
  jobSeed : Nat := 0
  variants : Nat := 1
  phaseCount : Nat := 0
  layers : Nat := 0
  localPages : Nat := 0
  cachePages : Nat := 0
  stagePages : Nat := 0
  timelogLog2 : Nat := 10
  cacheBaseGib : Nat := 0
  cacheLimitGib : Nat := 0
  stackBaseGib : Nat := 0
  descBase : Nat := 0
  qcfgBase : Nat := 0
  qstateBase : Nat := 0
  statsBase : Nat := 0
  timelogBase : Nat := 0
  tapBase : Nat := 0
  selectOffset : Nat := 0
  digest : Bytes := []
  progs : List ProgHdr := []
  /-- Members of each barrier group, partition core indices (R256). -/
  barriers : List (List Nat) := []
  knocks : List KnockEnt := []
  phases : List PhaseEnt := []
  reductions : List RedEnt := []
  variantIx : List VariantEnt := []
  taps : List TapEnt := []
  descCount : Nat := 0
  qcfgCount : Nat := 0
  qstateCount : Nat := 0
  /-- Statistics records of R82, by index. -/
  statsIdx : List Nat := []
  cur : CurrierTab := {}
  /-- Larder offset of the VOTE_LIMITS section, none without one (R297). -/
  voteBase : Option Nat := none
  voteGroups : Nat := 0
  /-- Larder offset of the DISPATCH section, its routes' statistics (R343). -/
  dispatch : List DispatchEnt := []
  deriving DecidableEq, Repr
/-! ### Hallway (R209-R236) -/

/-- A resolved storage location: pantry key core * 2^21 + offset, larder key slice * 12 MiB + offset, native cellar
offset (outside or inside the cache window of the accessing partition), Bridle node and offset, host bus address. -/
inductive Loc where
  | pantry (key : Nat)
  | larder (key : Nat)
  | cellar (native : Nat)
  | cached (native : Nat)
  | bridle (node off : Nat)
  | host (port bus : Nat)
  deriving DecidableEq, Repr

/-- A flit in the hallway or at its endpoint (R210). KIND 0 read request, 1 read response, 2 write, 3 write
acknowledgement, 4 atomic, 5 atomic response, 6 reduce-write, 7 management; PART 512 is the operator. Rooms are physical
rooms, 200 + room the porch end of the link of an edge room (R213). -/
structure Flit where
  id : Nat := 0
  kind : Nat := 0
  part : Nat := 0
  gen : Nat := 0
  /-- Source cores, global core indices, each with the key of its copy (0 for a scalar access); one but for a combined
  reduce-write (R229). -/
  srcs : List (Nat × Nat) := []
  /-- Destination endpoint number of R211, device address and resolved location. -/
  ep : Nat := 0
  addr : Nat := 0
  dst : Loc := .pantry 0
  width : Nat := 4
  op : Nat := 0
  ret : Bool := false
  data : Nat := 0
  cmp : Nat := 0
  /-- Reduce-write: tag and addends by element. -/
  tag : Nat := 0
  addends : List (Option Word) := []
  /-- A reduce-write from a marked source line (R521). -/
  mark : Bool := false
  lane : Nat := 0
  /-- 0 XY, 1 YX; chosen at injection. -/
  net : Nat := 0
  /-- 1 on the second leg of a two-leg route, whose intermediate room `mid` is while it is still to be reached. -/
  leg : Nat := 0
  mid : Option Nat := none
  /-- Physical room the flit is in, the one it came from (100: its source), and its destination room. -/
  at_ : Nat := 0
  from_ : Nat := 100
  to_ : Nat := 0
  /-- Injected into the hallway or its own room's fabric. -/
  inj : Bool := false
  /-- Accepted by its cellar controller and waiting for it. -/
  queued : Bool := false
  /-- Issuing core's sequence number and orderings. -/
  sq : Nat := 0
  need : Need := {}
  /-- Destination register of a load or returning atomic. -/
  vd : Nat := 0
  /-- A response or acknowledgement: the room its request was performed in. -/
  home : Nat := 100
  /-- Monotonic ns of its issue (R389). -/
  born : Nat := 0
  deriving DecidableEq, Repr

/-- A staged reduce-write of R230: destination larder key of its line, tag, source, addends. -/
structure Staged where
  part : Nat
  key : Nat
  tag : Nat
  src : Nat
  addends : List (Option Word)
  mark : Bool := false
  deriving DecidableEq, Repr

/-- A hallway link's error state at its sending room (R524). -/
structure HLink where
  /-- Lane of the current run of consecutive resends and its length. -/
  runLane : Nat := 0
  run : Nat := 0
  /-- Monotonic ns of the resends of the last second. -/
  recent : List Nat := []
  retraining : Bool := false
  retrainEnd : Nat := 0
  failures : Nat := 0
  down : Bool := false
  deriving DecidableEq, Repr

/-- The hallway. -/
structure HallSt where
  flits : List Flit := []
  nextId : Nat := 0
  /-- Slot owners in force, by lane * 64 + slot (R238): 0 operator, 512 + partition when owned. -/
  slots : Table Nat := []
  /-- Applied and awaited contributions: key, tag, sources already applied this attempt. -/
  staged : List Staged := []
  applied : List (Nat × Nat × Nat × Nat) := []
  /-- Link state by physical room * 4 + side (0 North, 1 East, 2 South, 3 West). -/
  links : Table HLink := []
  /-- R223: network (plus 1) last used by a core's writes and atomics towards a room, by core * 512 + room. -/
  lastNet : Table Nat := []
  /-- R226: the input (plus 1) last served for an owner's flits of a lane, class and network to an output of a room. -/
  rr : Table Nat := []
  /-- R222: the holes at the last bring-up boundary, for which the intermediate rooms were computed. -/
  holes : List Nat := []
  deriving DecidableEq, Repr
/-! ### Partitions (R402-R419), steps and votes (R85-R87, R309) -/

inductive PState where
  | free | live | zeroising
  deriving DecidableEq, Repr

/-- A running or waiting Currier job (R280-R282). -/
structure JobRun where
  job : Nat
  started : Bool := false
  /-- The job's work is done and DONE is still to be written. -/
  worked : Bool := false
  /-- UNPACK: chunks decoded so far. -/
  chunks : Nat := 0
  deriving DecidableEq, Repr

/-- An exchange message held or accepted by a partition (R303-R305). -/
structure XgMsg where
  src : Nat
  kind : Nat
  msgId : Nat
  step : Nat
  attempt : Nat
  body : Bytes
  deriving DecidableEq, Repr

/-- An entry the device has written into the journal ring and not yet overwritten (R313, R316): its keys, the count of
journal bytes before it, and its length and payload length. -/
structure JrnlMark where
  kind : Nat
  attempt : Nat
  step : Nat
  seq : Nat
  key0 : Nat
  key1 : Nat
  addr : Nat
  start : Nat
  len : Nat
  plen : Nat
  deriving DecidableEq, Repr

/-- A journal entry as a replay reads it (R331). -/
structure JEnt where
  kind : Nat := 0
  attempt : Nat := 0
  step : Nat := 0
  seq : Nat := 0
  key0 : Nat := 0
  key1 : Nat := 0
  addr : Nat := 0
  payload : Bytes := []
  deriving DecidableEq, Repr

/-- The first difference a replay finds (R332): KIND, attempt, layer, step, journalled and replayed values. -/
structure JDiff where
  kind : Nat
  attempt : Nat
  layer : Nat
  step : Nat
  was : Nat
  now : Nat
  deriving DecidableEq, Repr

/-- A replay in progress (R330-R332): its request, last step, result address, the entries still to come beginning with
the OPEN of the attempt in hand, and what it has found. -/
structure ReplayRun where
  key : Nat
  to_ : Nat
  result : Nat
  stopOn : Bool
  ents : List JEnt := []
  done : Nat := 0
  diff : Option JDiff := none
  deriving DecidableEq, Repr

/-- An open snapshot (R336): its request, the ranges with views resolved, destination, step, bytes and line digest. -/
structure SnapRun where
  key : Nat
  dest : Nat
  step : Nat
  ranges : List (Nat × Nat)
  len : Nat
  /-- Bridle writes of the stream not yet acknowledged. -/
  outstanding : Nat := 0
  /-- Status that ended it, if it met a fault. -/
  fault : Option Nat := none
  deriving DecidableEq, Repr

/-- A checkpoint slot (R321-R327). -/
structure CkptSlot where
  valid : Bool := false
  stale : Bool := false
  step : Nat := 0
  /-- Write order, for the more recent of the two. -/
  order : Nat := 0
  /-- PARITY of each pair as recorded. -/
  parity : List Bool := []
  deriving DecidableEq, Repr
/-- The exchange of a partition (R303-R309). -/
structure XgSt where
  /-- Accepted (ordinal, MSG_ID) of CHUNKS messages, and (ordinal, vote) of CLOSE messages, this attempt. -/
  chunks : List (Nat × Nat) := []
  closes : List (Nat × Nat) := []
  maxVote : Nat := 0
  held : List XgMsg := []
  /-- Receive slots in use: (ordinal, slot), with the message they hold. -/
  slotsUsed : List (Nat × Nat × Nat) := []
  /-- Monotonic ns of the last message sent, accepted or decoded. -/
  progress : Nat := 0
  /-- Chunks staged so far this attempt (R295). -/
  staged : Nat := 0
  /-- Messages still to be sent: receiving ordinal, PACK job plus 1 (0 for CLOSE), message. -/
  outbox : List (Nat × Nat × Bytes) := []
  deriving DecidableEq, Repr

/-- What a partition's exchange page held at LOAD_HARNESS (R311): participants, own ordinal, stall limit in ms and the Bridle
node of each ordinal. -/
structure XgCfg where
  pcount : Nat
  ordinal : Nat
  timeout : Nat
  nodes : List Nat
  deriving DecidableEq, Repr

/-- Journal, checkpoint, replay and snapshot state (R312-R339). -/
structure LongSt where
  seq : Nat := 0
  writeCount : Nat := 0
  marks : List JrnlMark := []
  /-- Largest journal volume of an attempt since LOAD_HARNESS, and TACK_JRNL_WRITE as the attempt opened (R316). -/
  largest : Nat := 0
  attemptStart : Nat := 0
  /-- Steps of protected entries overwritten and not yet named by a GAP entry (R317). -/
  lost : List Nat := []
  ck0 : CkptSlot := {}
  ck1 : CkptSlot := {}
  ckOrder : Nat := 0
  /-- Ranges of the last CHECKPOINT request, none for the default ones (R325). -/
  ranges : Option (List (Nat × Nat)) := none
  replay : Option ReplayRun := none
  snap : Option SnapRun := none
  deriving DecidableEq, Repr

/-- A partition. -/
structure PartSt where
  pstate : PState := .free
  stopped : Option Nat := none
  flrHold : Bool := false
  /-- DESTROY has ended its requests, and records of them still wait for space in their rings (R397, R405). -/
  leaving : Bool := false
  /-- Global logical slices held, ascending (R173). -/
  tiles : List Nat := []
  /-- Set waiting for MOVE at the next boundary, and the old set being zeroised (R406). -/
  moveTo : Option (List Nat) := none
  /-- Serial of the key pair, 0 for none (R197). -/
  key : Nat := 0
  harn : Option Harness := none
  step : Nat := 0
  attempt : Nat := 0
  variant : Nat := 0
  vote : Nat := 0
  finalVote : Nat := 0
  /-- An attempt runs; it has been closed (orders 1-3 of R309). -/
  running : Bool := false
  closed : Bool := false
  /-- Every quantiser state record as it stood when the attempt started (R83). -/
  qsnap : List Bytes := []
  /-- State records whose tensor this attempt quantised with EF on (R86), and the select word read for the step (R260). -/
  efUsed : List Nat := []
  select : Nat := 0
  /-- The boundary holds for a migration: 1 to quiesce, 2 to migrate (R235, R236). -/
  migrating : Nat := 0
  /-- Substitutions the migration makes: logical room, logical tile, physical tile. -/
  subs : List (Nat × Nat × Nat) := []
  /-- Final vote whose automatic checkpoint and variant selection are still to come (R325, R309). -/
  tail : Option Nat := none
  /-- RUN_STEPS in progress: function * 128 + ring. -/
  run : Option Nat := none
  tapPartial : List Nat := []
  /-- Physical arrays that failed a check this attempt, and rooms whose first failure it recorded (R131, R132). -/
  failedArrays : List Nat := []
  failedRooms : List Nat := []
  jobs : List JobRun := []
  /-- Jobs started this attempt (each at most once, R280). -/
  jobsRun : List Nat := []
  xg : XgSt := {}
  /-- The exchange page as it stood at LOAD_HARNESS (R311), none while no harness is loaded. -/
  xgc : Option XgCfg := none
  long : LongSt := {}
  /-- Power and bandwidth shortfalls in force: amount, start, energy in µJ (R415). -/
  shortW : Option (Nat × Nat × Nat) := none
  shortB : Option (Nat × Nat × Nat) := none
  audit : Bytes := []
  deriving DecidableEq, Repr
/-! ### Rings and requests (R390-R400) -/

/-- A descriptor taken from a command ring and not yet retired (R392-R397, R479). -/
structure Req where
  op : Nat := 0
  flags : Nat := 0
  cring : Nat := 0
  rring : Nat := 0
  seq : Nat := 0
  arg0 : Nat := 0
  arg1 : Nat := 0
  len : Nat := 0
  tag : Nat := 0
  /-- Device-wide order in which descriptors were taken (R395). -/
  taken : Nat := 0
  /-- RUN_STEPS, SNAPSHOT or REPLAY begun. -/
  started : Bool := false
  /-- Status once the request's work has ended. -/
  status : Option Nat := none
  steps : Nat := 0
  audit : Bytes := []
  /-- A shortfall of power or of bandwidth overlapped it (R415); wall time was unsynced at some point (R492). -/
  shortW : Bool := false
  shortB : Bool := false
  unsynced : Bool := false
  startMono : Nat := 0
  startTai : Nat := 0
  endMono : Nat := 0
  endTai : Nat := 0
  /-- TIME_DISC at its start, and its energy so far in µJ (R478, R480). -/
  startDisc : Nat := 0
  energy : Nat := 0
  /-- Data bursts the arbiter has granted it, and when the last was (R410). -/
  bursts : Nat := 0
  hostAt : Nat := 0
  /-- When an access of it to a host window began to wait (R389). -/
  hostSince : Option Nat := none
  deriving DecidableEq, Repr

/-- What the device keeps of a ring beside its registers: PHASE, the request in progress, and the arbiter's counts
(R391, R410-R412). -/
structure RingX where
  phase : Bool := true
  req : Option Req := none
  lost : Nat := 0
  deriving DecidableEq, Repr

/-- What the device keeps of an event ring beside its registers (R400). -/
structure EvX where
  phase : Bool := true
  lostFlag : Bool := false
  deriving DecidableEq, Repr

/-- A PCIe port's arbiter (R410): the ring granted last, as function * 128 + ring, and its grants this round. -/
structure Arb where
  last : Option Nat := none
  count : Nat := 0
  granted : Bool := false
  deriving DecidableEq, Repr

/-- R400: an event record written while the link of its ring is down: it goes out when the link returns. -/
structure LateEvent where
  ring : Nat
  port : Nat
  bus : Nat
  data : Bytes
  irq : Option (Nat × Nat) := none
  deriving DecidableEq, Repr

/-- Host side: bytes the device has written to host memory, MSI-X signals in order, rings. (Log 144: DESIGN CHOICE.) -/
structure HostSt where
  /-- Keyed by port * 2^64 + bus address; a byte the device has not written reads 0. -/
  mem : Table Byte := []
  msix : List (Nat × Nat) := []
  /-- Values the register reads have returned, oldest first. -/
  reads : List Nat := []
  rings : Table RingX := []
  evs : Table EvX := []
  taken : Nat := 0
  arbA : Arb := {}
  arbB : Arb := {}
  /-- Event records that wait for their link, oldest first (R400). -/
  late : List LateEvent := []
  deriving DecidableEq, Repr

/-! ### Errors (R520-R527) -/

/-- An error record of R526. -/
structure ErrRec where
  seq : Nat
  kind : Nat
  sev : Nat
  part : Nat
  typ : Nat
  inst : Nat
  count : Nat
  addr : Nat
  mono : Nat
  deriving DecidableEq, Repr

/-- The error log (newest first, at most 4,096), corrected errors by tile (R523) and the time of each block's latest
ECC_CE post (R527). -/
structure ErrSt where
  log : List ErrRec := []
  count : Nat := 0
  /-- Physical tile (36 * room + tile), address and time of corrected errors within the last hour. -/
  corrected : List (Nat × Nat × Nat) := []
  lastCe : Table Nat := []
  deriving DecidableEq, Repr
/-! ### Bridle (R350-R384) -/

/-- A link packet of R355 as sent or received: TYPE 0 CREDIT, 1 TXN, 2 ACK, 3 NAK, 4 MGMT; VC 0 request, 1 response,
2 management; CREDIT by VC in 64 B units. -/
structure LPkt where
  typ : Nat := 1
  vc : Nat := 0
  seq : Nat := 0
  ack : Option Nat := none
  credit : Nat × Nat × Nat := (0, 0, 0)
  payload : Bytes := []
  /-- Partition whose slots it uses in shared mode, 512 for the operator (R380). -/
  own : Nat := 512
  deriving DecidableEq, Repr

/-- The link layer of a port, or of the loopback of R375. (Log 51: DEDUCED.) -/
structure BPort where
  /-- E of R357, accepted packets not yet acknowledged, and whether the current gap has had its NAK. -/
  e : Nat := 0
  unacked : Nat := 0
  naked : Bool := false
  /-- Next sequence to send, the replay buffer (oldest first), and packets waiting to be numbered. -/
  next : Nat := 0
  replay : List LPkt := []
  waiting : List LPkt := []
  /-- Credits held for sending, and freed receive buffers not yet returned. -/
  cred : Nat × Nat × Nat := (2048, 2048, 128)
  owe : Nat × Nat × Nat := (0, 0, 0)
  /-- Accepted payloads not yet acted on, with their VC. -/
  rx : List (Nat × Bytes) := []
  /-- Every packet sent, oldest first. -/
  out : List LPkt := []
  /-- Replay timeouts in a row without progress, transaction timeouts in a row, start of the retrain. -/
  timeouts : Nat := 0
  pathTimeouts : Nat := 0
  retrainAt : Option Nat := none
  /-- Monotonic ns since which packets are held without an acknowledgement (R359). -/
  quietSince : Nat := 0
  deriving DecidableEq, Repr

/-- A transaction of R360 and R361. -/
structure Txn where
  op : Nat := 0
  status : Nat := 0
  attempt : Nat := 0
  last : Bool := false
  src : Nat := 0
  dst : Nat := 0
  tag : Nat := 0
  inc : Nat := 0
  wseq : Nat := 0
  addr : Nat := 0
  operand : Nat := 0
  data : Bytes := []
  deriving DecidableEq, Repr

/-- What an outstanding transaction of this node serves. -/
inductive TxnFor where
  /-- A scalar load or returning atomic: its flit, answered when the response arrives. -/
  | load (f : Flit)
  /-- A scalar store or non-returning atomic: its flit. -/
  | store (f : Flit)
  /-- A copy's read of bytes [skip, skip + n) of a line, for byte `pos` of a unit; a copy's write. `key` names the copy
  (R165), `addr` the device address. -/
  | copyRead (core key unit pos skip n addr : Nat)
  | copyWrite (core key addr : Nat)
  /-- An ownership request (1) or release (2) with the issuing partition and its larder notice offset. -/
  | own (msg part notice : Nat) (f : Flit)
  | grant (region : Nat)
  /-- A line of the bulk stream of a request, by its ring key. -/
  | bulk (key : Nat)
  /-- A fragment of an exchange message: sending partition and MSG_ID. -/
  | exchange (part msg : Nat)
  /-- A line of residuals that a quantising operation writes to another node (R78). -/
  | posted
  | fence
  deriving DecidableEq, Repr

/-- An outstanding transaction (R354, R368). -/
structure OutTxn where
  t : Txn
  /-- Earlier fragments of an exchange message, all under one tag. -/
  more : List Txn := []
  for_ : TxnFor
  part : Nat := 0
  gen : Nat := 0
  port : Nat := 0
  first : Nat := 0
  sentAt : Nat := 0
  /-- Time spent HELD so far, and since when it is held. -/
  held : Nat := 0
  heldAt : Option Nat := none
  /-- A FENCE_RSP has counted it as answered (R377): only its tag is still held. -/
  fenced : Bool := false
  deriving DecidableEq, Repr

/-- The ingress applier of a source node (R366): held transactions with their arrival port, saved atomic results. -/
structure Applier where
  inc : Nat := 0
  next : Nat := 0
  held : List (Nat × Txn) := []
  saved : List (Nat × Nat) := []
  /-- FENCEs waiting for earlier transactions, with their arrival port (R377). -/
  fences : List (Nat × Txn) := []
  deriving DecidableEq, Repr

/-- An exchange message being assembled (R378), by source node and sending partition. -/
structure Frag where
  src : Nat
  part : Nat
  bytes : Bytes
  deriving DecidableEq, Repr

/-- A stream of bytes a request writes to other nodes (R324, R336, R394): lines still to be sent, writes not yet
acknowledged, and what ended it. -/
structure Bulk where
  key : Nat
  part : Nat
  todo : List (Nat × Bytes) := []
  outstanding : Nat := 0
  fault : Option Nat := none
  deriving DecidableEq, Repr

/-- Bridle. -/
structure BrdlSt where
  ports : Table BPort := []
  txns : List OutTxn := []
  nextTag : Nat := 0
  bulk : List Bulk := []
  /-- Egress counters, incarnations last seen (plus 1) and ingress appliers by node. -/
  egress : Table Nat := []
  seen : Table Nat := []
  appl : Table Applier := []
  frags : List Frag := []
  /-- Assembled messages waiting to be received: destination partition, source node, message. -/
  msgs : List (Nat × Nat × Bytes) := []
  /-- Queued ownership requests by region: node and notice offset, oldest first (R373). -/
  ownq : Table (List (Nat × Nat)) := []
  /-- Requests of this node not yet granted: home node, region, partition, notice offset, oldest first (R372). -/
  ownWait : List (Nat × Nat × Nat × Nat) := []
  /-- Monotonic ns at which the first port came up, and whether transactions may be sent (R365). -/
  firstUp : Option Nat := none
  ready : Bool := false
  /-- By home port, the partition (plus 1) whose arriving request was served last (R380). -/
  served : Table Nat := []
  /-- Cable connectors whose supply is switched off (R567). -/
  supplyOff : List Nat := []
  deriving DecidableEq, Repr

/-! ### Cellar heat (R202, R203) -/

/-- A package group: the range (0-3, as R202) each of its eight packages last read, and the consecutive polls that placed
every package below the current level. -/
structure HeatGrp where
  ranges : List Nat := [0, 0, 0, 0, 0, 0, 0, 0]
  below : Nat := 0
  deriving DecidableEq, Repr

/-! ### Identity, defect record and firmware (R503-R512): what flash and eFuse hold -/

/-- A defect event of R504. -/
structure DefEv where
  room : Nat
  tile : Nat
  cause : Nat
  epoch : Nat
  deriving DecidableEq, Repr

/-- A flash copy of the defect record (R505): is it intact, its identity block, its events. -/
structure FlashRec where
  intact : Bool := true
  ident : Bytes := []
  events : List DefEv := []
  deriving DecidableEq, Repr

/-- What survives every reset: identity banks, the three record copies, the firmware slots with the boot record, the
firmware keys with their revocation bits, the anti-rollback count, the saved firmware ABI, incarnation and R_th, and what the Meter holds from manufacture. -/
structure NvSt where
  bank0 : Bytes := []
  bank1 : Bytes := []
  flashA : FlashRec := {}
  flashB : FlashRec := {}
  efuse : List DefEv := []
  efuseOk : Bool := true
  /-- The agreed record of the running bring-up. -/
  record : List DefEv := []
  epoch : Nat := 0
  slotA : Bytes := []
  slotB : Bytes := []
  /-- The boot record: preferred slot (0 A, 1 B), TRIAL, and whether the trial has booted once. -/
  prefer : Nat := 0
  trial : Bool := false
  tried : Bool := false
  /-- The slot holding the image last staged and accepted, waiting for ARM. -/
  staged : Option Nat := none
  key0 : Bytes := []
  key1 : Bytes := []
  revoked0 : Bool := false
  revoked1 : Bool := false
  svn : Nat := 0
  abiSaved : Option Nat := none
  inc : Nat := 0
  rth : Option Nat := none
  /-- The Meter's calibration record and certificate (R472, R473, R476), and are record and key pair intact. -/
  calId : Nat := 0
  coef : List Nat := []
  cert : Bytes := []
  calOk : Bool := true
  keyOk : Bool := true
  deriving DecidableEq, Repr

/-! ### Time (R379, R491-R495) -/

/-- The PTP port clock (R379): the master it follows (comparison vector of IEEE 1588 and source port identity), when its
latest Announce came and after how long without one it is given up, and the exchange in progress: the Sync held (sequence,
its own time, correction), the times t1, t2 and t3 of the latest exchange, and the sequence of the Delay_Req sent. -/
structure PtpSt where
  master : Option (List Nat × Bytes) := none
  announceAt : Nat := 0
  announceFor : Nat := 0
  sync : Option (Nat × Nat × Int) := none
  t1 : Int := 0
  t2 : Int := 0
  t3 : Int := 0
  reqSeq : Nat := 0
  waiting : Bool := false
  /-- As a master: when the latest Announce and the latest Sync went out, and their sequences. -/
  announced : Option Nat := none
  synced : Option Nat := none
  announceSeq : Nat := 0
  syncSeq : Nat := 0
  deriving DecidableEq, Repr

/-- Wall time: its value when the monotonic counter read `mono`, the part of a correction still to be absorbed then, is
it set, and when a source last corrected it. (Log 96: DEDUCED.) -/
structure TimeSt where
  wall : Nat := 0
  mono : Nat := 0
  slew : Int := 0
  set : Bool := false
  lastSource : Nat := 0
  /-- Set-time command armed for the next PPS edge, the latest PPS pulse, and whether it came 1 s after the one before. -/
  armed : Bool := false
  lastPps : Option Nat := none
  ppsGood : Bool := false
  /-- TIME_NEXT_AT of the latest scheduled change of the UTC offset that has taken effect. -/
  utcDone : Nat := 0
  /-- Wraps of TIME_US since cold reset that EPOCH_ROLL has told of (R399). -/
  rolled : Nat := 0
  ptp : PtpSt := {}
  deriving DecidableEq, Repr


/-! ### Rein (R449-R470) -/

/-- An occurrence of a throttle reason (R468): its start, its last moment in force, and is it in force now. -/
structure Occ where
  start : Nat := 0
  last : Nat := 0
  on : Bool := false
  deriving DecidableEq, Repr

/-- Rein: the power history of R450 by 256 * physical room + phase, in watts (unlisted: 85); per room the phase and point
at the last decision (phase * 8 + point, plus 1); occurrences by reason * 128 + room (127 the device) and when each count
of R467 was last brought up to date; the facility envelope and R_th as exact values (W, µK/W), the level of R_th at the
last COOLING_DEGRADED; the operator's line at the last decision; the pairs (hotter room, its neighbour) on which the temperature rule of R217 acts.
(Log 11, 121: DESIGN CHOICE.) -/
structure ReinSt where
  hist : Table Rat := []
  seen : Table Nat := []
  occ : Table Occ := []
  occAt : Table Nat := []
  fac : Rat := 10000
  rth : Rat := 5500
  degraded : Option Rat := none
  pOp : Int := 0
  skew : List (Nat × Nat) := []
  deriving DecidableEq, Repr

/-! ### Power, clocks and bring-up (R421-R448, R499-R502, R548) -/

/-- A knock in force in a room (R433): issuing core, RAISE_MV, HB, HOLD. -/
structure Knock where
  core : Nat
  raise : Nat
  hb : Bool
  hold : Nat
  deriving DecidableEq, Repr

/-- Power and clock state of a physical room beside its registers: is its converter running, where it stands in the
sequence of R437 (0 off, 1-8 header stages 0-7, 9 awaiting the full check, 10 complete), when its wave started, is it
holding its stage and until when (R439), the inrush faults for whose clearing it waits after a droop, and does it repeat its
full check for one (R439), tiles that failed the full check once (R438), the physical tiles whose header switches are closed
(R23), knocks in force, does the setpoint return from one in high-bandwidth mode (R433), the forced stretch of R217, the
stage of a change of R444 (0 none, else its order), the higher of its two voltages and when the clock was stopped for it, and
since when the room holds over (R443). -/
structure RoomPwr where
  conv : Bool := false
  seq : Nat := 0
  waveAt : Nat := 0
  held : Bool := false
  heldUntil : Option Nat := none
  drooped : List Nat := []
  recheck : Bool := false
  retry : List Nat := []
  headers : List Nat := []
  knocks : List Knock := []
  hbBack : Bool := false
  forcedOp : Option Nat := none
  chg : Nat := 0
  riseMv : Nat := 0
  stopAt : Nat := 0
  holdSince : Nat := 0
  deriving DecidableEq, Repr

/-- The power state machine: the change in progress as its target and its start, and the request that waits for its
end; the rooms; no converter but standby runs; a trip is latched (R435); the pins SHED_N (asserted), THERMTRIP_N (driven low by the
device), RST_N (low) and PWRGD (released). -/
structure PwrSt where
  change : Option (Nat × Nat) := none
  queued : Option Nat := none
  rooms : Table RoomPwr := []
  off : Bool := true
  tripped : Bool := false
  shed : Bool := false
  tripLow : Bool := false
  rstLow : Bool := false
  pwrgd : Bool := false
  /-- ADDR_SEL as sampled at cold bring-up (R561), and when the firmware last restarted (R518). -/
  addrSel : Nat := 0
  fwDown : Option Nat := none
  deriving DecidableEq, Repr

/-- A bring-up in progress (R500, R502): kind 0 none, 1 cold, 2 wake, 3 of one logical room; what the environment decides of it;
power waves still to start (wave, physical room), when the last one started and how many have; the rooms still to be
self-tested; rooms and tiles that failed in a survey; when it began. -/
structure BringSt where
  kind : Nat := 0
  lr : Nat := 0
  out : BringOut := {}
  waves : List (Nat × Nat) := []
  waveAt : Option Nat := none
  untested : List Nat := []
  /-- Physical rooms that took over at this bring-up (R436). -/
  subs : List Nat := []
  /-- Rooms whose inrush fault has not cleared yet (R439). -/
  faults : List Nat := []
  badRooms : List Nat := []
  badTiles : List (Nat × Nat) := []
  startAt : Nat := 0
  deriving DecidableEq, Repr

/-- An answer on the management bus (R561): 0 an MCTP control message, 1 a sensor with its number and reading. -/
structure SmbRsp where
  kind : Nat
  sensor : Nat
  value : Int
  deriving DecidableEq, Repr


/-! ### The Meter (R471-R495) -/

/-- A receipt that has fallen due and is not yet written (R480-R483): what it covers, and its 188 signed bytes with the
signature once signed. -/
structure Rcpt where
  id : Nat := 0
  fn : Nat := 0
  ring : Nat := 0
  rring : Nat := 0
  seq : Nat := 0
  last : Nat := 0
  count : Nat := 1
  cls : Nat := 0
  method : Nat := 0
  flags : Nat := 0
  fwAbi : Nat := 0
  calId : Nat := 0
  monoStart : Nat := 0
  monoEnd : Nat := 0
  taiStart : Nat := 0
  disc : Nat := 0
  energy : Nat := 0
  audit : Bytes := []
  /-- It fell due with the budget empty (R482). -/
  opened : Bool := false
  signed : Option Bytes := none
  deriving DecidableEq, Repr

/-- A ledger record to be signed and written (R487, R489): its 188 bytes, the rings it goes to and, once signed, its
signature. -/
structure LedDue where
  bytes : Bytes := []
  dests : List (Nat × Nat) := []
  sig : Option Bytes := none
  deriving DecidableEq, Repr

/-- A line in the open day (R474-R478, R487, R488): LINE_ID, energies in µJ, receipted requests, when the day or line
opened, chain value, and what its record's flags need. -/
structure MLine where
  id : Nat := 0
  energy : Int := 0
  idle : Nat := 0
  receipted : Nat := 0
  monoOpen : Nat := 0
  prev : Bytes := []
  wasA : Bool := false
  method : Nat := 0
  short : Bool := false
  unsynced : Bool := false
  discOpen : Nat := 0
  deriving DecidableEq, Repr

/-- A record kept in the Meter's flash: day, PART, signed bytes with RESENT clear (R489). -/
structure LedKept where
  day : Nat
  part : Nat
  bytes : Bytes
  deriving DecidableEq, Repr

/-- The Meter. -/
structure MtrSt where
  /-- Lines by partition, 0xFFFE the operator, 0xFFFF the device total. -/
  lines : Table MLine := []
  nextLine : Nat := 1
  /-- The open day (R486). -/
  day : Nat := 0
  /-- Device total since manufacture in µJ. -/
  total : Nat := 0
  /-- The operator's line in the last interval, in mW. -/
  operMw : Int := 0
  /-- Monotonic ns at the end of the last interval. -/
  lastEnd : Nat := 0
  /-- VF requests ended since: partition, start, end, and the receipt that takes their energy (0 for none). -/
  ended : List (Nat × Nat × Nat × Nat) := []
  nextRcpt : Nat := 1
  due : List Rcpt := []
  ledger : List LedDue := []
  kept : List LedKept := []
  /-- Monotonic ns of the last budget tick (R482) and of the signatures of the last second. -/
  lastTick : Nat := 0
  signs : List Nat := []
  /-- CAL_OK or KEY_OK has fallen since the last cold bring-up that found both (R530). -/
  fault : Bool := false
  deriving DecidableEq, Repr
/-! ### The whole device -/

/-- The state of the device. -/
structure State where
  /-- Commands waiting, first in first out. -/
  pending : List Instr := []
  /-- The model's own counter: each free value taken advances it. -/
  free : Nat := 0
  /-- Monotonic counter in ns (R491). -/
  mono : Nat := 0
  /-- Every register field the tables of the spec give, by register key; unlisted registers hold their reset value. -/
  regs : Table Word := []
  /-- RO values held by FREEZE (R538) and latched _HI words (R533, value + 1). -/
  frozen : Table Word := []
  latch : Table Nat := []
  pantry : List Host.Cell := []
  larder : List Host.Cell := []
  cellar : List Host.Cell := []
  /-- Key serial each 64 B cellar burst was last written under, 0 raw (R196). -/
  cellKey : Table Nat := []
  pantryMark : List Nat := []
  larderMark : List Nat := []
  cellarMark : List Nat := []
  /-- Cache sets by slice * 8192 + set, most recently used first (R185). -/
  cache : Table (List CLine) := []
  cores : Table CoreSt := []
  /-- Physical rooms stopped at safe points (R154). -/
  roomStop : List Nat := []
  parts : Table PartSt := []
  hall : HallSt := {}
  brdl : BrdlSt := {}
  /-- Heat state by package group 0-23. -/
  heat : Table HeatGrp := []
  host : HostSt := {}
  err : ErrSt := {}
  nv : NvSt := {}
  time : TimeSt := {}
  rein : ReinSt := {}
  pwr : PwrSt := {}
  bring : BringSt := {}
  /-- Answers given on the management bus, oldest first. -/
  smb : List SmbRsp := []
  mtr : MtrSt := {}
  /-- Live stitching failures of each physical array, as ages in step boundaries (R132). -/
  strikes : Table (List Nat) := []
  /-- Physical tiles (36 * room + tile) to be retired at the next boundary, with their CAUSE of R504. -/
  condemned : Table Nat := []
  /-- Physical rooms to be retired at the next bring-up boundary, with their CAUSE of R504. -/
  roomRetire : Table Nat := []
  deriving DecidableEq, Repr

/-! ### What flash, eFuse and the Meter hold from manufacture

The spec gives these no values. DESIGN CHOICE: an A06 unit with no defects, whose identity is all zeros but for the fields
that must not be, with an image without a body in firmware slot A. -/

/-- The identity block of R503: lot "00000000", wafer 1, order 0, day 0, serials 0, and its CRC. (Log 8: DESIGN CHOICE.) -/
def NvSt.madeIdent : Bytes :=
  [0x54, 0x4E, 0x49, 0x42, 0x30, 0x30, 0x30, 0x30, 0x30, 0x30, 0x30, 0x30, 0x01] ++ List.replicate 239 0 ++
    [0xE7, 0x6A, 0x88, 0x0D]

/-- The firmware key of slot 0. (Log 8: DESIGN CHOICE.) -/
def NvSt.madeKey : Bytes := [
    0x3B, 0x6A, 0x27, 0xBC, 0xCE, 0xB6, 0xA4, 0x2D, 0x62, 0xA3, 0xA8, 0xD0, 0x2A, 0x6F, 0x0D, 0x73,
    0x65, 0x32, 0x15, 0x77, 0x1D, 0xE2, 0x43, 0xA6, 0x3A, 0xC0, 0x48, 0xA1, 0x8B, 0x59, 0xDA, 0x29]

/-- The signature of the image's first 64 bytes under that key. -/
def NvSt.madeSig : Bytes := [
    0x45, 0x17, 0x0B, 0xDB, 0x45, 0x65, 0x58, 0xA5, 0xF3, 0x61, 0x9F, 0xFB, 0xFC, 0x3E, 0x71, 0x77,
    0xEA, 0x06, 0x65, 0x58, 0xAD, 0xC7, 0x01, 0x1F, 0x7C, 0x38, 0xB4, 0xD8, 0x30, 0x1A, 0x19, 0x71,
    0x38, 0x51, 0xA4, 0x4B, 0x0F, 0xB5, 0xFF, 0xCF, 0x01, 0x12, 0x7B, 0xAC, 0xC8, 0xA7, 0x1E, 0xF2,
    0xAD, 0x11, 0x10, 0xBD, 0xBA, 0xE9, 0xCD, 0x9B, 0xA5, 0x1A, 0xCC, 0x12, 0x89, 0x88, 0x6D, 0x0B]

/-- The image of R510 in slot A: security version 0, version 1, firmware ABI 1, no body (its digest is that of no bytes). -/
def NvSt.madeImage : Bytes :=
  [0x54, 0x4E, 0x46, 0x57, 0x01, 0x00, 0x00, 0x00, 0x00, 0x00, 0x00, 0x00, 0x00, 0x00, 0x00, 0x00,
    0x01, 0x00, 0x00, 0x00, 0x00, 0x00, 0x00, 0x00, 0x01, 0x00, 0x00, 0x00, 0x01, 0x00, 0x00, 0x00,
    0xE3, 0xB0, 0xC4, 0x42, 0x98, 0xFC, 0x1C, 0x14, 0x9A, 0xFB, 0xF4, 0xC8, 0x99, 0x6F, 0xB9, 0x24,
    0x27, 0xAE, 0x41, 0xE4, 0x64, 0x9B, 0x93, 0x4C, 0xA4, 0x95, 0x99, 0x1B, 0x78, 0x52, 0xB8, 0x55] ++ NvSt.madeSig ++ List.replicate 128 0

/-- R476: the nominal coefficients at each operating point, in fJ, rounded to nearest. -/
def NvSt.madeCoef : List Nat := [
    93402, 106970, 74203, 521, 78, 48000, 20000, 15000, 230972000, 12000000,
    115135, 131860, 91469, 643, 96, 48000, 20000, 15000, 286116000, 12000000,
    139356, 159600, 110712, 778, 117, 48000, 20000, 15000, 358888000, 12000000,
    165900, 190000, 131800, 926, 139, 48000, 20000, 15000, 452000000, 12000000,
    194767, 223060, 154733, 1087, 163, 48000, 20000, 15000, 560028000, 12000000]

def NvSt.made : NvSt :=
  { bank0 := NvSt.madeIdent
    bank1 := NvSt.madeIdent
    flashA := { ident := NvSt.madeIdent }
    flashB := { ident := NvSt.madeIdent }
    slotA := NvSt.madeImage
    key0 := NvSt.madeKey
    coef := NvSt.madeCoef }

/-- The state right after reset: every register at its reset value, nothing listed in any memory or table, and the flash,
eFuse and Meter of a unit as made. -/
def State.reset : State := { nv := NvSt.made }

end Sys2Proof.Machine
end

