-- ==== Sys2Proof/Machine/Ops.lean ====
section
/-! DEFINITION. Named operations over the state: registers and their fields, cores, partitions, memories and marks,
the larder cache, device-address resolution, events, the error log and partition stops. -/

namespace Sys2Proof.Machine
open Sys2Proof

/-! ### Registers (R5-R7, R536, R542) -/

/-- Key of a 32-bit register word: page type, page number, byte offset in the 4 KiB page. -/
def regKey (typ inst off : Nat) : Nat := (typ * 65536 + inst % 65536) * 1024 + off / 4 % 1024

/-- Does row `r` describe byte offset `off` of its page? -/
def RegRow.covers (r : RegRow) (off : Nat) : Bool :=
  if r.reg.count = 1 then decide (off / 4 * 4 = r.reg.off)
  else decide (r.reg.off ≤ off) && decide ((off / 4 * 4 - r.reg.off) % r.reg.stride = 0) &&
    decide ((off / 4 * 4 - r.reg.off) / r.reg.stride < r.reg.count)

/-- The row of the register at an offset of a page type; none is an unassigned offset. -/
def findRow (typ off : Nat) : Option RegRow :=
  if off < 64 then commonRows.find? (fun r => r.covers off) else (typeRows typ).find? (fun r => r.covers off)

/-- R7: the reset value of a register word. -/
def regReset (typ off : Nat) : Word :=
  match findRow typ off with
  | some r => BitVec.ofNat 32 r.reset
  | none => 0

/-- The stored value of a register word. -/
def State.regAt (s : State) (typ inst off : Nat) : Word := tget s.regs (regKey typ inst off) (regReset typ off)

/-- Stores a register word. -/
def State.setRegAt (s : State) (typ inst off : Nat) (v : Word) : State :=
  { s with regs := tput s.regs (regKey typ inst off) v (regReset typ off) }

/-- Byte offset of element `k` of a register. -/
def Reg.offAt (r : Reg) (k : Nat) : Nat := r.off + r.stride * k

/-- Element `k` of a register of page `inst`. -/
def State.reg (s : State) (r : Reg) (inst k : Nat) : Nat := (s.regAt r.typ inst (r.offAt k)).toNat

/-- Stores element `k` of a register of page `inst`. -/
def State.setReg (s : State) (r : Reg) (inst k v : Nat) : State :=
  s.setRegAt r.typ inst (r.offAt k) (BitVec.ofNat 32 v)

/-- A word with bits `[hi:lo]` replaced. -/
def withBits (x hi lo v : Nat) : Nat :=
  x - bitsOf x hi lo * 2 ^ lo + v % 2 ^ (hi + 1 - lo) * 2 ^ lo

/-- A field of element `k` of a register of page `inst`. -/
def State.fld (s : State) (f : Fld) (inst k : Nat) : Nat := bitsOf (s.reg f.reg inst k) f.hi f.lo

/-- Stores a field of element `k` of a register of page `inst`. -/
def State.setFld (s : State) (f : Fld) (inst k v : Nat) : State :=
  s.setReg f.reg inst k (withBits (s.reg f.reg inst k) f.hi f.lo v)

/-- Adds 1 to a field, saturating at its width. -/
def State.incFld (s : State) (f : Fld) (inst k : Nat) : State :=
  s.setFld f inst k (satN (f.hi + 1 - f.lo) (s.fld f inst k + 1))

/-- A 64-bit value held in a _LO and a _HI register. -/
def State.reg64 (s : State) (lo hi : Reg) (inst k : Nat) : Nat := s.reg lo inst k + 2 ^ 32 * s.reg hi inst k

/-- Stores a 64-bit value in a _LO and a _HI register. -/
def State.setReg64 (s : State) (lo hi : Reg) (inst k v : Nat) : State :=
  (s.setReg lo inst k (v % 2 ^ 32)).setReg hi inst k (v / 2 ^ 32 % 2 ^ 32)

/-- A common register (R536) of the page of type `typ`. -/
def State.creg (s : State) (typ inst : Nat) (r : Reg) : Nat := (s.regAt typ inst r.off).toNat

/-- Stores a common register of the page of type `typ`. -/
def State.setCreg (s : State) (typ inst : Nat) (r : Reg) (v : Nat) : State :=
  s.setRegAt typ inst r.off (BitVec.ofNat 32 v)

/-- Every register of one page back to its reset value. -/
def State.resetPage (s : State) (typ inst : Nat) : State :=
  { s with regs := tclear s.regs (regKey typ inst 0) 1024 }

/-! ### Time -/

/-- Time has come to `t` ns of the monotonic counter, which never goes back (R491). (Log 5: DESIGN CHOICE.) -/
def State.toTime (s : State) (t : Nat) : State := { s with mono := max s.mono t }

/-! ### Cores and partitions -/

def State.core (s : State) (c : Nat) : CoreSt := tget s.cores c {}
def State.setCore (s : State) (c : Nat) (x : CoreSt) : State := { s with cores := tput s.cores c x {} }
def State.modCore (s : State) (c : Nat) (f : CoreSt → CoreSt) : State := s.setCore c (f (s.core c))
def State.part (s : State) (p : Nat) : PartSt := tget s.parts p {}
def State.setPart (s : State) (p : Nat) (x : PartSt) : State := { s with parts := tput s.parts p x {} }
def State.modPart (s : State) (p : Nat) (f : PartSt → PartSt) : State := s.setPart p (f (s.part p))

def State.room (s : State) (r : Nat) : RoomPwr := tget s.pwr.rooms r {}
def State.setRoom (s : State) (r : Nat) (x : RoomPwr) : State :=
  { s with pwr := { s.pwr with rooms := tput s.pwr.rooms r x {} } }
def State.modRoom (s : State) (r : Nat) (f : RoomPwr → RoomPwr) : State := s.setRoom r (f (s.room r))

/-- The partition that holds a global logical slice. -/
def State.partOfSlice (s : State) (sl : Nat) : Option Nat :=
  (s.parts.find? (fun e => e.2.tiles.contains sl)).map (fun e => e.1)

/-- The partition a core belongs to. -/
def State.partOfCore (s : State) (c : Nat) : Option Nat := s.partOfSlice (c / 4)

/-- R247: the partition core index of a global core. -/
def PartSt.indexOf (p : PartSt) (c : Nat) : Nat := 4 * p.tiles.idxOf (c / 4) + c % 4

/-- R247: the global core of a partition core index. -/
def PartSt.coreAt (p : PartSt) (i : Nat) : Nat := 4 * p.tiles.getD (i / 4) 0 + i % 4

/-- Every core of a partition, ascending. -/
def PartSt.cores (p : PartSt) : List Nat := (List.range (4 * p.tiles.length)).map p.coreAt

/-- The loaded harness, or an empty one. -/
def PartSt.harness (p : PartSt) : Harness := p.harn.getD {}

/-- The program header of a core of a partition. -/
def PartSt.hdr (p : PartSt) (c : Nat) : ProgHdr := p.harness.progs.getD (p.indexOf c) {}

/-- The physical room behind a logical room (R25). -/
def State.physRoom (s : State) (lr : Nat) : Nat :=
  10 * s.fld F.GLB_ROOM_MAP_PHYS_Y 0 lr + s.fld F.GLB_ROOM_MAP_PHYS_X 0 lr

/-- The physical tile behind a logical tile of a logical room (R27). -/
def State.physTile (s : State) (lr t : Nat) : Nat := s.fld F.ROOM_TILE_MAP_PHYS_TILE (s.physRoom lr) t

/-- R132: the number of the physical array behind array `a` of a core. -/
def State.physArray (s : State) (c a : Nat) : Nat :=
  (36 * s.physRoom (c / 128) + s.physTile (c / 128) (c / 4 % 32)) * 8 + c % 4 * 2 + a

/-- R85, R131, R165: raises the local vote of a partition's step. -/
def State.raiseVote (s : State) (p v : Nat) : State := s.modPart p (fun x => { x with vote := max x.vote v })

/-- Replaces one array of a core. -/
def CoreSt.arr (c : CoreSt) (a : Nat) : ArrSt := if a = 0 then c.arr0 else c.arr1
def CoreSt.setArr (c : CoreSt) (a : Nat) (x : ArrSt) : CoreSt := if a = 0 then { c with arr0 := x } else { c with arr1 := x }

/-! ### Vector registers (R143) -/

def CoreSt.lane (c : CoreSt) (r l : Nat) : Word := tget c.vr (r * 64 + l) 0
/-- Lanes 0-1 or 2-3 as a 64-bit little-endian word. -/
def CoreSt.lane64 (c : CoreSt) (r l : Nat) : Nat := (c.lane r l).toNat + 2 ^ 32 * (c.lane r (l + 1)).toNat
/-- Writes every lane of a register. -/
def CoreSt.setVr (c : CoreSt) (r : Nat) (f : Nat → Word) : CoreSt :=
  { c with vr := (List.range 64).foldl (fun t l => tput t (r * 64 + l) (f l) 0) c.vr }

/-! ### Byte memories -/

/-- `n` bytes of a byte memory from `k`; unlisted bytes read 0. (Log 9: DESIGN CHOICE.) -/
def memRead (m : List Host.Cell) (k n : Nat) : Bytes := (List.range n).map (fun i => tget m (k + i) 0)

/-- Writes bytes from `k`, keeping the canonical form. -/
def memWrite (m : List Host.Cell) (k : Nat) : Bytes → List Host.Cell
  | [] => m
  | b :: bs => memWrite (tput m k b 0) (k + 1) bs

/-- Pantry key of an offset of a core. -/
def pantryKey (core off : Nat) : Nat := core * 2 ^ 21 + off
/-- Bytes of a larder slice. -/
def sliceBytes : Nat := 12 * 2 ^ 20
/-- Larder key of an offset of a global logical slice. -/
def larderKey (slice off : Nat) : Nat := slice * sliceBytes + off

/-- The marked units, of `u` bytes, that `n` bytes from `k` touch. -/
def unitsOf (u k n : Nat) : List Nat := if n = 0 then [] else (List.range ((k + n - 1) / u + 1 - k / u)).map (fun i => k / u + i)

/-- R520, R522: marks after a write of `n` bytes at `k`: a marked datum marks every unit it touches; a clean one clears
the units it covers whole and leaves the others. -/
def markWrite (marks : List Nat) (u k n : Nat) (marked : Bool) : List Nat :=
  (unitsOf u k n).foldl (fun ms i =>
    if marked then setAdd ms i
    else if k ≤ i * u ∧ (i + 1) * u ≤ k + n then setDel ms i else ms) marks

/-- Does a read of `n` bytes at `k` meet a marked unit? -/
def markRead (marks : List Nat) (u k n : Nat) : Bool := (unitsOf u k n).any (fun i => marks.contains i)

end Sys2Proof.Machine
end

