-- ==== Sys2Proof/Machine/Event.lean ====
section
/-! DEFINITION. Writes to host memory, event rings (R398-R401, R529, R539), the error log (R525-R527), the end of a
request and the stop of a partition. -/

namespace Sys2Proof.Machine
open Sys2Proof

/-- R386: the port of a function: partitions 0-255 port A, 256-511 port B; 512 and 513 are the PF of each port. -/
def portOf (fn : Nat) : Nat := if fn < 256 then 0 else if fn < 512 then 1 else fn - 512

/-- The device writes bytes to host memory through a port. -/
def State.hostWrite (s : State) (port bus : Nat) (bs : Bytes) : State :=
  { s with host := { s.host with mem := memWrite s.host.mem (port * 2 ^ 64 + bus % 2 ^ 64) bs } }

/-- The PCIe link of a port is up. -/
def State.linkUp (s : State) (port : Nat) : Bool := s.fld F.PCIE_LINK_STAT_RATE port 0 != 0

/-- An MSI-X signal of a function's vector. -/
def State.signal (s : State) (fn vec : Nat) : State :=
  { s with host := { s.host with msix := s.host.msix ++ [(fn, vec)] } }

/-- R391: LOG2 of a ring, 4-16. (Log 81: DEDUCED.) -/
def clampLog2 (x : Nat) : Nat := max 4 (min 16 x)

/-- R398: the 32 bytes of an event record. -/
def eventRecord (mono code flags typ inst part : Nat) (payload : Bytes) : Bytes :=
  leBytes 2 code ++ leBytes 1 flags ++ leBytes 1 (mono / (1000 * 2 ^ 32) % 256) ++
    leBytes 4 (mono / 1000 % 2 ^ 32) ++ leBytes 2 typ ++ leBytes 2 inst ++ leBytes 2 part ++ leBytes 2 0 ++
    (padTo payload 16).take 16

/-- R400: an event record goes to the host, and its vector is signalled; while the link is down it waits. -/
def State.sendEvent (s : State) (w : LateEvent) : State :=
  if s.linkUp w.port then
    let s := s.hostWrite w.port w.bus w.data
    match w.irq with
    | some v => s.signal v.1 v.2
    | none => s
  else { s with host := { s.host with late := s.host.late ++ [w] } }

/-- R400: the event records that waited for a port's link go out. -/
def State.sendLate (s : State) (port : Nat) : State :=
  (s.host.late.filter (fun w => w.port == port)).foldl (fun (s : State) w => s.sendEvent w)
    { s with host := { s.host with late := s.host.late.filter (fun w => w.port != port) } }

/-- R400: posts an event to one event ring (page instance `e` of type 0x51): a ring keeps one free entry for
EPOCH_ROLL (`roll`); without room the event is dropped, counted and marked LOST in the next record. The record waits while
the link of the ring's function is down. (Logs 82, 156: DEDUCED.) -/
def State.postRing (s : State) (e code typ inst part : Nat) (payload : Bytes) (roll : Bool) : State :=
  if s.fld F.RING_EVT_CFG_EN e 0 = 0 then s
  else
    let n := 2 ^ clampLog2 (s.fld F.RING_EVT_CFG_LOG2 e 0)
    let head := s.fld F.RING_EVT_HEAD_HEAD e 0
    let tail := s.fld F.RING_EVT_TAIL_TAIL e 0
    let free := (head + n - 1 - tail % n) % n
    let x := tget s.host.evs e {}
    if free < (if roll then 1 else 2) then
      let s := s.incFld F.RING_EVT_LOST_COUNT e 0
      { s with host := { s.host with evs := tput s.host.evs e { x with lostFlag := true } {} } }
    else
      let fn := if e < 512 then e else e - 512 + 512
      let bus := s.reg64 RG.RING_EVT_BASE_LO RG.RING_EVT_BASE_HI e 0 + 32 * tail
      let bs := eventRecord s.mono code (b2n x.phase + 2 * b2n x.lostFlag) typ inst part payload
      let irq := if s.fld F.RING_EVT_CFG_IRQ e 0 = 1 then some (fn, s.fld F.RING_EVT_CFG_VECTOR e 0) else none
      let t' := (tail + 1) % n
      let s := s.setFld F.RING_EVT_TAIL_TAIL e 0 t'
      let x' : EvX := { phase := if t' = 0 then !x.phase else x.phase, lostFlag := false }
      let s := { s with host := { s.host with evs := tput s.host.evs e x' {} } }
      s.sendEvent { ring := e, port := portOf fn, bus := bus, data := bs, irq := irq }

/-- R501, R519: the recovery mode, in which no event is posted and no error logged. (Log 143: DEDUCED.) -/
def State.recovery (s : State) : Bool := decide (s.fld F.TACK_BRINGUP_FAIL 0 0 = 1)

/-- R400, R529, R539: the block (`typ`, `inst`) posts an event; `part` is none when it names no partition.
(Log 83: DEDUCED.) -/
def State.post (s : State) (code typ inst : Nat) (part : Option Nat) (payload : Bytes) : State :=
  if s.recovery then s
  else
    let b := evtBit code
    let en := bitOf (s.creg typ inst RG.EVT_EN) b || decide (code / 4096 = 15) || decide (code = Ev.EPOCH_ROLL)
    let s := s.setCreg typ inst RG.EVT_STAT (s.creg typ inst RG.EVT_STAT ||| 2 ^ b)
    let pn := part.getD 0xFFFF
    let roll := decide (code = Ev.EPOCH_ROLL)
    let s := if en then (s.postRing 0x200 code typ inst pn payload roll).postRing 0x201 code typ inst pn payload roll
      else s
    match part with
    | some p => s.postRing p code typ inst pn payload roll
    | none => s

/-- R526, R527: a new record of the error log. -/
def State.addError (s : State) (kind sev : Nat) (part : Option Nat) (typ inst addr : Nat) : State :=
  let r : ErrRec := ⟨s.err.count % 2 ^ 32, kind, sev, part.getD 0xFFFF, typ, inst, 1, addr, s.mono⟩
  { s with err := { s.err with log := (r :: s.err.log).take 4096, count := s.err.count + 1 } }

/-- R527, R529: ECC_CE of a block for a corrected detection in the record `payload` names, at most once a second. -/
def State.postCe (s : State) (part : Option Nat) (typ inst : Nat) (payload : Bytes) : State :=
  let bk := typ * 65536 + inst
  -- the time of the last ECC_CE post of the block, plus 1; 0 when there was none
  let last := tget s.err.lastCe bk 0
  if last = 0 ∨ last - 1 + 10 ^ 9 ≤ s.mono then
    let s := { s with err := { s.err with lastCe := tput s.err.lastCe bk (s.mono + 1) 0 } }
    s.post Ev.ECC_CE typ inst part payload
  else s

/-- R525-R527: one detection of an error: kind, severity (0 corrected, 1 uncorrectable, 2 resent), partition met,
detecting block, address. Corrected and resent detections merge into a record of the same kind and address written within
the preceding second. (Log 165: DEDUCED.) -/
def State.logError (s : State) (kind sev : Nat) (part : Option Nat) (typ inst addr : Nat) : State :=
  if s.recovery then s
  else
    let s := if sev = 0 then s.setCreg typ inst RG.ERR_CE_CNT (sat32 (s.creg typ inst RG.ERR_CE_CNT + 1))
      else if sev = 1 then s.setCreg typ inst RG.ERR_UE_CNT (sat32 (s.creg typ inst RG.ERR_UE_CNT + 1)) else s
    let setA := decide (sev = 1) || (decide (sev = 0) && decide (s.creg typ inst RG.ERR_UE_CNT = 0))
    let s := if setA then (s.setCreg typ inst RG.ERR_ADDR_LO (addr % 2 ^ 32)).setCreg typ inst RG.ERR_ADDR_HI
      (addr / 2 ^ 32 % 2 ^ 32) else s
    let old := s.err.log.find? (fun r => decide (sev ≠ 1) && decide (r.addr = addr) && decide (r.sev = sev) &&
      decide (r.kind = kind) && decide (s.mono < r.mono + 10 ^ 9))
    let payload := fun (q : Nat) => leBytes 4 q ++ leBytes 1 kind ++ leBytes 3 0 ++ leBytes 8 addr
    match old with
    | some r0 =>
      let s := { s with err := { s.err with log := s.err.log.map (fun r =>
        if r = r0 then { r with count := satN 16 (r.count + 1) } else r) } }
      if sev = 0 then s.postCe part typ inst (payload r0.seq) else s
    | none =>
      let q := s.err.count % 2 ^ 32
      let s := s.addError kind sev part typ inst addr
      if sev = 1 then s.post Ev.ECC_UE typ inst part (payload q)
      else if sev = 0 then s.postCe part typ inst (payload q)
      else s

/-! ### Wall time (R491, R493) -/

/-- The part of a slew `d` absorbed after `dt` ns, at 1,000 ppm. -/
def slewed (d : Int) (dt : Nat) : Int :=
  if 0 ≤ d then min d ((dt / 1000 : Nat) : Int) else max d (-((dt / 1000 : Nat) : Int))

/-- Wall time now, in TAI ns; 0 while it is unset. (Log 93: DEDUCED.) -/
def State.tai (s : State) : Nat :=
  let dt := s.mono - s.time.mono
  if s.time.set then (((s.time.wall + dt : Nat) : Int) + slewed s.time.slew dt).toNat else 0

/-! ### Requests and stops -/

/-- Key of ring `r` of a function: partition 0-511, or 512 for the PF (R390). -/
def ringKey (fn r : Nat) : Nat := fn * 128 + r

def State.ringX (s : State) (k : Nat) : RingX := tget s.host.rings k {}
def State.setRingX (s : State) (k : Nat) (x : RingX) : State :=
  { s with host := { s.host with rings := tput s.host.rings k x {} } }

/-- The request in progress on a ring. -/
def State.req (s : State) (k : Nat) : Option Req := (s.ringX k).req

/-- Replaces the request in progress on a ring. -/
def State.setReq (s : State) (k : Nat) (r : Option Req) : State := s.setRingX k { s.ringX k with req := r }

/-- R474: the class and method of a partition's line: whole rooms, and tiles of other rooms. -/
def PartSt.wholeRoom (x : PartSt) (lr : Nat) : Bool := (List.range 32).all (fun i => x.tiles.contains (32 * lr + i))
def PartSt.method (x : PartSt) : Nat :=
  let whole := x.tiles.any (fun t => x.wholeRoom (t / 32))
  let part := x.tiles.any (fun t => !x.wholeRoom (t / 32))
  if whole && !part then 1 else if whole then 3 else 2
def PartSt.mclass (x : PartSt) : Nat := if x.method = 1 then 0 else 1

/-- The firmware ABI in force (R512). -/
def State.fwAbi (s : State) : Nat := s.reg RG.TACK_FW_ABI_SEL 0 0

/-- R480: the receipt of a request that has ended. -/
def State.receiptOf (s : State) (p ring : Nat) (r : Req) : Rcpt :=
  let x := s.part p
  let disc := s.fld F.TIME_DISC_COUNT 0 0
  { id := s.mtr.nextRcpt, fn := p, ring := ring, rring := r.rring, seq := r.seq, last := r.seq, cls := x.mclass,
    method := x.method, fwAbi := s.fwAbi, calId := s.reg RG.MTR_CAL_ID 0 0,
    flags := b2n r.shortW + 2 * b2n r.shortB + 8 * b2n (disc != r.startDisc) +
      16 * b2n (r.unsynced || s.fld F.TIME_STAT_UNSYNCED 0 0 == 1),
    monoStart := r.startMono, monoEnd := r.endMono, taiStart := r.startTai, disc := disc, energy := r.energy,
    audit := if r.steps = 0 then [] else r.audit, opened := s.fld F.MTR_SIGNED_BUDGET 0 0 == 0 }

/-- R482: may receipt `r` merge into the open receipt `o`? -/
def Rcpt.mayMerge (o r : Rcpt) : Bool :=
  o.opened && o.signed.isNone && o.fn == r.fn && o.ring == r.ring && r.seq == (o.last + 1) % 2 ^ 64 && o.rring == r.rring &&
    o.cls == r.cls && o.method == r.method && o.fwAbi == r.fwAbi && o.calId == r.calId && decide (o.count < 65535)

/-- R482: the merge. -/
def Rcpt.merge (o r : Rcpt) : Rcpt :=
  { o with last := r.last, count := o.count + 1, monoEnd := r.monoEnd, energy := o.energy + r.energy, disc := r.disc,
           flags := o.flags ||| r.flags ||| 4 ||| (if o.disc = r.disc then 0 else 8),
           audit := if r.audit = [] then o.audit else r.audit }

/-- R478, R479, R482, R483: a request of a VF ring has ended: its share of the interval is still to come, and its
receipt, if it asked for one, falls due. -/
def State.receiptDue (s : State) (p ring : Nat) (r : Req) : State :=
  let rc := s.receiptOf p ring r
  if r.flags % 2 = 0 ∨ r.status = some St.PARTITION_GONE then
    { s with mtr := { s.mtr with ended := s.mtr.ended ++ [(p, r.startMono, r.endMono, 0)] } }
  else match s.mtr.due.find? (fun o => o.mayMerge rc) with
  | some o =>
    let o' := o.merge rc
    let s := { s with mtr := { s.mtr with
      due := s.mtr.due.map (fun (q : Rcpt) => if q.id = o.id then o' else q)
      ended := s.mtr.ended ++ [(p, r.startMono, r.endMono, o.id)] } }
    let s := s.setReg RG.MTR_ROLLUPS 0 0 (sat32 (s.reg RG.MTR_ROLLUPS 0 0 + 1))
    if o.count = 1 then s.post Ev.RECEIPT_ROLLUP 0x40 0 (some p) (leBytes 1 ring ++ List.replicate 7 0 ++ leBytes 8 o.seq) else s
  | none =>
    { s with mtr := { s.mtr with
        due := s.mtr.due ++ [rc]
        nextRcpt := s.mtr.nextRcpt + 1
        ended := s.mtr.ended ++ [(p, r.startMono, r.endMono, rc.id)] } }

/-- The request on ring `k` ends with a status, when one is in progress and has none yet (R394-R396); the status of a
LOAD_HARNESS stands in TACK_HARN_LOAD_STATUS from then on (R275). -/
def State.endReq (s : State) (k status : Nat) : State :=
  match s.req k with
  | some r =>
    if r.status.isNone then
      let r := { r with status := some status, endMono := s.mono, endTai := s.tai }
      let s := s.setReq k (some r)
      let s := if k / 128 < 512 ∧ r.op = 1 then s.setFld F.TACK_HARN_LOAD_STATUS_STATUS (k / 128) 0 status else s
      if k / 128 < 512 then s.receiptDue (k / 128) (k % 128) r else s
    else s
  | none => s

/-- A replay of the partition is running. -/
def PartSt.replaying (x : PartSt) : Bool := x.long.replay.isSome

/-- R221, R331: the partition runs in ordered mode: its harness asks for it, or a replay runs. -/
def PartSt.ordered (x : PartSt) : Bool := x.harness.ordered || x.replaying

/-- R569: what ends with an attempt: values of scalar loads still to come are discarded and no core waits for them; array
instructions that have not drained end with it, so nothing waits for them either. -/
def CoreSt.endAttempt (c : CoreSt) : CoreSt :=
  { c with
    arr0 := { c.arr0 with waiting := none, running := [] }
    arr1 := { c.arr1 with waiting := none, running := [] }
    loads := []
    atBarrier := none
    outs := (c.outs.filter (fun o => o.isStore || o.fabric)).map (fun o => { o with isLoad := false }) }

/-- Applies `f` to every core of a partition. -/
def State.forCores (s : State) (p : Nat) (f : CoreSt → CoreSt) : State :=
  (s.part p).cores.foldl (fun s c => s.modCore c f) s

/-- The attempt that runs ends uncommitted. -/
def State.abandon (s : State) (p : Nat) : State :=
  (s.forCores p CoreSt.endAttempt).modPart p (fun x => { x with running := false, closed := false })

/-- A partition stops with a status: the attempt ends uncommitted and the RUN_STEPS request in progress completes with
the stop status (R394). A partition already stopped keeps its first status. -/
def State.stopPart (s : State) (p status : Nat) : State :=
  if (s.part p).stopped.isSome || (s.part p).pstate ≠ .live then s
  else
    let s := s.abandon p
    let s := match (s.part p).run with
      | some k => s.endReq k status
      | none => s
    s.modPart p (fun x => { x with stopped := some status, run := none })

/-- R388: the partition is held after a Function Level Reset; a replay that lost its request ends there. -/
def State.holdFlr (s : State) (p : Nat) : State :=
  (s.stopPart p St.FLR_HOLD).modPart p (fun x =>
    if x.long.replay.any (fun g => decide (2 ^ 20 ≤ g.key)) then { x with long := { x.long with replay := none } } else x)

/-- The partition runs an attempt and its cores may act. -/
def PartSt.active (p : PartSt) : Bool := p.running && p.stopped.isNone && !p.closed

end Sys2Proof.Machine
end

