-- ==== Sys2Proof/Machine/Mem.lean ====
section
/-! DEFINITION. Device addresses and the stores behind them: translation (R3, R175, R189, R199, R247, R291, R403),
refused writes (R155, R293, R339), encryption and marks of the cellar (R193-R196, R520-R522), the larder cache
(R183-R186), and reads and writes of any device address. -/

namespace Sys2Proof.Machine
open Sys2Proof

/-! ### Placement -/

/-- R175: larder_place; none is ADDR_FAULT. -/
def larderPlace (a s l c : Nat) : Option (Nat × Nat) :=
  let pi := 3072 - l - c
  let ib := s * pi * 4096
  if a < ib then some (a / 4096 % s, a / 4096 / s * 4096 + a % 4096)
  else
    let lsz := l * 4096
    if 0 < l ∧ a < ib + s * lsz then some ((a - ib) / lsz, pi * 4096 + (a - ib) % lsz) else none

/-- R189: cellar_place: controller, package, sub-channel, rank, bank, row, column, byte. -/
def cellarPlace (a : Nat) : Nat × Nat × Nat × Nat × Nat × Nat × Nat × Nat :=
  let g := a / 256
  let h := g / 96
  let u := h / 2
  (g % 96, h % 2, a / 64 % 4, u / 512 % 2, u / 32 % 16, u / 1024, u % 32, a % 64)

/-- R189: the controller of a native cellar offset. -/
def cellarCtl (a : Nat) : Nat := a / 256 % 96

/-- R199: stack_view without its base; none is ADDR_FAULT. -/
def stackView (a : Nat) : Option Nat :=
  if a < 2 ^ 39 then some a
  else if a < 2 ^ 40 then
    let q := a / 2 ^ 36 % 8 * 32 + a / 2 ^ 31 % 32
    let o := a % 2 ^ 31
    some (o / 256 * 2 ^ 16 + q * 256 + o % 256)
  else none

/-- Space of a device address. -/
def spaceOf (a : Nat) : Nat := a / 2 ^ 60 % 16

/-- 1 GiB. -/
def gib : Nat := 2 ^ 30

/-- R190: the installed cellar in bytes, by the unit's order code (ID_UNIT.ORDER: 0 A06, 1 A12). -/
def State.cellarSize (s : State) : Nat := if s.fld F.ID_UNIT_ORDER 0 0 = 1 then 0xC0000000000 else 0x60000000000

def State.cellBase (s : State) (p : Nat) : Nat := s.fld F.TACK_PART_CELL_BASE_GIB p 0 * gib
def State.cellLen (s : State) (p : Nat) : Nat := s.fld F.TACK_PART_CELL_SIZE_GIB p 0 * gib
def State.eccOn (s : State) (p : Nat) : Bool := decide (s.fld F.CELL_PART_CFG_ECC_ON p 0 = 1)

/-- R193: the addressable cellar of a partition: its range, less 1/32 with inline ECC. -/
def State.cellCap (s : State) (p : Nat) : Nat :=
  if s.eccOn p then s.cellLen p / 32 * 31 else s.cellLen p

/-- A larder offset of a partition as a larder key. -/
def PartSt.larderKey (x : PartSt) (off : Nat) : Option Nat :=
  (larderPlace off x.tiles.length x.harness.localPages x.harness.cachePages).map
    (fun jo => Machine.larderKey (x.tiles.getD jo.1 0) jo.2)

/-- The partition's larder offset of a larder key outside its cache region (R175). -/
def PartSt.larderOff (x : PartSt) (key : Nat) : Nat :=
  let j := x.tiles.idxOf (key / sliceBytes)
  let o := key % sliceBytes
  let l := x.harness.localPages * 4096
  let ib := 12582912 - l - x.harness.cachePages * 4096
  if o < ib then (o / 4096 * x.tiles.length + j) * 4096 + o % 4096 else x.tiles.length * ib + j * l + (o - ib)

/-- R183: is a partition cellar offset inside the cache window? -/
def Harness.inWindow (h : Harness) (off : Nat) : Bool :=
  decide (h.cacheBaseGib * gib ≤ off) && decide (off < h.cacheLimitGib * gib)

/-- Who makes an access: a core, the host path (or another agent of the partition), or Bridle. -/
inductive Via where
  | core (c : Nat)
  | agent
  deriving DecidableEq, Repr

/-- The partition's cellar offset of a space 0x3 address (R199, R291); none is ADDR_FAULT. -/
def PartSt.cellarOff (x : PartSt) (addr : Nat) : Option Nat :=
  let view := addr / 2 ^ 56 % 4
  let off := addr % 2 ^ 44
  let h := x.harness
  if addr / 2 ^ 58 % 4 ≠ 0 then none
  else if view = 0 then
    if addr / 2 ^ 44 % 2 ^ 12 ≠ 0 then none
    else if h.stackView then (stackView off).map (fun n => h.stackBaseGib * gib + n) else some off
  else if view = 3 then none
  else
    match h.cur.pairs[addr / 2 ^ 44 % 2 ^ 12]? with
    | none => none
    | some e =>
      if off < e.len then some ((if e.parity == decide (view = 1) then e.bBase else e.aBase) + off) else none

/-- R3, R403: the location a device address of partition `p` names, for an access of `n` bytes that stays within one
64 B unit. The error is the refusal status. -/
def State.resolve (s : State) (p : Nat) (via : Via) (addr n : Nat) : Except Nat Loc :=
  let x := s.part p
  let bad : Except Nat Loc := .error St.ADDR_FAULT
  match addr / 2 ^ 60 % 16 with
  | 0 =>
    match via with
    | .core c => if addr + n ≤ 2 ^ 21 then .ok (.pantry (pantryKey c addr)) else bad
    | .agent => bad
  | 1 =>
    let a := addr % 2 ^ 60
    let i := a / 2 ^ 22
    let off := a % 2 ^ 22
    if 2 ^ 36 ≤ a then bad
    else if off + n ≤ 2 ^ 21 ∧ i < 4 * x.tiles.length then .ok (.pantry (pantryKey (x.coreAt i) off)) else bad
  | 2 =>
    let a := addr % 2 ^ 60
    if 2 ^ 36 ≤ a then bad
    else match x.larderKey a, x.larderKey (a + n - 1) with
      | some k, some _ => .ok (.larder k)
      | _, _ => bad
  | 3 =>
    match x.cellarOff addr with
    | none => bad
    | some off =>
      let nat := off + s.cellBase p
      if off + n ≤ s.cellCap p ∧ nat + n ≤ s.cellarSize then
        .ok (if x.harness.inWindow off then .cached nat else .cellar nat) else bad
  | 4 => .ok (.bridle (addr / 2 ^ 44 % 2 ^ 16) (addr % 2 ^ 44))
  | 5 =>
    let w := addr / 2 ^ 40 % 16
    let off := addr % 2 ^ 40
    if addr / 2 ^ 44 % 2 ^ 16 ≠ 0 then bad
    else if off + n ≤ 4096 * s.reg RG.TACK_PART_HWIN_LEN p w then
      .ok (.host (portOf p) (s.reg64 RG.TACK_PART_HWIN_LO RG.TACK_PART_HWIN_HI p w + off))
    else bad
  | _ => bad

/-- Two byte ranges overlap. -/
def overlaps (a n b m : Nat) : Bool := decide (a < b + m) && decide (b < a + n) && decide (0 < n) && decide (0 < m)

/-- R155: does a write of `n` bytes at pantry offset `off` of core `c` fall in its instruction or record region? -/
def PartSt.inProgram (x : PartSt) (c off n : Nat) : Bool :=
  x.harn.isSome && (let h := x.hdr c
    overlaps off n h.instrBase h.instrLen || overlaps off n h.recBase h.recLen)

/-- R339: the journal or a checkpoint area holds the partition cellar offset range. -/
def State.inLongArea (s : State) (p off n : Nat) : Bool :=
  overlaps off n (s.fld F.TACK_JRNL_AREA_BASE_GIB p 0 * gib) (s.fld F.TACK_JRNL_AREA_SIZE_GIB p 0 * gib) ||
  overlaps off n (s.fld F.TACK_CKPT_AREA_BASE_GIB p 0 * gib) (s.fld F.TACK_CKPT_AREA_SIZE_GIB p 0 * gib)

/-- R155, R293, R339: is a write by the partition to `addr` refused, beyond what `resolve` refuses? -/
def State.writeRefused (s : State) (p addr n : Nat) (l : Loc) : Bool :=
  let x := s.part p
  match l with
  | .pantry k => x.inProgram (k / 2 ^ 21) (k % 2 ^ 21) n
  | .cellar nat | .cached nat =>
    let off := nat - s.cellBase p
    let view := addr / 2 ^ 56 % 4
    s.inLongArea p off n || decide (view = 1) ||
      (decide (view = 0) && x.harness.cur.pairs.any (fun e => overlaps off n e.aBase e.len || overlaps off n e.bBase e.len))
  | _ => false

/-! ### The cellar -/

/-- R196: the plaintext of one burst as partition key `k` reads it. -/
def State.burst (s : State) (k b : Nat) : Bytes :=
  let stored := memRead s.cellar (64 * b) 64
  let tag := tget s.cellKey b 0
  if k = 0 ∨ tag = k then stored
  else xtsDec k b (if tag = 0 then stored else xtsEnc tag b stored)

/-- `n` bytes of the cellar from a native offset, as key `k` reads them. -/
def State.cellarRead (s : State) (k nat n : Nat) : Bytes :=
  let us := unitsOf 64 nat n
  slice (us.flatMap (s.burst k)) (nat % 64) n

/-- R191: writes bytes under key `k`: each burst touched is read, merged and written whole. -/
def State.cellarWrite (s : State) (k nat : Nat) (bs : Bytes) : State :=
  (unitsOf 64 nat bs.length).foldl (fun s b =>
    let lo := max nat (64 * b)
    let hi := min (nat + bs.length) (64 * b + 64)
    let old := s.burst k b
    let new := old.take (lo - 64 * b) ++ slice bs (lo - nat) (hi - lo) ++ old.drop (hi - 64 * b)
    { s with cellar := memWrite s.cellar (64 * b) new, cellKey := tput s.cellKey b k 0 }) s

/-- R520, R521: marks of a cellar write of partition `p`: with ECC_ON the check bits carry them, without it a mark has
nowhere to go and MARK_LOST is posted. (Log 22: DEDUCED.) -/
def State.cellarMarkWrite (s : State) (p nat n : Nat) (marked : Bool) : State :=
  if s.eccOn p then { s with cellarMark := markWrite s.cellarMark 64 nat n marked }
  else if marked then
    let addr := 3 * 2 ^ 60 + (nat - s.cellBase p)
    let q := s.err.count % 2 ^ 32
    let s := if s.recovery then s else s.addError 12 1 (some p) 0x30 (cellarCtl nat) addr
    s.post Ev.MARK_LOST 0x30 (cellarCtl nat) (some p) (leBytes 4 q ++ leBytes 4 0 ++ leBytes 8 addr)
  else s

/-! ### The larder cache (R185) -/

/-- The home of a native granule: global slice, set, and the key of its set in State.cache. -/
def PartSt.cacheHome (x : PartSt) (g : Nat) : Nat × Nat :=
  let n := x.tiles.length
  (x.tiles.getD (g % n) 0, g / n % (2 * x.harness.cachePages))

/-- Larder key of way `w` of a set of a slice: the cache region starts at page 3072 - C, 256 B a way. -/
def PartSt.lineKey (x : PartSt) (slice set way : Nat) : Nat :=
  Machine.larderKey slice ((3072 - x.harness.cachePages) * 4096 + (set * 8 + way) * 256)

/-- R186: writes one dirty line back to the cellar with its marks. -/
def State.writeBack (s : State) (p slice set : Nat) (l : CLine) : State :=
  let x := s.part p
  let key := x.lineKey slice set l.way
  if l.dirty then
    (List.range 4).foldl (fun s i =>
      let m := markRead s.larderMark 64 (key + 64 * i) 64
      let s := s.cellarWrite x.key (l.g * 256 + 64 * i) (memRead s.larder (key + 64 * i) 64)
      s.cellarMarkWrite p (l.g * 256 + 64 * i) 64 m) s
  else s

/-- R185: makes the line of a granule resident and most recently used; `whole` when the access overwrites all of it
and so does not read the cellar. Answers the larder key of its data. -/
def State.cacheTouch (s : State) (p g : Nat) (whole dirty : Bool) : State × Nat :=
  let x := s.part p
  let (slice, set) := x.cacheHome g
  let ck := slice * 8192 + set
  let lines := tget s.cache ck []
  match lines.find? (fun l => l.g = g) with
  | some l =>
    let l' := { l with dirty := l.dirty || dirty }
    ({ s with cache := tput s.cache ck (l' :: lines.filter (fun m => m.g != g)) [] }, x.lineKey slice set l.way)
  | none =>
    let full := decide (8 ≤ lines.length)
    let victim := lines.getLast?
    let s := match full, victim with
      | true, some v => s.writeBack p slice set v
      | _, _ => s
    let keep := if full then lines.dropLast else lines
    let way := match full, victim with
      | true, some v => v.way
      | _, _ => ((List.range 8).find? (fun w => keep.all (fun m => m.way != w))).getD 0
    let key := x.lineKey slice set way
    let s := if whole then s
      else
        let data := s.cellarRead x.key (g * 256) 256
        let s' := { s with larder := memWrite s.larder key data }
        (List.range 4).foldl (fun s i =>
          let m := markRead s.cellarMark 64 (g * 256 + 64 * i) 64
          { s with larderMark := markWrite s.larderMark 64 (key + 64 * i) 64 m }) s'
    ({ s with cache := tput s.cache ck (⟨g, way, dirty⟩ :: keep) [] }, key)

/-- The resident line of a granule. -/
def State.cacheLine (s : State) (p g : Nat) : Option CLine :=
  let h := (s.part p).cacheHome g
  (tget s.cache (h.1 * 8192 + h.2) []).find? (fun l => l.g == g)

/-- R185: the dirty line that gives way when granule `g` is made resident. -/
def State.cacheVictim (s : State) (p g : Nat) : Option CLine :=
  let h := (s.part p).cacheHome g
  let lines := tget s.cache (h.1 * 8192 + h.2) []
  match s.cacheLine p g, lines.getLast? with
  | none, some v => if decide (8 ≤ lines.length) && v.dirty then some v else none
  | _, _ => none

/-- R186: writes back every dirty line of a partition, then invalidates its cache. -/
def State.flushCache (s : State) (p : Nat) : State :=
  let mine := s.cache.filter (fun e => (s.part p).tiles.contains (e.1 / 8192))
  let s := mine.foldl (fun s e => e.2.foldl (fun s l => s.writeBack p (e.1 / 8192) (e.1 % 8192) l) s) s
  { s with cache := s.cache.filter (fun e => !(s.part p).tiles.contains (e.1 / 8192)) }

/-! ### Reads and writes of a location -/

/-- `n` bytes the spec leaves open. (Log 66: DEDUCED.) -/
def State.freeBytes (s : State) (n : Nat) : State × Bytes :=
  ({ s with free := s.free + n }, (List.range n).map (fun i => Config.freeByte (s.free + i)))

/-- Reads `n` bytes at a location on behalf of partition `p`: the state (a cache line may move), the bytes, and whether
a marked unit was met. Locations outside the device answer no bytes. -/
def State.readLoc (s : State) (p : Nat) (l : Loc) (n : Nat) : State × Bytes × Bool :=
  match l with
  | .pantry k => (s, memRead s.pantry k n, markRead s.pantryMark 32 k n)
  | .larder k => (s, memRead s.larder k n, markRead s.larderMark 64 k n)
  | .cellar nat => (s, s.cellarRead (s.part p).key nat n, markRead s.cellarMark 64 nat n)
  | .cached nat =>
    let (s, key) := s.cacheTouch p (nat / 256) false false
    let k := key + nat % 256
    (s, memRead s.larder k n, markRead s.larderMark 64 k n)
  | _ => (s, [], false)

/-- Writes bytes at a location on behalf of partition `p`, marked or clean. -/
def State.writeLoc (s : State) (p : Nat) (l : Loc) (bs : Bytes) (marked : Bool) : State :=
  match l with
  | .pantry k =>
    { s with pantry := memWrite s.pantry k bs, pantryMark := markWrite s.pantryMark 32 k bs.length marked }
  | .larder k =>
    { s with larder := memWrite s.larder k bs, larderMark := markWrite s.larderMark 64 k bs.length marked }
  | .cellar nat => (s.cellarWrite (s.part p).key nat bs).cellarMarkWrite p nat bs.length marked
  | .cached nat =>
    let (s, key) := s.cacheTouch p (nat / 256) (decide (nat % 256 = 0 ∧ bs.length = 256)) true
    let k := key + nat % 256
    { s with larder := memWrite s.larder k bs, larderMark := markWrite s.larderMark 64 k bs.length marked }
  | .host port bus => if marked then s else s.hostWrite port bus bs
  | .bridle _ _ => s

/-- The pieces of a range of device addresses that stay within one 64 B unit: address and length. -/
def pieces (addr n : Nat) : List (Nat × Nat) :=
  (unitsOf 64 addr n).map (fun b =>
    let lo := max addr (64 * b)
    (lo, min (addr + n) (64 * b + 64) - lo))

/-- R293, R326: a write by the partition through a pair's alternate view sets WRITTEN and makes a checkpoint slot that
records the written buffer as current stale. -/
def State.noteWrite (s : State) (p addr : Nat) : State :=
  if addr / 2 ^ 60 % 16 = 3 ∧ addr / 2 ^ 56 % 4 = 2 then
    s.modPart p (fun x =>
      match x.harn with
      | none => x
      | some h =>
        let i := addr / 2 ^ 44 % 2 ^ 12
        let e := h.cur.pairs.getD i {}
        -- the buffer written is B while PARITY is 0, A while it is 1
        let stale := fun (c : CkptSlot) => if c.valid && c.parity.getD i false != e.parity then { c with stale := true } else c
        { x with
          harn := some { h with cur := { h.cur with pairs := h.cur.pairs.set i { e with written := true } } }
          long := { x.long with ck0 := stale x.long.ck0, ck1 := stale x.long.ck1 } })
  else s

/-- Reads `n` bytes from a device address of partition `p`; an error is the refusal's status and the failing address. -/
def State.devRead (s : State) (p : Nat) (via : Via) (addr n : Nat) : Except (Nat × Nat) (State × Bytes × Bool) :=
  foldE (fun (a : State × Bytes × Bool) pc =>
    match a.1.resolve p via pc.1 pc.2 with
    | .error e => .error (e, pc.1)
    | .ok l =>
      let (s, b, k) := a.1.readLoc p l pc.2
      .ok (s, a.2.1 ++ b, a.2.2 || k)) (s, [], false) (pieces addr n)

/-- R185: a write of `n` bytes that covers whole cache lines takes them without a read of the cellar. -/
def State.claimLines (s : State) (p : Nat) (via : Via) (addr n : Nat) : State :=
  (unitsOf 256 addr n).foldl (fun s g =>
    if addr ≤ 256 * g ∧ 256 * g + 256 ≤ addr + n then
      match s.resolve p via (256 * g) 256 with
      | .ok (.cached nat) => (s.cacheTouch p (nat / 256) true true).1
      | _ => s
    else s) s

/-- Writes bytes to a device address of partition `p`; nothing is written when a piece is refused. -/
def State.devWrite (s : State) (p : Nat) (via : Via) (addr : Nat) (bs : Bytes) (marked : Bool) :
    Except (Nat × Nat) State :=
  let ps := pieces addr bs.length
  let bad := ps.find? (fun pc =>
    match s.resolve p via pc.1 pc.2 with
    | .error _ => true
    | .ok l => s.writeRefused p pc.1 pc.2 l)
  match bad with
  | some pc => .error (St.ADDR_FAULT, pc.1)
  | none =>
    .ok (ps.foldl (fun s pc =>
      match s.resolve p via pc.1 pc.2 with
      | .error _ => s
      | .ok l => (s.writeLoc p l (slice bs (pc.1 - addr) pc.2) marked).noteWrite p pc.1) (s.claimLines p via addr bs.length))

/-- The state of a read that cannot be refused to the caller: bytes, zero where refused. -/
def State.peek (s : State) (p : Nat) (via : Via) (addr n : Nat) : Bytes :=
  match s.devRead p via addr n with
  | .ok (_, bs, _) => bs
  | .error _ => List.replicate n 0

/-- A larder offset as a device address. -/
def larderAddr (off : Nat) : Nat := 2 * 2 ^ 60 + off

/-- Bytes at a larder offset of a partition. -/
def State.lard (s : State) (p off n : Nat) : Bytes := s.peek p .agent (larderAddr off) n

/-- The device's own write at a larder offset of a partition; outside the larder nothing is written. -/
def State.setLard (s : State) (p off : Nat) (bs : Bytes) : State :=
  match s.devWrite p .agent (larderAddr off) bs false with
  | .ok s' => s'
  | .error _ => s

/-- A larder integer atomic add of `n` bytes by the device; in a marked line it is not performed, raises the vote to
REPLAY (R521) and answers none. -/
def State.lardAdd (s : State) (p off n v : Nat) : State × Option Nat :=
  match s.devRead p .agent (larderAddr off) n with
  | .ok (s, bs, m) =>
    if m then (s.raiseVote p voteReplay, none)
    else (s.setLard p off (leBytes n (leNat bs + v)), some (leNat bs))
  | .error _ => (s, none)

end Sys2Proof.Machine
end

