-- ==== Sys2Proof/Machine/Operands.lean ====
section
/-! DEFINITION. Every operand form: bundle slots (R138, R141, R143, R148, R157), array, vector and copy records (R101,
R146, R159), the bundle a core stands at and the order of its slots (R139, R140), tensor descriptors and rows at use
(R45, R99, R100), and the detection of storage errors (R518, R520, R523). -/

namespace Sys2Proof.Machine
open Sys2Proof

/-! ### Slots and records -/

/-- A vector slot of R143. -/
structure VSlot where
  vop : Nat
  vd : Nat
  va : Nat
  vb : Nat
  vc : Nat
  fmt : Nat
  rnd : Nat
  imm : Nat
  deriving DecidableEq, Repr

def decodeV (x : Nat) : VSlot :=
  ⟨bitsOf x 7 0, bitsOf x 12 8, bitsOf x 17 13, bitsOf x 22 18, bitsOf x 27 23, bitsOf x 31 28, bitsOf x 33 32,
    bitsOf x 55 35⟩

/-- A vector operation record of R146. -/
structure VRec where
  rop : Nat
  rnd : Nat
  src : Nat
  dst : Nat
  row : Nat
  start : Nat
  count : Nat
  qcfg : Nat
  deriving DecidableEq, Repr

def decodeVRec (b : Bytes) : VRec :=
  ⟨fieldAt b 0 1, fieldAt b 1 1, fieldAt b 2 2, fieldAt b 4 2, fieldAt b 8 4, fieldAt b 12 4, fieldAt b 16 4,
    fieldAt b 20 4⟩

/-- R101: an array operation record. -/
def decodeArr (b : Bytes) : ArrRec :=
  let md := fieldAt b 1 1
  let sh := fieldAt b 2 1
  ⟨fieldAt b 0 1 % 16, bitOf md 0, bitOf md 1, bitOf md 2, bitOf md 3, bitsOf md 5 4, bitsOf md 7 6,
    16 * (bitsOf sh 1 0 + 1), 16 * (bitsOf sh 3 2 + 1), bitsOf sh 5 4, bitOf sh 6, bitOf sh 7, fieldAt b 3 1 % 4,
    fieldAt b 4 2, fieldAt b 6 2, fieldAt b 8 2, fieldAt b 10 2, fieldAt b 12 4, fieldAt b 16 4, fieldAt b 20 4,
    fieldAt b 24 4, fieldAt b 28 4, fieldAt b 32 4, fieldAt b 36 4⟩

/-- R159: a copy descriptor. -/
def decodeCopy (b : Bytes) : CopyDesc :=
  ⟨fieldAt b 0 1, fieldAt b 1 1 % 2, fieldAt b 2 2, fieldAt b 4 4, fieldAt b 8 8, fieldAt b 16 8, fieldAt b 24 4,
    fieldAt b 28 2, toSigned 64 (fieldAt b 32 8), toSigned 64 (fieldAt b 40 8), fieldAt b 48 8⟩

/-! ### The current bundle -/

/-- The 32 bytes of the bundle a core stands at. -/
def State.bundle (s : State) (p c : Nat) : Bytes :=
  memRead s.pantry (pantryKey c (((s.part p).hdr c).instrBase + 32 * (s.core c).pc)) 32

/-- Slot positions in the order of R140: 0 copy, 1 vector, 2 array A, 3 array B, 4 control. -/
def slotWord (b : Bytes) (pos : Nat) : Nat :=
  match pos with
  | 0 => fieldAt b 16 8
  | 1 => fieldAt b 8 8
  | 2 => fieldAt b 0 4
  | 3 => fieldAt b 4 4
  | _ => fieldAt b 24 8

/-- R138, R141, R144, R148, R157: is the slot a no-operation? -/
def slotNop (b : Bytes) (pos : Nat) : Bool :=
  match pos with
  | 0 => decide (slotWord b 0 % 4 = 0)
  | 1 => decide (slotWord b 1 % 256 = 0)
  | 4 => decide (slotWord b 4 % 16 = 0)
  | k => decide (slotWord b k % 2 = 0)

/-- The next slot to act on, at or after `pos`: 5 when only no-operations remain. -/
def nextSlot (b : Bytes) : Nat → Nat → Nat
  | 0, pos => pos
  | fuel + 1, pos => if 5 ≤ pos then 5 else if slotNop b pos then nextSlot b fuel (pos + 1) else pos

/-- The array operation record an array slot names (R141). -/
def State.arrRecord (s : State) (p c w : Nat) : ArrRec :=
  decodeArr (memRead s.pantry (pantryKey c (((s.part p).hdr c).recBase + 48 * bitsOf w 23 8)) 48)

/-- The vector operation record a VREC names (R146). -/
def State.vecRecord (s : State) (p c imm : Nat) : VRec :=
  decodeVRec (memRead s.pantry (pantryKey c (((s.part p).hdr c).recBase + 32 * imm)) 32)

/-- The copy descriptor an ISSUE names (R157). -/
def State.copyRecord (s : State) (p c w : Nat) : CopyDesc :=
  decodeCopy (memRead s.pantry (pantryKey c (((s.part p).hdr c).recBase + 64 * bitsOf w 31 16)) 64)

/-- Is the copy slot of a core FREE or DONE? -/
def CoreSt.slotIdle (c : CoreSt) (i : Nat) : Bool :=
  match tget c.slots i none with
  | none => true
  | some x => x.status.isSome

/-- Accesses of a core not yet complete: scalar ones, operand reads of waiting array instructions and array stores. -/
def CoreSt.allOuts (c : CoreSt) : List OutAcc :=
  c.outs ++ [c.arr0, c.arr1].flatMap (fun a =>
    (match a.waiting with
      | some r => [⟨a.wsq, r.store, true, false⟩]
      | none => []) ++
    a.running.flatMap (fun j => if j.2.2.r.store then [⟨j.2.1, true, false, false⟩] else []) ++
    (match a.shadow with
      | some _ => [⟨a.shadowSq, true, false, false⟩]
      | none => []))

/-- R168, R169: may the access with sequence number `sq` and orderings `n` be performed? -/
def CoreSt.needOk (c : CoreSt) (n : Need) (sq : Nat) (store : Bool) : Bool :=
  c.allOuts.all (fun o =>
    (decide (n.all ≤ o.sq) || (!o.isStore && !o.isLoad)) && (decide (o.sq + 1 ≠ n.acq) || !o.isLoad) &&
    (!o.fabric || decide (n.fab ≤ o.sq)) &&
    (!store || ((!o.isStore || decide (n.st ≤ o.sq)) && (!o.isLoad || decide (sq ≤ o.sq)))))

/-- May an own-pantry load or store of the current bundle be performed now? -/
def CoreSt.loadOk (c : CoreSt) : Bool := c.needOk c.need c.sq false
def CoreSt.storeOk (c : CoreSt) : Bool := c.needOk c.need c.sq true

/-- A register awaits a scalar load (R147). -/
def CoreSt.awaits (c : CoreSt) (r : Nat) : Bool := c.loads.any (fun l => l.vd == r)

/-- Source registers a vector operation reads (R144, R177). -/
def VSlot.reads (v : VSlot) : List Nat :=
  if v.vop = 2 ∨ v.vop = 9 ∨ v.vop = 10 ∨ (13 ≤ v.vop ∧ v.vop ≤ 21) then [v.va]
  else if v.vop = 6 ∨ v.vop = 12 ∨ v.vop = 40 then [v.va, v.vb, v.vc]
  else if v.vop = 1 ∨ v.vop = 24 ∨ v.vop = 0 then []
  else [v.va, v.vb]

/-- Registers a vector operation writes (R144, R147, R178). -/
def VSlot.writes (v : VSlot) : List Nat :=
  if v.vop = 2 ∨ v.vop = 22 ∨ v.vop = 23 ∨ v.vop = 24 ∨ v.vop = 0 then []
  else if 32 ≤ v.vop ∧ v.vop ≤ 47 then (if bitOf v.imm 1 then [v.vd] else [])
  else [v.vd]

/-- Both arrays and shadows idle (R151, R152). -/
def CoreSt.arraysIdle (c : CoreSt) : Bool :=
  [c.arr0, c.arr1].all (fun a => a.waiting.isNone && a.running.isEmpty && a.shadow.isNone)

/-- R281: a Currier job of kind 1-4 holds the arrays of this core's room. -/
def State.arraysHeld (s : State) (p c : Nat) : Bool :=
  let x := s.part p
  x.jobs.any (fun j => j.started && (match x.harness.cur.jobs[j.job]? with
    | some r => decide (r.kind ≤ 4) && (let rooms := (List.range 96).filter (fun lr => (List.range 32).all (fun t =>
        x.tiles.contains (32 * lr + t)))
      ((rooms.drop r.roomFirst).take r.roomCount).contains (c / 128))
    | none => false))

/-- R139: the issue condition of every slot of a bundle but the control slot's. -/
def State.othersOk (s : State) (p c : Nat) (b : Bytes) : Bool :=
  let x := s.core c
  let arrOk := fun (pos a : Nat) => slotNop b pos || ((x.arr a).waiting.isNone && !s.arraysHeld p c)
  let v := decodeV (slotWord b 1)
  let vecOk := slotNop b 1 || (v.reads.all (fun r => !x.awaits r) && v.writes.all (fun r => !x.awaits r))
  let w := slotWord b 0
  let copyOk := if w % 4 = 1 then x.slotIdle (bitsOf w 7 2)
    else if w % 4 = 2 then (List.range 48).all (fun i => !bitOf w (16 + i) || x.slotIdle i) else true
  arrOk 2 0 && arrOk 3 1 && vecOk && copyOk

/-- R337: an open snapshot holds a PHASE of kind 6. -/
def PartSt.phaseHeld (x : PartSt) (ph : Nat) : Bool :=
  x.long.snap.isSome && (x.harness.phases.getD ph {}).kind == 6

/-- R139: the condition of the control slot: BARRIER and WAITV have passed their gate, SAFEPOINT finds arrays idle, no
load outstanding (R151) and no stop of its room at order 2, a PHASE of kind 6 finds no open snapshot (R337), END_STEP
finds everything idle (R152). -/
def State.ctlOk (s : State) (p c : Nat) (b : Bytes) : Bool :=
  let x := s.core c
  let w := slotWord b 4
  match w % 16 with
  | 2 | 7 => x.gate
  | 3 => x.arraysIdle && x.loads.isEmpty && (s.room (s.physRoom (c / 128))).chg != 2
  | 5 => !(s.part p).phaseHeld (bitsOf w 11 4)
  | 8 => x.arraysIdle && x.loads.isEmpty && (List.range 48).all (fun i => x.slotIdle i)
  | _ => true

/-- Passes over bundles of no-operations only, from the core's current bundle, within its instruction region. -/
def State.skipNopsFrom (s : State) (p c : Nat) : Nat → State
  | 0 => s
  | n + 1 =>
    let b := s.bundle p c
    if (s.core c).slotPos = 0 ∧ nextSlot b 5 0 = 5 then
      State.skipNopsFrom (s.modCore c (fun x => { x with pc := x.pc + 1 })) p c n
    else s

/-- Passes over bundles of no-operations only, which issue at once. -/
def State.skipNops (s : State) (p c : Nat) : State :=
  s.skipNopsFrom p c (((s.part p).hdr c).instrLen / 32 - (s.core c).pc)

/-- The orderings in force after a fence: 0 FENCE.ST, 1 FENCE.FULL, 2 FENCE.FABRIC (R168). (Log 14: DEDUCED.) -/
def CoreSt.fence (x : CoreSt) (kind : Nat) : CoreSt :=
  let n := x.need
  match kind with
  | 0 => { x with need := { n with st := x.sq } }
  | 1 => { x with need := { n with all := x.sq } }
  | _ => { x with need := { n with all := x.sq, fab := x.sq } }

/-- The fence a BARRIER's FENCE field names: none for 000. (Log 14: DEDUCED.) -/
def barrierFence (w : Nat) : Option Nat := match bitsOf w 6 4 with
  | 0 => none
  | k => some (k - 1)

/-- R140: after the slot at `pos` has acted, the core stands at the next slot that is no no-operation, or at the next
bundle. A control slot that has passed its gate is done; a BARRIER's fence then covers the bundle's own accesses too. -/
def State.slotDone (s : State) (p c pos : Nat) : State :=
  let b := s.bundle p c
  let nx := nextSlot b 5 (pos + 1)
  if 5 ≤ nx ∨ (nx = 4 ∧ (s.core c).gate) then
    let w := slotWord b 4
    let s := s.modCore c (fun x =>
      let x := match barrierFence w with
        | some k => if x.gate ∧ w % 16 = 2 then x.fence k else x
        | none => x
      { x with pc := x.pc + 1, slotPos := 0, gate := false })
    s.skipNops p c
  else s.modCore c (fun x => { x with slotPos := nx })

/-- The partition of a core that may go on: its partition runs, it has not ended the step, no barrier holds it and its
room is not stopped (R154). -/
def State.goes (s : State) (c : Nat) : Option Nat :=
  match s.partOfCore c with
  | none => none
  | some p =>
    let x := s.core c
    if (s.part p).active && !x.ended && x.atBarrier.isNone && !s.roomStop.contains (s.physRoom (c / 128)) then some p
    else none

/-- The slot word the core acts on at `pos`, when its bundle has issued or may issue (R139). -/
def State.atSlot (s : State) (c pos : Nat) : Option (Nat × Nat) :=
  match s.goes c with
  | none => none
  | some p =>
    let x := s.core c
    let b := s.bundle p c
    let begun := decide (nextSlot b 5 0 < x.slotPos)
    if nextSlot b 5 x.slotPos = pos ∧ (begun ∨ (s.othersOk p c b ∧ s.ctlOk p c b)) then some (p, slotWord b pos) else none

/-- The control word of a bundle whose BARRIER or WAITV (`op`) holds it: the other slots' conditions are met and the
control slot's is still to be met (R139). (Log 13: DEDUCED.) -/
def State.atGate (s : State) (c op : Nat) : Option (Nat × Nat) :=
  match s.goes c with
  | none => none
  | some p =>
    let x := s.core c
    let b := s.bundle p c
    let w := slotWord b 4
    if w % 16 = op ∧ !x.gate ∧ x.slotPos ≤ nextSlot b 5 0 ∧ s.othersOk p c b then some (p, w) else none

/-- The condition of a core's BARRIER or WAITV is met: a bundle with no other slot is done. (Log 13: DEDUCED.) -/
def State.passGate (s : State) (p c : Nat) : State :=
  let s := s.modCore c (fun x => { x with gate := true })
  if nextSlot (s.bundle p c) 5 0 = 4 then s.slotDone p c 4 else s

/-! ### Tensor descriptors and operands at use -/

/-- The descriptor of an index of the partition's table, read from the larder and checked (R45, R99). -/
def State.desc (s : State) (p i : Nat) : Option Desc :=
  let b := s.lard p ((s.part p).harness.descBase + 48 * i) 48
  if b.all (fun x => x == 0) then none else parseDesc b

/-- Own-pantry placement of a plane (R100). -/
def ownPlane (base len : Nat) : Bool := decide (base + len ≤ 2 ^ 21)

/-- R100: every plane of a tensor lies wholly in the own-pantry space. -/
def Desc.own : Desc → Bool
  | .narrow d =>
    let n := d.rows * d.kb
    ownPlane d.eBase (n * nEBytes d.fmt) && ownPlane d.sBase n &&
      (!d.riv || (ownPlane d.riBase n && ownPlane d.rvBase (2 * n)))
  | .wide d =>
    let n := d.rows * d.cols * wideBytes d.fmt
    ownPlane d.base n && (decide (d.fmt ≠ 3) || ownPlane d.loBase n)

/-- A block of a narrow tensor in core `c`'s pantry; with any byte of it in a marked word it is a POISON block (R521).
The second answer says so. -/
def State.blkAt (s : State) (c : Nat) (d : NDesc) (row kb : Nat) : Blk × Bool :=
  let i := row * d.kb + kb
  let e := nEBytes d.fmt
  let rd := fun off n => memRead s.pantry (pantryKey c off) n
  let mk := fun off n => markRead s.pantryMark 32 (pantryKey c off) n
  let m := mk (d.eBase + i * e) e || mk (d.sBase + i) 1 || (d.riv && (mk (d.riBase + i) 1 || mk (d.rvBase + 2 * i) 2))
  let b : Blk := ⟨leNat (rd (d.sBase + i) 1), unpackCodes d.fmt (rd (d.eBase + i * e) e),
    if d.riv then leNat (rd (d.riBase + i) 1) else 0, if d.riv then leNat (rd (d.rvBase + 2 * i) 2) else 0⟩
  (if m then { b with se8 := 255 } else b, m)

/-- An element of a wide tensor in core `c`'s pantry as (HI, LO) values; a marked one is NaN (R521). -/
def State.wideAt (s : State) (c : Nat) (d : WDesc) (row col : Nat) : Num × Num × Bool :=
  let w := wideBytes d.fmt
  let o := (row * d.cols + col) * w
  let k := pantryKey c (d.base + o)
  let m := markRead s.pantryMark 32 k w || (decide (d.fmt = 3) && markRead s.pantryMark 32 (pantryKey c (d.loBase + o)) w)
  if m then (.nan, .fin false 0 0, true)
  else
    (decodeF (wideFmt d.fmt) (leNat (memRead s.pantry k w)),
      if d.fmt = 3 then decodeF fmt32 (leNat (memRead s.pantry (pantryKey c (d.loBase + o)) 4)) else .fin false 0 0, false)

/-! ### Storage errors (R518, R520, R523) -/

/-- The physical tile of a global logical slice. -/
def State.physOfSlice (s : State) (sl : Nat) : Nat := 36 * s.physRoom (sl / 32) + s.physTile (sl / 32) (sl % 32)

/-- The logical room backed by a physical room, 0xFF for none. -/
def State.logRoom (s : State) (pr : Nat) : Nat := ((List.range 96).find? (fun lr => s.physRoom lr = pr)).getD 0xFF

/-- The logical tile of a logical room backed by a physical tile, 0xFF for none. -/
def State.logTile (s : State) (lr pt : Nat) : Nat :=
  if lr = 0xFF then 0xFF else ((List.range 32).find? (fun t => s.physTile lr t = pt)).getD 0xFF

/-! ### Retirement in service (R16, R132, R507, R523) -/

/-- Physical tile `t` of physical room `r` is retired. -/
def State.tileRetired (s : State) (r t : Nat) : Bool :=
  if t < 32 then bitOf (s.reg RG.ROOM_TILE_RETIRED_LO r 0) t else bitOf (s.reg RG.ROOM_TILE_RETIRED_HI r 0) (t - 32)

/-- Marks a physical tile retired. -/
def State.retireTile (s : State) (r t : Nat) : State :=
  if s.tileRetired r t then s
  else if t < 32 then s.setReg RG.ROOM_TILE_RETIRED_LO r 0 (s.reg RG.ROOM_TILE_RETIRED_LO r 0 + 2 ^ t)
  else s.setReg RG.ROOM_TILE_RETIRED_HI r 0 (s.reg RG.ROOM_TILE_RETIRED_HI r 0 + 2 ^ (t - 32))

/-- Healthy, unused spare tiles of the physical room behind logical room `lr`, ascending; `taken` are already chosen. -/
def State.spareTiles (s : State) (lr : Nat) (taken : List Nat) : List Nat :=
  let r := s.physRoom lr
  (List.range 36).filter (fun p => !s.tileRetired r p && !taken.contains p && (List.range 32).all (fun t => s.physTile lr t != p))

/-- R25: TILE_SPARES_FREE of a logical room. -/
def State.countSpares (s : State) (lr : Nat) : State :=
  s.setFld F.GLB_ROOM_MAP_TILE_SPARES_FREE 0 lr (s.spareTiles lr []).length

/-- R517: the counts of ID_REC_STAT. -/
def State.showRecord (s : State) : State :=
  (s.setFld F.ID_REC_STAT_EVENTS 0 0 s.nv.record.length).setFld F.ID_REC_STAT_EFUSE_FREE 0 0 (min 4095 (2048 - s.nv.efuse.length))

/-- R507: one retirement is recorded in flash A, flash B and the eFuse log; in survey mode nothing is written (R509). -/
def State.recordEvent (s : State) (room tile cause : Nat) : State :=
  let e : DefEv := ⟨room, tile, cause, s.nv.epoch % 65536⟩
  let l := s.nv.record ++ [e]
  let s := { s with nv := { s.nv with record := l } }
  if s.fld F.TACK_BRINGUP_SURVEY 0 0 = 1 then s.showRecord
  else
    let s := { s with nv := { s.nv with flashA := { s.nv.flashA with events := l.take 4096 }
                                        flashB := { s.nv.flashB with events := l.take 4096 } } }
    if s.nv.efuse.length < 2048 then
      { s with nv := { s.nv with efuse := s.nv.efuse ++ [e] } }.showRecord
    else
      ((s.setFld F.ID_REC_STAT_EFUSE_FULL 0 0 1).showRecord).post Ev.EFUSE_FULL 0x9 0 none []

/-- R135: the injection that names the logical tile a physical tile backs, or backed until its retirement, is disarmed. -/
def State.disarmTile (s : State) (r t : Nat) : State :=
  let inj := s.reg RG.ROOM_STITCH_INJ r 0
  if bitOf inj 31 && decide (inj % 32 = s.logTile (s.logRoom r) t) then s.setFld F.ROOM_STITCH_INJ_ARM r 0 0 else s

/-- R132, R135, R507, R529: physical tile `t` of room `r` is retired in service while partition `p` holds it: recorded,
its injection disarmed, TILE_RETIRE posted. -/
def State.retireInService (s : State) (p r t cause : Nat) : State :=
  let lr := s.logRoom r
  let lt := s.logTile lr t
  let s := ((s.retireTile r t).recordEvent r t cause).disarmTile r t
  (s.post Ev.TILE_RETIRE 0x10 r (some p)
    (leBytes 1 r ++ leBytes 1 t ++ leBytes 1 lr ++ leBytes 1 lt ++ leBytes 1 cause)).countSpares lr

/-- R16, R523: a physical tile is to be substituted at the next step boundary, with its CAUSE of R504; a tile already so
marked keeps its first cause. -/
def State.condemn (s : State) (tile cause : Nat) : State :=
  if tget s.condemned tile 0 = 0 then { s with condemned := tput s.condemned tile cause 0 } else s

/-- One detection in the pantries or the larder slice of global slice `sl`: a corrected one is logged, and the 65th
distinct address within an hour condemns the tile; an uncorrectable one is logged and condemns it. -/
def State.sramError (s : State) (kind sev : Nat) (p : Option Nat) (sl addr : Nat) : State :=
  let tile := s.physOfSlice sl
  let s := s.logError kind sev p 0x10 (tile / 36) addr
  if sev = 1 then s.condemn tile 3
  else
    let recent := s.err.corrected.filter (fun e => decide (s.mono < e.2.2 + 3600 * 10 ^ 9))
    let recent := if recent.any (fun e => e.1 == tile && e.2.1 == addr) then recent
      else recent ++ [(tile, addr, s.mono)]
    let s := { s with err := { s.err with corrected := recent } }
    if 64 < (recent.filter (fun e => e.1 == tile)).length then s.condemn tile 3 else s

/-! ### Cellar controllers (R188, R202, R208, R409, R518) -/

def State.sharedMode (s : State) : Bool := s.fld F.HALL_CFG_SHARED 0 0 == 1

/-- R409: in shared mode a slot of the frame names the partition. -/
def State.frameSlot (s : State) (even oddO evenP oddP : Fld) (inst p : Nat) : Bool :=
  !s.sharedMode || (List.range 512).any (fun i =>
    (s.fld even inst i == 1 && s.fld evenP inst i == p) || (s.fld oddO inst i == 1 && s.fld oddP inst i == p))

def State.cellSlot (s : State) (p : Nat) : Bool :=
  s.frameSlot F.PRCH_CELL_SLOT_OWNED_EVEN F.PRCH_CELL_SLOT_OWNED_ODD F.PRCH_CELL_SLOT_PART_EVEN
    F.PRCH_CELL_SLOT_PART_ODD 0 p

/-- R389, R409: the PCIe port of a function carries its transfers: the link is up and, in shared mode, a slot of the port's
frame names the partition. -/
def State.portServes (s : State) (fn : Nat) : Bool :=
  s.linkUp (portOf fn) && (decide (512 ≤ fn) || s.frameSlot F.PCIE_SLOT_OWNED_EVEN F.PCIE_SLOT_OWNED_ODD F.PCIE_SLOT_PART_EVEN
    F.PCIE_SLOT_PART_ODD (portOf fn) fn)

/-- Both converters of a porch side have failed (R423). -/
def State.sideDown (s : State) (side : Nat) : Bool := bitsOf (s.fld F.PWR_PORCH_CONV_OK 0 0) (2 * side + 1) (2 * side) == 0

/-- A controller serves accesses: trained, out of self-refresh, not held by heat level 3 (R202, R208). -/
def State.ctrlServes (s : State) (c : Nat) : Bool :=
  s.fld F.CELL_STAT_TRAINED c 0 == 1 && s.fld F.CELL_STAT_SELF_REFRESH c 0 == 0 && s.fld F.CELL_STAT_HELD c 0 == 0 &&
    !s.sideDown (c / 24)

/-- R202, R409: the partition has cellar slots and every controller behind a range of the native cellar serves. -/
def State.cellarServed (s : State) (p nat n : Nat) : Bool :=
  s.cellSlot p && (unitsOf 256 nat n).all (fun g => s.ctrlServes (cellarCtl (256 * g)))

/-- The same of every controller: work over whole areas of the cellar can go on. -/
def State.cellarServes (s : State) (p : Nat) : Bool := s.cellSlot p && (List.range 96).all s.ctrlServes

/-- R186, R202: the dirty lines of the partition's cache can be written back. -/
def State.flushServed (s : State) (p : Nat) : Bool :=
  s.cellarServes p || (s.cache.filter (fun e => (s.part p).tiles.contains (e.1 / 8192))).all (fun e => e.2.all (fun l => !l.dirty))

/-- R518: `n` reads of a burst failed link ECC; up to two are read again, a third marks the line. -/
def State.linkEcc (s : State) (p nat n : Nat) : State :=
  let addr := 3 * 2 ^ 60 + (nat - s.cellBase p)
  if n = 0 then s
  else if n < 3 then s.logError 5 2 (some p) 0x30 (cellarCtl nat) addr
  else
    let s := s.logError 5 1 (some p) 0x30 (cellarCtl nat) addr
    { s with cellarMark := setAdd s.cellarMark (nat / 64) }

/-- R185, R202: the line of a granule is resident, or its controllers serve the accesses that make it so: the read that
fills it, none for a write of the whole line, and the write-back of a dirty line that gives way. -/
def State.lineServed (s : State) (p g : Nat) (whole : Bool) : Bool :=
  (s.cacheLine p g).isSome ||
    ((whole || s.ctrlServes (cellarCtl (256 * g))) && s.cellSlot p &&
      (match s.cacheVictim p g with
        | some v => s.ctrlServes (cellarCtl (256 * v.g))
        | none => true))

/-- R518, R193: a burst of the cellar is read with error `sev`: 0 corrected and 1 uncorrectable by inline ECC, which finds
nothing where it is off (R195), 2 a link-ECC failure mended by reading again, 3 one that the second repeat met too. -/
def State.burstError (s : State) (p nat sev : Nat) : State :=
  if sev = 2 then s.linkEcc p nat 1
  else if sev = 3 then s.linkEcc p nat 3
  else if s.eccOn p then
    let s := s.logError 6 sev (some p) 0x30 (cellarCtl nat) (3 * 2 ^ 60 + (nat - s.cellBase p))
    if sev = 1 then { s with cellarMark := setAdd s.cellarMark (nat / 64) } else s
  else s

/-- R518, R520: an access of partition `p` at a location meets a storage error (none: no error; 0 corrected, 1
uncorrectable; 2 and 3 of the cellar's link as in `burstError`) at byte `o` of the location. An uncorrectable error marks
the unit; in an instruction or record region it stops the partition with TILE_LOST. In the cache window the error lies in
the larder where the line is resident, else in the burst that fills it. -/
def State.detect (s : State) (p : Nat) (l : Loc) (det : Option (Nat × Nat)) : State :=
  match det with
  | none => s
  | some (sev, o) =>
    match l with
    | .pantry k =>
      if 1 < sev then s
      else
      let k := k + o
      let c := k / 2 ^ 21
      let addr := 2 ^ 60 + (s.part p).indexOf c * 2 ^ 22 + k % 2 ^ 21
      let prog := (s.part p).inProgram c (k % 2 ^ 21) 1
      let s := s.sramError (if prog then 4 else 1) sev (some p) (c / 4) addr
      if sev = 1 then
        let s := { s with pantryMark := setAdd s.pantryMark (k / 32) }
        if prog then s.stopPart p St.TILE_LOST else s
      else s
    | .larder k =>
      if 1 < sev then s
      else
        let s := s.sramError 2 sev (some p) ((k + o) / sliceBytes) (larderAddr ((s.part p).larderOff (k + o)))
        if sev = 1 then { s with larderMark := setAdd s.larderMark ((k + o) / 64) } else s
    | .cellar nat => s.burstError p (nat + o) sev
    | .cached nat =>
      match s.cacheLine p (nat / 256) with
      | none => s.burstError p (nat + o) sev
      | some line =>
        if 1 < sev then s
        else
          let h := (s.part p).cacheHome (nat / 256)
          let k := (s.part p).lineKey h.1 h.2 line.way + nat % 256 + o
          let s := s.sramError 2 sev (some p) h.1 (3 * 2 ^ 60 + (nat + o - s.cellBase p))
          if sev = 1 then { s with larderMark := setAdd s.larderMark (k / 64) } else s
    | _ => s

/-- The fetch of a core's bundle meets a storage error (R518). (Log 20: DESIGN CHOICE.) -/
def State.fetchDet (s : State) (p c : Nat) (det : Option (Nat × Nat)) : State :=
  s.detect p (.pantry (pantryKey c (((s.part p).hdr c).instrBase + 32 * (s.core c).pc))) det

end Sys2Proof.Machine
end

