-- ==== Sys2Proof/Machine/Fabric.lean ====
section
/-! DEFINITION. Bridle as its source side sees it: the charter, paths and tags (R352-R354), transactions as bytes (R360),
the sending half of a port's link layer (R355, R356, R380) and the opening of a transaction (R364, R365, R368). -/

namespace Sys2Proof.Machine
open Sys2Proof

/-- This node's number (R352). -/
def State.node (s : State) : Nat := s.fld F.BRDL_NODE_NODE 0 0

/-- Port number that stands for the loopback of R375. -/
def loopPort : Nat := 96

def State.port (s : State) (b : Nat) : BPort := tget s.brdl.ports b {}
def State.setPort (s : State) (b : Nat) (x : BPort) : State :=
  { s with brdl := { s.brdl with ports := tput s.brdl.ports b x {} } }
def State.modPort (s : State) (b : Nat) (f : BPort → BPort) : State := s.setPort b (f (s.port b))

/-- A port carries packets: up, or the loopback. -/
def State.portUp (s : State) (b : Nat) : Bool := b == loopPort || s.fld F.BRDL_PORT_STAT_STATE b 0 == 2

/-- R381: the charter bit of an operation. -/
def charterBit (op : Nat) : Nat := match op % 128 with
  | 1 => 0
  | 2 | 3 => 1
  | 4 => 3
  | 5 | 6 | 7 | 8 => 2
  | 9 | 10 | 11 => 4
  | _ => 5

/-- R381: does the charter allow an operation with a node? -/
def State.chartered (s : State) (node op : Nat) : Bool :=
  bitOf (s.reg RG.BRDL_CHARTER_OPS 0 0) (charterBit op) &&
    (List.range 4).any (fun i => s.fld F.BRDL_CHARTER_RANGE_EN 0 i == 1 &&
      decide (s.fld F.BRDL_CHARTER_RANGE_LO 0 i ≤ node) && decide (node ≤ s.fld F.BRDL_CHARTER_RANGE_HI 0 i))

/-- R353: a port is live when it is up or retraining. -/
def State.portLive (s : State) (b : Nat) : Bool := decide (2 ≤ s.fld F.BRDL_PORT_STAT_STATE b 0)

/-- R353: the paths to a node. -/
def State.paths (s : State) (n : Nat) : List Nat :=
  (([0, 24, 48, 72].map (fun d => (n % 96 + d) % 96)).filter s.portLive).take 3

/-- R353: the first path neither down nor dead. -/
def State.pathTo (s : State) (n : Nat) : Option Nat :=
  if n = s.node then some loopPort
  else (s.paths n).find? (fun b => s.fld F.BRDL_PORT_STAT_DEAD b 0 == 0)

/-! ### Transactions as bytes (R360, R361) -/

def Txn.encode (t : Txn) : Bytes :=
  leBytes 1 t.op ++ leBytes 1 t.status ++ leBytes 1 t.attempt ++ leBytes 1 (b2n t.last) ++ leBytes 2 t.src ++
    leBytes 2 t.dst ++ leBytes 2 t.tag ++ leBytes 2 t.inc ++ leBytes 4 t.wseq ++ leBytes 8 t.addr ++
    leBytes 8 t.operand ++ t.data

def Txn.decode (b : Bytes) : Txn :=
  { op := fieldAt b 0 1, status := fieldAt b 1 1, attempt := fieldAt b 2 1 % 32, last := bitOf (fieldAt b 3 1) 0,
    src := fieldAt b 4 2, dst := fieldAt b 6 2, tag := fieldAt b 8 2, inc := fieldAt b 10 2, wseq := fieldAt b 12 4,
    addr := fieldAt b 16 8, operand := fieldAt b 24 8, data := b.drop 32 }

/-- Does the operation carry a write sequence? -/
def sequenced (op : Nat) : Bool := op == 2 || (decide (4 ≤ op) && decide (op ≤ 11))

/-- The virtual channel of an operation (R355). -/
def vcOf (op : Nat) : Nat := if op = 12 then 2 else if 128 ≤ op then 1 else 0

/-! ### The sending half of a link (R355, R356, R380) -/

/-- Receive buffer of a packet in 64 B units. -/
def LPkt.units (k : LPkt) : Nat := (16 + k.payload.length + 63) / 64

/-- Component of a credit triple. -/
def vcGet (c : Nat × Nat × Nat) (vc : Nat) : Nat := match vc with
  | 0 => c.1
  | 1 => c.2.1
  | _ => c.2.2

/-- Credit triple with `n` added to (or, for `sub`, taken from) one component. -/
def vcAdd (c : Nat × Nat × Nat) (vc n : Nat) : Nat × Nat × Nat := match vc with
  | 0 => (c.1 + n, c.2.1, c.2.2)
  | 1 => (c.1, c.2.1 + n, c.2.2)
  | _ => (c.1, c.2.1, c.2.2 + n)
def vcSub (c : Nat × Nat × Nat) (vc n : Nat) : Nat × Nat × Nat := match vc with
  | 0 => (c.1 - n, c.2.1, c.2.2)
  | 1 => (c.1, c.2.1 - n, c.2.2)
  | _ => (c.1, c.2.1, c.2.2 - n)

/-- R380: in shared mode a packet leaves only where its owner has a slot of the port. -/
def State.slotFor (s : State) (b own : Nat) : Bool :=
  s.fld F.HALL_CFG_SHARED 0 0 == 0 || (List.range 64).any (fun i =>
    if own = 512 then s.fld F.BRDL_PORT_SLOT_OWNED b i == 0
    else s.fld F.BRDL_PORT_SLOT_OWNED b i == 1 && s.fld F.BRDL_PORT_SLOT_PART b i == own)

/-- The acknowledgement and returned credits every outgoing packet carries (R355, R357); a CREDIT field holds at most
1,023 units. (Log 53: DEDUCED.) -/
def BPort.stamp (x : BPort) (k : LPkt) : BPort × LPkt :=
  let c := (min x.owe.1 1023, min x.owe.2.1 1023, min x.owe.2.2 1023)
  ({ x with unacked := 0, owe := (x.owe.1 - c.1, x.owe.2.1 - c.2.1, x.owe.2.2 - c.2.2) },
    { k with ack := some ((x.e + 4095) % 4096), credit := c })

/-- Puts an unnumbered packet (ACK, NAK, CREDIT) on the wire. -/
def State.emit (s : State) (b : Nat) (k : LPkt) : State :=
  s.modPort b (fun x => let (x, k) := x.stamp k; { x with out := x.out ++ [k] })

/-- The first waiting packet that may be numbered now. -/
def State.sendable (s : State) (b : Nat) (x : BPort) : Option LPkt :=
  if s.portUp b && decide (x.replay.length < 1024) then
    x.waiting.find? (fun k => decide (k.units ≤ vcGet x.cred k.vc) && s.slotFor b k.own)
  else none

/-- Numbers and sends waiting packets while the replay buffer, the credits and the slots allow (R355, R356). -/
def State.pump (s : State) (b : Nat) : Nat → State
  | 0 => s
  | fuel + 1 =>
    let x := s.port b
    match s.sendable b x with
    | none => s
    | some k =>
      let x := { x with waiting := x.waiting.erase k, cred := vcSub x.cred k.vc k.units }
      let k := { k with seq := x.next }
      let (x, k) := x.stamp k
      let quiet := if x.replay.isEmpty then s.mono else x.quietSince
      (s.setPort b { x with next := (x.next + 1) % 4096, replay := x.replay ++ [k], out := x.out ++ [k],
                            quietSince := quiet }).pump b fuel

/-- Sends a transaction payload by a port; the loopback delivers it to this node at once (R375). -/
def State.sendTxn (s : State) (b : Nat) (t : Txn) (own : Nat) : State :=
  if b = loopPort then s.modPort b (fun x => { x with rx := x.rx ++ [(vcOf t.op, t.encode)] })
  else
    let s := s.modPort b (fun x => { x with waiting := x.waiting ++ [{ vc := vcOf t.op, payload := t.encode, own := own }] })
    s.pump b ((s.port b).waiting.length)

/-! ### Opening a transaction (R354, R364, R368, R380) -/

/-- Tags taken from the shared pool: those beyond each port's 256 (R354). -/
def sharedTags (ts : List OutTxn) : Nat :=
  ((List.range 96).map (fun h => (ts.filter (fun x => x.t.dst % 96 == h)).length - 256)).foldl (· + ·) 0

/-- R354, R380: may a transaction of partition `p` to `node` take a tag? -/
def State.tagFree (s : State) (p node op : Nat) : Bool :=
  let ts := s.brdl.txns
  let mine := (ts.filter (fun x => x.t.dst % 96 == node % 96)).length
  let pool := Nat.blt mine 256 || Nat.blt (sharedTags ts) 40960
  let allot := s.fld F.HALL_CFG_SHARED 0 0 == 0 || p == 512 ||
    decide ((ts.filter (fun x => x.part == p)).length < s.fld F.BRDL_PART_ALLOT_TAGS 0 p)
  let atomics := !(decide (5 ≤ op) && decide (op ≤ 8)) ||
    decide ((ts.filter (fun x => x.t.dst == node && decide (5 ≤ x.t.op) && decide (x.t.op ≤ 8))).length < 256)
  Nat.blt ts.length 65536 && pool && allot && atomics

/-- R365: transactions may leave this node; the loopback does not cross the fabric. -/
def State.fabricReady (s : State) (node : Nat) : Bool := s.brdl.ready || node == s.node

/-- Lowest tag not in use. -/
def State.freshTag (s : State) : Nat :=
  ((List.range (s.brdl.txns.length + 1)).find? (fun t => s.brdl.txns.all (fun x => x.t.tag != t))).getD 0

/-- A transaction of partition `p` may be opened now (R354, R365). (Log 74: DEDUCED.) -/
def State.mayOpen (s : State) (p node op : Nat) : Bool := s.fabricReady node && s.tagFree p node op

/-- Opens a transaction: tag, write sequence, first path, attempt 0; without a path it waits for its timeouts. A FENCE
names the next write sequence without taking it (R377). (Log 75: DEDUCED.) -/
def State.openTxn (s : State) (p : Nat) (t : Txn) (why : TxnFor) : State :=
  let seqd := sequenced t.op
  let w := tget s.brdl.egress t.dst 0
  let t := { t with src := s.node, tag := s.freshTag, inc := s.fld F.BRDL_NODE_INC 0 0, wseq := if seqd || t.op == 3 then w else 0 }
  let s := if seqd then { s with brdl := { s.brdl with egress := tput s.brdl.egress t.dst ((w + 1) % 2 ^ 32) 0 } } else s
  let b := s.pathTo t.dst
  let o : OutTxn := { t := t, for_ := why, part := p, gen := s.fld F.HALL_GEN_GEN p 0, port := b.getD 97, first := s.mono,
                      sentAt := s.mono }
  let s := { s with brdl := { s.brdl with txns := s.brdl.txns ++ [o] } }
  match b with
  | some b => s.sendTxn b t p
  | none => s

/-- R363, R384: records a refusal of a partition's transaction. -/
def State.lastRefusal (s : State) (p status node off : Nat) : State :=
  let s := s.setReg RG.BRDL_LAST_REFUSAL p 0 (status % 16 + 2 ^ 16 * (node % 4096))
  (s.setReg RG.BRDL_LAST_REFUSAL_OFF_LO p 0 (off % 2 ^ 32)).setReg RG.BRDL_LAST_REFUSAL_OFF_HI p 0 (off / 2 ^ 32 % 4096)

/-- R352, R361, R372, R381: is a space 0x4 access refused at the source with ADDR_FAULT? The ownership range admits only
an 8-byte ST.REL to one of the 1,024 regions. -/
def State.bridleRefused (s : State) (node off width op : Nat) (rel : Bool) : Bool :=
  decide (4096 ≤ node) || decide (off % width ≠ 0) || !s.chartered node op ||
    (decide (0xF0000000000 ≤ off) && !(rel && decide (op = 9) && decide (width = 8) && decide (off < 0xF0000000000 + 8192)))

/-- The write of bytes within one 128 B line as a WRITE transaction (R361). -/
def lineWrite (node off : Nat) (bs : Bytes) : Txn :=
  let o := off % 128
  { op := 2, dst := node, addr := off - o,
    data := leBytes 16 ((2 ^ bs.length - 1) * 2 ^ o) ++ List.replicate o 0 ++ bs ++ List.replicate (128 - o - bs.length) 0 }

/-- The read of a line. -/
def lineRead (node off : Nat) : Txn := { op := 1, dst := node, addr := off - off % 128 }

end Sys2Proof.Machine
end

