-- ==== Sys2Proof/Machine/Hall.lean ====
section
/-! DEFINITION. The hallway: endpoints and attachment (R211, R213, R214), lanes and slots (R212, R225-R227), routes
(R221-R223), flits forwarded, combined and delivered (R224, R228-R234), accesses performed at their endpoints (R170,
R177-R179, R191), link faults (R524) and slot frames (R238). -/

namespace Sys2Proof.Machine
open Sys2Proof

/-! ### Rooms, endpoints and routes -/

/-- R214, R237: a physical room is a hole. -/
def State.hole (s : State) (r : Nat) : Bool := bitOf (s.reg RG.HALL_HOLE 0 (r / 32)) (r % 32)

/-- R201: the physical room at offset `d` of a side (0 North, 1 East, 2 South, 3 West). -/
def sideRoom (side d : Nat) : Nat := match side with
  | 0 => d
  | 1 => 10 * d + 9
  | 2 => 90 + (9 - d)
  | _ => 10 * (9 - d)

/-- R214: the attachment room of a porch endpoint: the room at its offset, else the next live non-corner room of its
side, clockwise first. -/
def State.attach (s : State) (side d : Nat) : Nat :=
  let order := d :: ((List.range 8).map (fun i => d + 1 + i)).filter (fun x => x ≤ 8) ++
    ((List.range 8).map (fun i => d - 1 - i)).filter (fun x => 1 ≤ x)
  match order.find? (fun x => !s.hole (sideRoom side x)) with
  | some x => sideRoom side x
  | none => sideRoom side d

/-- R213: the edge room of a porch link's porch end, or the room itself. -/
def hallRoom (r : Nat) : Nat := if 200 ≤ r then r - 200 else r

/-- R211, R213: the physical room an endpoint is in, or the porch end of the link by which it attaches. -/
def State.epRoom (s : State) (ep : Nat) : Nat :=
  if ep < 12288 then s.physRoom (ep / 128)
  else if ep < 15360 then s.physRoom ((ep - 12288) / 32)
  else if ep < 15456 then 200 + s.attach ((ep - 15360) / 24) (1 + (ep - 15360) % 24 / 3)
  else if ep < 15552 then 200 + s.attach ((ep - 15456) / 24) (1 + (ep - 15456) % 24 / 3)
  else if ep = 15553 then 200 + s.attach 0 4 else 200 + s.attach 2 4

/-- R211: the endpoint that serves a location. -/
def State.epOf (s : State) (p : Nat) (l : Loc) : Nat := match l with
  | .pantry k => k / 2 ^ 21
  | .larder k => 12288 + k / sliceBytes
  | .cellar nat => 15360 + cellarCtl nat
  | .cached nat => 12288 + ((s.part p).cacheHome (nat / 256)).1
  | .bridle node _ => 15456 + node % 96
  | .host port _ => 15552 + port

/-- R222: the next room on a network (0 XY, 1 YX) from `r` towards `to_`. -/
def hopTo (net r to_ : Nat) : Nat :=
  let x := r % 10
  let y := r / 10
  let tx := to_ % 10
  let ty := to_ / 10
  let sx := if x < tx then r + 1 else r - 1
  let sy := if y < ty then r + 10 else r - 10
  if r = to_ then r
  else if net = 0 then (if x ≠ tx then sx else sy) else (if y ≠ ty then sy else sx)

/-- R213, R222: the next place of a flit on its way to `to_`: porch links lead to and from their edge rooms. (Log 162:
DESIGN CHOICE.) -/
def nextPlace (net at_ to_ : Nat) : Nat :=
  if 200 ≤ at_ then at_ - 200 else if at_ + 200 = to_ then to_ else hopTo net at_ (hallRoom to_)

/-- Does the path from `r` meet no hole, its ends included? -/
def pathFree (hole : Nat → Bool) (net to_ : Nat) : Nat → Nat → Bool
  | 0, r => !hole r
  | fuel + 1, r => !hole r && (r == to_ || pathFree hole net to_ fuel (hopTo net r to_))

/-- The same with the holes of now. -/
def State.pathClear (s : State) (net to_ fuel r : Nat) : Bool := pathFree s.hole net to_ fuel r

/-- Rooms crossed between two rooms on a minimal path. -/
def hops (a b : Nat) : Nat := (a % 10 - b % 10) + (b % 10 - a % 10) + (a / 10 - b / 10) + (b / 10 - a / 10)

/-- R222: the intermediate room of a two-leg route among given holes: none where one leg does, or none exists. -/
def midRoom (hole : Nat → Bool) (a b : Nat) : Option Nat :=
  if pathFree hole 0 b 20 a || pathFree hole 1 b 20 a then none
  else
    (List.range 100).foldl (fun best i =>
      if pathFree hole 0 i 20 a && pathFree hole 1 b 20 i then
        match best with
        | some j => if hops a i + hops i b < hops a j + hops j b then some i else best
        | none => some i
      else best) none

/-- The room beside a room on a side. -/
def roomBeside (r side : Nat) : Nat := match side with
  | 0 => r - 10
  | 1 => r + 1
  | 2 => r + 10
  | _ => r - 1

/-- R200, R213: the side of an edge room on which its porch link lies. -/
def porchSide (r : Nat) : Nat := if r < 10 then 0 else if r % 10 = 9 then 1 else if 90 ≤ r then 2 else 3

/-- A room at the edge of the wafer. -/
def isEdge (r : Nat) : Bool := decide (r < 10 ∨ 90 ≤ r ∨ r % 10 = 0 ∨ r % 10 = 9)

/-- Side of room `a` on which room `b` lies; a porch link lies on the outer side of its edge room. -/
def sideOf (a b : Nat) : Nat :=
  if 200 ≤ a ∨ 200 ≤ b then porchSide (hallRoom a)
  else if b + 10 = a then 0 else if b = a + 1 then 1 else if b = a + 10 then 2 else 3

/-! ### Lanes, queues and slots -/

/-- R227: the lanes on which a partition owns a slot, ascending. -/
def State.ownLanes (s : State) (p : Nat) : List Nat :=
  (s.hall.slots.filter (fun e => e.2 == 512 + p)).foldl (fun l e => setAdd l (e.1 / 64)) []

/-- R225: the lanes on which the operator owns a slot, ascending. -/
def State.operLanes (s : State) : List Nat :=
  (List.range 375).filter (fun l => (List.range 64).any (fun i => tget s.hall.slots (l * 64 + i) 0 == 0))

/-- R212, R227: the lane of a flow with lane number `h`, of partition `p` or the operator (512). -/
def State.laneFor (s : State) (p h : Nat) : Nat :=
  if s.sharedMode then
    let l := if p = 512 then s.operLanes else s.ownLanes p
    if l.isEmpty then h % 375 else l.getD (h % l.length) 0
  else h % 375

/-- R212, R227: the lane of a reduce-write to the line of a larder offset under a tag. -/
def State.reduceLane (s : State) (p off tag : Nat) : Nat := s.laneFor p (off / 64 + 157 * tag)

/-- R212: the lane of a request. -/
def State.reqLane (s : State) (p a b : Nat) : Nat := s.laneFor p (157 * a + b)

/-- Response class (R210). -/
def Flit.resp (f : Flit) : Bool := f.kind == 1 || f.kind == 3 || f.kind == 5

/-- ORD (R210). -/
def Flit.ord (f : Flit) : Bool := f.kind == 2 || f.kind == 4

/-- R225: the slot owner whose slots and queue entries a flit uses: 0 the operator, else 512 + partition. -/
def Flit.owner (f : Flit) : Nat := if f.kind = 7 ∨ f.part = 512 then 0 else 512 + f.part

/-- Do two flits share a boundary queue (R215), or in shared mode one owner's entries of it (R226)? -/
def State.sameQueue (s : State) (f g : Flit) : Bool :=
  g.inj && !g.queued && g.at_ == f.at_ && g.from_ == f.from_ && g.lane == f.lane && g.net == f.net && g.resp == f.resp &&
    (!s.sharedMode || g.owner == f.owner)

/-- R215, R226: free entries for a flit like `f` in the queue at place `n` for flits come from `from_`. -/
def State.credits (s : State) (f : Flit) (from_ n net : Nat) : Nat :=
  let used := (s.hall.flits.filter (s.sameQueue { f with at_ := n, from_ := from_, net := net })).length
  (if s.sharedMode then
    ((List.range 64).filter (fun i => tget s.hall.slots (f.lane * 64 + i) 0 == f.owner)).length else 64) - used

/-! ### Injection (R167-R170, R221-R223, R236) -/

/-- R223: does a write or atomic of the core towards a room still await its acknowledgement? -/
def State.awaitsAck (s : State) (core room : Nat) : Bool :=
  s.hall.flits.any (fun g => g.inj && g.srcs.any (fun q => q.1 == core) &&
    ((g.ord && g.to_ == room) || ((g.kind == 3 || g.kind == 5) && g.home == room))) ||
  s.brdl.txns.any (fun t => match t.for_ with
    | .store f => f.srcs.any (fun q => q.1 == core) && f.to_ == room
    | .load f => f.ord && f.srcs.any (fun q => q.1 == core) && f.to_ == room
    | _ => false)

/-- R221-R223: network and intermediate room of a flit about to be injected; none where no route exists. The intermediate
rooms are those of the last bring-up boundary. -/
def State.route (s : State) (f : Flit) : Option (Nat × Option Nat) :=
  let a := hallRoom f.at_
  let b := hallRoom f.to_
  let ok := fun net => s.pathClear net b 20 a
  let static := if ok 0 then some (0, none) else if ok 1 then some (1, none)
    else (midRoom (fun r => s.hall.holes.contains r) a b).map (fun i => (0, some i))
  let adaptive := !s.sharedMode && !(s.part f.part).ordered
  if a = b then some (0, none)
  else if adaptive && ok 0 && ok 1 then
    let cr := fun net => s.credits f f.at_ (nextPlace net f.at_ f.to_) net
    let fresh := if cr 0 < cr 1 then 1 else 0
    match f.srcs with
    | (c, _) :: _ =>
      let last := tget s.hall.lastNet (c * 512 + f.to_) 0
      some (if f.ord && last != 0 && s.awaitsAck c f.to_ then last - 1 else fresh, none)
    | [] => some (fresh, none)
  else static

/-- The core whose program issued a flit. -/
def Flit.core (f : Flit) : Nat := (f.srcs.headD (0, 0)).1

/-- R167-R170, R236: may a flit enter the hallway now? Requests of a core wait for what orders them; the stores of one
core to one endpoint enter in program order, and a load waits for an earlier load of the same bytes. -/
def State.injectOk (s : State) (f : Flit) : Bool :=
  let c := f.core
  let mine := s.hall.flits.filter (fun g => g.id != f.id && g.core == c && g.part == f.part && g.kind != 7 && decide (g.sq < f.sq))
  (s.part f.part).migrating != 1 &&
    (f.resp || f.kind == 6 || f.kind == 7 || ((s.core c).needOk f.need f.sq f.ord &&
      (!f.ord || mine.all (fun g => !(g.ord && !g.inj && g.ep == f.ep))) &&
      (f.kind == 2 || mine.all (fun g => !((g.kind == 0 || g.kind == 4) && overlaps g.addr g.width f.addr f.width)))))

/-- Marks a flit injected on its route. -/
def State.inject (s : State) (f : Flit) : Option (State × Flit) :=
  if f.inj then some (s, f)
  else if s.injectOk f then
    match s.route f with
    | none => none
    | some (net, mid) =>
      let s := if f.ord then
          { s with hall := { s.hall with lastNet := tput s.hall.lastNet (f.core * 512 + f.to_) (net + 1) 0 } }
        else s
      some (s, { f with inj := true, net := net, mid := mid, leg := 0 })
  else none

/-- A management flit (R210, R225) of partition `p`, or of the operator (512), from one endpoint to another.
(Log 163: DESIGN CHOICE.) -/
def State.mgmtFlit (s : State) (p from_ to_ : Nat) : Flit :=
  { kind := 7, part := p, gen := if p < 512 then s.fld F.HALL_GEN_GEN p 0 else 0, ep := to_, op := from_,
    lane := s.laneFor 512 (157 * from_ + to_), at_ := s.epRoom from_, to_ := s.epRoom to_, born := s.mono }

/-- R225, R235: no management flit of a partition is left on its way. -/
def State.mgmtDone (s : State) (p : Nat) : Bool := s.hall.flits.all (fun f => !(f.kind == 7 && f.part == p))

/-- R225, R405: the operator's zeroisation flits to the slices of a set of tiles have all arrived; a room that is a hole takes
none. -/
def State.zeroReached (s : State) (tiles : List Nat) : Bool :=
  s.hall.flits.all (fun f => !(f.kind == 7 && f.part == 512 && tiles.contains (f.ep - 12288)) || s.hole f.to_)

def State.setFlits (s : State) (l : List Flit) : State := { s with hall := { s.hall with flits := l } }
def State.dropFlit (s : State) (id : Nat) : State := s.setFlits (s.hall.flits.filter (fun g => g.id != id))

/-- Adds a flit at its source room, numbered. -/
def State.addFlit (s : State) (f : Flit) : State :=
  { s with hall := { s.hall with flits := s.hall.flits ++ [{ f with id := s.hall.nextId }], nextId := s.hall.nextId + 1 } }

/-- R210, R212, R233: the flit of a core's request to a location. -/
def State.request (s : State) (p c kind : Nat) (l : Loc) (addr width : Nat) : Flit :=
  let ep := s.epOf p l
  { kind := kind, part := p, gen := s.fld F.HALL_GEN_GEN p 0, srcs := [(c, 0)], ep := ep, addr := addr, dst := l,
    width := width, lane := s.reqLane p c ep, at_ := s.epRoom c, to_ := s.epRoom ep, born := s.mono }

/-- The response or acknowledgement of a request to a source core, for the copies (or the scalar access) its list `src`
names (R212, R233). -/
def State.respondAll (s : State) (f : Flit) (core : Nat) (src : List (Nat × Nat)) (kind data : Nat) : State :=
  s.addFlit { f with kind := kind, srcs := src, ep := core, data := data, at_ := f.to_, from_ := 100,
                     to_ := s.epRoom core, home := f.to_, inj := false, queued := false, mid := none, leg := 0, addends := [] }

/-- The same for one source. -/
def State.respond (s : State) (f : Flit) (src : Nat × Nat) (kind data : Nat) : State := s.respondAll f src.1 [src] kind data

/-! ### Links (R524) -/

/-- Key of the link by which a place sends to the next: place * 4 + side. -/
def linkKey (from_ to_ : Nat) : Nat := from_ * 4 + sideOf from_ to_
def State.link (s : State) (k : Nat) : HLink := tget s.hall.links k {}
def State.setLink (s : State) (k : Nat) (x : HLink) : State :=
  { s with hall := { s.hall with links := tput s.hall.links k x {} } }

/-- R524: a retrain of the link starts, holding its flits. -/
def State.retrainLink (s : State) (room side lane : Nat) : State :=
  let k := room * 4 + side
  let s := s.setLink k { s.link k with run := 0, recent := [], retraining := true, retrainEnd := s.mono + 50000 }
  s.post Ev.HALL_LINK_RETRAIN 0x10 (hallRoom room) none (leBytes 1 (hallRoom room) ++ leBytes 1 side ++ leBytes 2 lane)

/-- R524, R526: one resend of a flit on the link it came by, from `a` to `b` on a lane. -/
def State.resend (s : State) (f : Flit) : State :=
  let a := f.from_
  let b := f.at_
  let lane := f.lane
  let k := linkKey a b
  let x := s.link k
  let s := s.logError 7 2 (some f.part) 0x10 b f.ep
  let run := if x.runLane = lane then x.run + 1 else 1
  let recent := (x.recent.filter (fun t => decide (s.mono < t + 10 ^ 9))) ++ [s.mono]
  let s := s.setLink k { x with runLane := lane, run := run, recent := recent }
  if 16 ≤ run ∨ 1000 < recent.length then s.retrainLink a (sideOf a b) lane else s

/-! ### Forwarding (R224-R226, R229) -/

/-- The place a flit goes to next. -/
def Flit.next (f : Flit) : Nat := nextPlace f.net f.at_ (f.mid.getD f.to_)

/-- R218, R224: the flit is the oldest of its queue; a flit still at its source is in no boundary queue. -/
def State.atHead (s : State) (f : Flit) : Bool :=
  f.from_ == 100 || (s.hall.flits.takeWhile (fun g => g.id != f.id)).all (fun g => !s.sameQueue f g)

/-- R226: the input of its room by which a flit has come: the side it came from, 4 for the room's own endpoints. -/
def Flit.input (f : Flit) : Nat := if f.from_ = 100 then 4 else sideOf f.at_ f.from_

/-- R226: key of the round-robin pointer of an output. -/
def rrKey (f : Flit) : Nat := (((f.at_ * 512 + f.next) * 375 + f.lane) * 4 + 2 * b2n f.resp + f.net) * 1024 + f.owner

/-- R226: flits of one owner that stand at the head of the inputs of a room for the output, lane, class and network of `f`,
as they would leave. -/
def State.rivals (s : State) (f : Flit) : List Flit :=
  (s.hall.flits.filterMap (fun g => if g.at_ != f.at_ || g.queued || (g.at_ == g.to_ && g.mid.isNone) then none
    else (s.inject g).map (fun q => q.2))).filter (fun g => s.atHead g && rrKey g == rrKey f)

/-- R226: the router gives an output to the owner's inputs in turn, in fixed order. (Log 164: DESIGN CHOICE.) -/
def State.turnOk (s : State) (f : Flit) : Bool :=
  let ins := (s.rivals f).map Flit.input
  let last := tget s.hall.rr (rrKey f) 0
  let order := (List.range 5).map (fun i => (last + i) % 5)
  !s.sharedMode || (order.find? ins.contains) == some f.input

/-- R221: is in-network combining on for a partition? -/
def State.combining (s : State) (p : Nat) : Bool :=
  !(s.part p).ordered && (s.sharedMode || s.fld F.HALL_CFG_COMBINE_EN 0 0 == 1)

/-- The sources a SRC list names (R210, R229). -/
def sources (l : List (Nat × Nat)) : List Nat := l.foldl (fun a q => setAdd a q.1) []

/-- R229: two reduce-writes that meet may be combined. -/
def State.mayCombine (s : State) (f g : Flit) : Bool :=
  f.id != g.id && f.kind == 6 && g.kind == 6 && f.inj && g.inj && f.at_ == g.at_ && f.lane == g.lane && f.net == g.net &&
    f.mid == g.mid && f.to_ == g.to_ && f.part == g.part && f.gen == g.gen && f.tag == g.tag && f.dst == g.dst &&
    decide ((sources (f.srcs ++ g.srcs)).length ≤ 4) && s.combining f.part && s.atHead f && s.atHead g

/-- R229: the combined addends. -/
def joinAddends (a b : List (Option Word)) : List (Option Word) :=
  (List.range 16).map (fun i => match a.getD i none, b.getD i none with
    | some x, some y => some (fadd x y)
    | some x, none => some x
    | none, y => y)

/-- R214: a place that is a hole, or belongs to one. -/
def State.deadPlace (s : State) (r : Nat) : Bool := s.hole (hallRoom r)

/-- R214, R215, R218, R224-R226, R524: may a flit cross to its next place in slot `slot` of the sender's frame? -/
def State.mayCross (s : State) (f : Flit) (slot : Nat) : Bool :=
  let n := f.next
  let l := s.link (linkKey f.at_ n)
  s.atHead f && !l.retraining && !l.down && !s.deadPlace f.at_ && !s.deadPlace n && decide (0 < s.credits f f.at_ n f.net) &&
    (!s.sharedMode || tget s.hall.slots (f.lane * 64 + slot) 0 == f.owner) && s.turnOk f

/-- FLIT_FORWARD: flit `id` crosses to the next room in slot `hop.2` of its sender's frame, added to reduce-write `hop.1`
where they meet (R229). (Log 164: DESIGN CHOICE.) -/
def execFlitForward (id : Nat) (hop : Option Nat × Nat) (s : State) : Host.Outcome State Fault Refusal :=
  if hop.2 < 64 then
    match s.hall.flits.find? (fun g => g.id == id) with
    | none => .next s
    | some f0 =>
      if f0.queued || f0.at_ == f0.to_ && f0.mid.isNone then .next s
      else match s.inject f0 with
      | none => .next s
      | some (s', f1) =>
        let other := (hop.1.bind (fun j => s'.hall.flits.find? (fun g => g.id == j))).filter (s'.mayCombine f0)
        let f := match other with
          | some g => { f1 with srcs := f1.srcs ++ g.srcs, addends := joinAddends f1.addends g.addends, mark := f1.mark || g.mark }
          | none => f1
        if s'.mayCross f1 hop.2 then
          let n := f.next
          let reached := f.mid == some n
          let f' := { f with at_ := n, from_ := f.at_, mid := if reached then none else f.mid,
                             net := if reached then 1 else f.net, leg := if reached then 1 else f.leg }
          let rest := s'.hall.flits.filter (fun g => g.id != id && (other.map Flit.id) != some g.id)
          .next { s' with hall := { s'.hall with
            flits := rest ++ [f'], rr := if s'.sharedMode then tput s'.hall.rr (rrKey f1) (f1.input + 1) 0 else s'.hall.rr } }
        else .next s
  else .refused .illFormed

/-! ### Accesses at their endpoints -/

/-- R177: the new value of an atomic. -/
def atomicNew (op width m v w : Nat) : Nat :=
  let bits := 8 * width
  let lt := fun (a b : Nat) => decide (toSigned bits a < toSigned bits b)
  let w32 := fun (x : Nat) => (BitVec.ofNat 32 x : Word)
  match op with
  | 0x20 => (m + v) % 2 ^ bits
  | 0x21 => (fadd (w32 m) (w32 v)).toNat
  | 0x22 => if lt v m then v else m
  | 0x23 => if lt m v then v else m
  | 0x24 => min m v
  | 0x25 => max m v
  | 0x26 => (fmin (w32 m) (w32 v)).toNat
  | 0x27 => (fmax (w32 m) (w32 v)).toNat
  | _ => if m = w then v else m

/-- All-ones bytes. -/
def allOnes (n : Nat) : Nat := 2 ^ (8 * n) - 1

/-- R170, R177, R179, R521: performs a read, write or atomic of a flit at its location; the answer is the value read. -/
def State.perform (s : State) (f : Flit) (det : Option (Nat × Nat)) : State × Nat :=
  let s := s.detect f.part f.dst det
  if f.kind = 2 then
    (((s.writeLoc f.part f.dst (leBytes f.width f.data) false).noteWrite f.part f.addr), 0)
  else
    let (s, bs, m) := s.readLoc f.part f.dst f.width
    if m then (s.raiseVote f.part voteReplay, allOnes f.width)
    else if f.kind = 4 then
      let new := atomicNew f.op f.width (leNat bs) f.data f.cmp
      ((s.writeLoc f.part f.dst (leBytes f.width new) false).noteWrite f.part f.addr, leNat bs)
    else (s, leNat bs)

/-- Removes the entry of a completed access of a core. -/
def State.accDone (s : State) (c sq : Nat) : State :=
  s.modCore c (fun x => { x with outs := x.outs.filter (fun o => o.sq != sq) })

/-- A store is visible: as a store it is complete; a fabric write still awaits its acknowledgement. -/
def State.accVisible (s : State) (c sq : Nat) (fabric : Bool) : State :=
  s.modCore c (fun x => { x with outs := x.outs.filterMap (fun o =>
    if o.sq != sq then some o
    else if fabric then some { o with isStore := false, fabric := true }
    else if o.isLoad then some { o with isStore := false } else none) })

/-- Answers a performed request: a response with the value, or an acknowledgement. -/
def State.answer (s : State) (f : Flit) (v : Nat) : State :=
  let src := f.srcs.headD (0, 0)
  if f.kind = 0 then s.respond f src 1 v
  else if f.kind = 4 ∧ f.ret then (s.accVisible f.core f.sq false).respond f src 5 v
  else (s.accVisible f.core f.sq false).respond f src 3 0

/-- R147, R178: the value of a scalar load has come back to its core; a load of an ended attempt is discarded (R569). -/
def State.loadValue (s : State) (c sq v : Nat) : State :=
  s.modCore c (fun x => { x with loads := x.loads.map (fun l => if l.sq = sq then { l with value := some v } else l) })

/-- Names a copy: its slot and the sequence number of its ISSUE. -/
def copyKey (sq slot : Nat) : Nat := 64 * sq + slot + 1

/-- Changes the copy of a core that `key` names, while it still occupies its slot. -/
def State.modCopy (s : State) (c key : Nat) (f : CopySlot → CopySlot) : State :=
  s.modCore c (fun x =>
    let slot := (key - 1) % 64
    match tget x.slots slot none with
    | some y => if y.sq = (key - 1) / 64 then { x with slots := tput x.slots slot (some (f y)) none } else x
    | none => x)

/-- R165: an acknowledgement of one Bridle transaction or reduce-write of a copy. -/
def State.copyAck (s : State) (c key : Nat) : State :=
  s.modCopy c key (fun y => { y with outstanding := y.outstanding - 1 })

/-- R181, R361: the Bridle transaction of a scalar flit. -/
def Flit.txn (f : Flit) (node off : Nat) : Txn :=
  if f.kind = 0 then lineRead node off
  else if f.kind = 2 then lineWrite node off (leBytes f.width f.data)
  else
    let op := match f.op with
      | 0x20 => 5
      | 0x22 => 6
      | 0x23 => 7
      | _ => 8
    { op := op, dst := node, addr := off, operand := f.data, data := if op = 8 then leBytes 8 f.cmp else [] }

/-- R372: the ownership message of an ST.REL store: message, region and larder notice offset. -/
def Flit.ownMsg (f : Flit) (off : Nat) : Nat × Nat × Nat :=
  (f.data % 16, (off - 0xF0000000000) / 8, f.data / 2 ^ 16 * 8)

/-- A scalar access reaches its Bridle port (R354, R372, R374); none where it must wait. -/
def State.toBridle (s : State) (f : Flit) (node off : Nat) : Option State :=
  let s0 := s.dropFlit f.id
  if 0xF0000000000 ≤ off then
    let (msg, region, notice) := f.ownMsg off
    let op := if msg = 1 then 9 else 11
    let busy := s.brdl.txns.any (fun t => t.t.dst == node && !t.fenced && (t.t.op == 2 || (decide (5 ≤ t.t.op) && decide (t.t.op ≤ 8))))
    let quiet := op = 9 ∨ !busy
    if msg ≠ 1 ∧ msg ≠ 2 then some ((s0.accVisible f.core f.sq false).stopPart f.part St.ADDR_FAULT)
    else if quiet && s.mayOpen f.part node op then
      let s1 := (s0.accVisible f.core f.sq true).openTxn f.part
        { op := op, dst := node, addr := off, data := leBytes 8 notice } (.own msg f.part notice f)
      some (if op = 9 then { s1 with brdl := { s1.brdl with ownWait := s1.brdl.ownWait ++ [(node, region, f.part, notice)] } }
        else s1)
    else none
  else
    let t := f.txn node off
    if s.mayOpen f.part node t.op then
      let load := f.kind == 0 || f.ret
      let s1 := if f.kind = 0 then s0 else s0.accVisible f.core f.sq (!f.ret)
      some (s1.openTxn f.part t (if load then .load f else .store f))
    else none

/-- A scalar access reaches its PCIe port: `host` is what host memory returns (R389, R403); none while the link is down or,
in shared mode, no slot of the port names the partition (R409). -/
def State.toHost (s : State) (f : Flit) (port bus host : Nat) : Option State :=
  if s.portServes f.part then
    let s := s.dropFlit f.id
    if f.kind = 0 then some (s.respond f (f.srcs.headD (0, 0)) 1 (host % 2 ^ (8 * f.width)))
    else some (((s.hostWrite port bus (leBytes f.width f.data)).accVisible f.core f.sq true).respond f (f.srcs.headD (0, 0)) 3 0)
  else none

/-- R234: what an endpoint does with a flit's GEN: 0 accept, 1 drop, 2 drop and report it ahead. -/
def genVerdict (g h : Nat) : Nat := if g = h then 0 else if serialLt g h 16 then 1 else 2

/-- R234: something of generation `g` of partition `p` is dropped: it is counted, and reported when ahead. -/
def State.countStale (s : State) (p g : Nat) : State :=
  let h := s.fld F.HALL_GEN_GEN p 0
  let s := s.incFld F.HALL_GEN_DROPS_COUNT p 0
  if genVerdict g h = 2 then s.post Ev.HALL_GEN_AHEAD 0x23 p (some p) (leBytes 2 g ++ leBytes 2 h) else s

/-- R234: a dropped flit. -/
def State.dropStale (s : State) (f : Flit) : State := (s.dropFlit f.id).countStale f.part f.gen

/-- The flit has been accepted by its endpoint, its GEN current; none where the endpoint makes it wait. -/
def State.deliver (s : State) (f : Flit) (host : Nat) (det : Option (Nat × Nat)) : Option State :=
  match f.kind with
  | 1 | 5 => some ((s.dropFlit f.id).loadValue f.ep f.sq f.data)
  | 3 =>
    let s := s.dropFlit f.id
    -- the acknowledgement of a reduce-write names the copy it belongs to
    match f.srcs with
    | (_, _ + 1) :: _ => some (f.srcs.foldl (fun s q => s.copyAck q.1 q.2) s)
    | _ => some (s.accDone f.ep f.sq)
  | 7 => some (s.dropFlit f.id)
  | _ =>
    match f.dst with
    | .bridle node off => s.toBridle f node off
    | .host port bus => s.toHost f port bus host
    | .cellar _ =>
      -- the controller serves its requests in the order in which it accepts them
      let s' := s.setFlits (s.hall.flits.filter (fun g => g.id != f.id) ++ [{ f with queued := true }])
      -- a cellar store is visible once its controller has accepted it (R192)
      some (if f.kind = 2 then s'.accVisible f.core f.sq false else s')
    | .cached nat =>
      if s.lineServed f.part (nat / 256) false then
        let (s, v) := (s.dropFlit f.id).perform f det
        some (s.answer f v)
      else none
    | _ =>
      let (s, v) := (s.dropFlit f.id).perform f det
      some (s.answer f v)

/-- FLIT_ARRIVE (R234, R524): flit `id`, in its destination room, is checked and performed or dropped. `crcBad` says its
CRC fails at the room it has come to, `host` is what host memory returns to a read, `det` a storage error met (R518). -/
def execFlitArrive (id : Nat) (crcBad : Bool) (host : Nat) (det : Option (Nat × Nat)) (t : Nat) (s : State) :
    Host.Outcome State Fault Refusal :=
  let s := s.toTime t
  match s.hall.flits.find? (fun g => g.id == id) with
  | none => .next s
  | some f0 =>
    if crcBad then
      -- discarded and sent again ahead of any later flit of its lane
      if f0.inj && f0.from_ != 100 && !f0.queued then .next (s.resend f0) else .next s
    else if f0.at_ != f0.to_ || f0.mid.isSome || f0.queued || f0.kind == 6 || !s.atHead f0 || s.deadPlace f0.at_ then .next s
    else match s.inject f0 with
    | none => .next s
    | some (s', f) =>
      if f.part = 512 ∨ genVerdict f.gen (s'.fld F.HALL_GEN_GEN f.part 0) = 0 then
        match s'.deliver f host det with
        | some s'' => .next s''
        | none => .next s
      else .next (s'.dropStale f)

/-! ### Reduce-writes (R228-R232) -/

/-- Applies addends to a line, element by element, each m := fl(m + v). -/
def State.applyAddends (s : State) (p key : Nat) (as : List (Option Word)) : State :=
  (List.range 16).foldl (fun s i => match as.getD i none with
    | some v =>
      let k := .larder (key + 4 * i)
      let (s, bs, m) := s.readLoc p k 4
      if m then s.raiseVote p voteReplay
      else s.writeLoc p k (leBytes 4 (fadd (BitVec.ofNat 32 (leNat bs)) v).toNat) false
    | none => s) s

/-- Applies one contribution: a marked one marks its line (R521). -/
def State.applyReduce (s : State) (p key : Nat) (as : List (Option Word)) (mark : Bool) : State :=
  let s := s.applyAddends p key as
  if mark then { s with larderMark := setAdd s.larderMark (key / 64) } else s

/-- R257: the sources listed for a destination line and tag. -/
def PartSt.redSources (x : PartSt) (lineOff tag : Nat) : Option (List Nat) :=
  (x.harness.reductions.find? (fun e => e.tag == tag && decide (e.dst ≤ lineOff) && decide (lineOff < e.dst + 64 * e.lines))).map
    (fun e => e.srcs)

/-- R230: a contribution reaches its slice in ordered mode; none is REDUCE_FAULT. -/
def State.stageReduce (s : State) (f : Flit) (key : Nat) : Option State :=
  let p := f.part
  let x := s.part p
  let src := x.indexOf f.core
  match x.redSources (f.addr % 2 ^ 60) f.tag with
  | none => none
  | some listed =>
    let had := s.hall.applied.contains (p, key, f.tag, src) ||
      s.hall.staged.any (fun g => g.part == p && g.key == key && g.tag == f.tag && g.src == src)
    if !listed.contains src || had then none
    else
      let staged := s.hall.staged ++ [⟨p, key, f.tag, src, f.addends, f.mark⟩]
      let here := staged.filter (fun g => g.part == p && g.key == key && g.tag == f.tag)
      if listed.all (fun i => here.any (fun g => g.src == i)) then
        let inOrder := sortBy (fun (a b : Staged) => decide (x.coreAt a.src ≤ x.coreAt b.src)) here
        let s := inOrder.foldl (fun s g => s.applyReduce p key g.addends g.mark) s
        some { s with hall := { s.hall with
            staged := staged.filter (fun g => !(g.part == p && g.key == key && g.tag == f.tag))
            applied := s.hall.applied ++ here.map (fun g => (p, key, f.tag, g.src)) } }
      else some { s with hall := { s.hall with staged := staged } }

/-- R232: one acknowledgement to each source of a reduce-write's SRC list, for every unit of it that the flit carries. -/
def State.ackSources (s : State) (f : Flit) : State :=
  (sources f.srcs).foldl (fun s c => s.respondAll f c (f.srcs.filter (fun q => q.1 == c)) 3 0) s

/-- REDUCE_WRITE_ARRIVE (R230-R232): a reduce-write at its slice is applied at once, or staged when combining is off, and
each of its sources is acknowledged; one that is refused stops the partition. -/
def execReduceWriteArrive (id : Nat) (det : Option (Nat × Nat)) (s : State) : Host.Outcome State Fault Refusal :=
  match s.hall.flits.find? (fun g => g.id == id) with
  | none => .next s
  | some f0 =>
    if f0.kind != 6 || f0.at_ != f0.to_ || f0.mid.isSome || !s.atHead f0 || s.deadPlace f0.at_ then .next s
    else match s.inject f0 with
    | none => .next s
    | some (s', f) =>
      if genVerdict f.gen (s'.fld F.HALL_GEN_GEN f.part 0) = 0 then
        match f.dst with
        | .larder key =>
          let s1 := (s'.dropFlit id).detect f.part f.dst det
          if s1.combining f.part then .next ((s1.applyReduce f.part key f.addends f.mark).ackSources f)
          else match s1.stageReduce f key with
          | some s2 => .next (s2.ackSources f)
          | none => .next (s1.stopPart f.part St.REDUCE_FAULT)
        | _ => .next (s'.dropFlit id)
      else .next (s'.dropStale f)

/-! ### Link retrains and slot frames -/

/-- HALL_LINK_RETRAIN_END (R524): the retrain of the link that room `room` (200 + room: the porch towards it) sends by on a
side ends, well or not; after three failures in a row the link is down and every partition stops. -/
def execHallLinkRetrainEnd (room side : Nat) (ok : Bool) (t : Nat) (s : State) : Host.Outcome State Fault Refusal :=
  if hallRoom room < 100 ∧ side < 4 then
    let s := s.toTime t
    let k := room * 4 + side
    let x := s.link k
    if !x.retraining || decide (s.mono < x.retrainEnd) then .next s
    else if ok then .next (s.setLink k { x with retraining := false, failures := 0 })
    else if x.failures + 1 < 3 then .next ((s.setLink k { x with failures := x.failures + 1 }).retrainLink room side x.runLane)
    else
      let s := s.setLink k { x with retraining := false, failures := 3, down := true }
      -- at the next bring-up boundary the end room with the higher number is retired, CAUSE 5
      let r := hallRoom room
      let far := if 200 ≤ room ∨ (isEdge r ∧ side = porchSide r) then r else roomBeside r side
      let s := { s with roomRetire := tput s.roomRetire (max r far) 5 0 }
      let s := s.post Ev.HALL_LINK_DOWN 0x10 r none (leBytes 1 r ++ leBytes 1 side ++ leBytes 2 x.runLane)
      .next (s.parts.foldl (fun s e => s.stopPart e.1 St.HALL_LINK_DOWN) s)
  else .refused .illFormed

/-- R239: the count of lanes on which each partition owns a slot. -/
def State.refreshLanes (s : State) : State :=
  s.parts.foldl (fun s e => if e.1 < 512 then s.setReg RG.HALL_LANES e.1 0 (s.ownLanes e.1).length else s) s

/-- HALL_SLOT_FRAME_BOUNDARY (R238): the written slot owners of a lane come into force at its senders. -/
def execHallSlotFrameBoundary (lane : Nat) (s : State) : Host.Outcome State Fault Refusal :=
  if lane < 375 then
    let slots := (List.range 64).foldl (fun t i =>
      let own := if s.fld F.HALL_SLOT_OWNED lane i = 1 then 512 + s.fld F.HALL_SLOT_PART lane i else 0
      tput t (lane * 64 + i) own 0) s.hall.slots
    .next ({ s with hall := { s.hall with slots := slots } }.refreshLanes)
  else .refused .illFormed

end Sys2Proof.Machine
end

