-- ==== Sys2Proof/Machine/Cellar.lean ====
section
/-! DEFINITION. Cellar controllers serving scalar requests (R188-R196, R409, R518) and the heat of the packages
(R200-R204, R208). -/

namespace Sys2Proof.Machine
open Sys2Proof

/-- CELLAR_ACCESS: controller `ctrl` performs its oldest accepted request. `det` is a storage error of the burst read
(R193, R195), `link` the number of its reads that fail link ECC. -/
def execCellarAccess (ctrl : Nat) (det : Option (Nat × Nat)) (link : Nat) (s : State) :
    Host.Outcome State Fault Refusal :=
  if ctrl < 96 then
    match s.hall.flits.find? (fun f => f.queued && f.ep == 15360 + ctrl) with
    | none => .next s
    | some f =>
      match f.dst with
      | .cellar nat =>
        if s.ctrlServes ctrl && s.cellSlot f.part then
          let s := (s.dropFlit f.id).linkEcc f.part nat link
          let (s, v) := s.perform f det
          .next (if f.kind = 2 then s.respond f (f.srcs.headD (0, 0)) 3 0 else s.answer f v)
        else .next s
      | _ => .next s
  else .refused .illFormed

/-! ### Heat -/

def State.heatLevel (s : State) (g : Nat) : Nat := s.fld F.CELL_TEMP_LEVEL (4 * g) 0

/-- R202, R204, R208: sets the heat level of a package group in its four controllers' pages and posts CELLAR_HOT. -/
def State.setHeat (s : State) (g new : Nat) : State :=
  let old := s.heatLevel g
  if old = new then s
  else
    let s := (List.range 4).foldl (fun s i =>
      let c := 4 * g + i
      ((s.setFld F.CELL_TEMP_LEVEL c 0 new).setFld F.CELL_STAT_HALF_RATE c 0 (b2n (new == 2))).setFld F.CELL_STAT_HELD c 0
        (b2n (new == 3))) s
    s.post Ev.CELLAR_HOT 0x30 (4 * g) none (leBytes 1 g ++ leBytes 1 old ++ leBytes 1 new)

/-! ### Guarantee shortfalls (R415) -/

/-- R415: the requests in progress of a partition overlap a shortfall. -/
def State.flagRequests (s : State) (p : Nat) (w b : Bool) : State :=
  (List.range 128).foldl (fun (s : State) r =>
    match s.req (ringKey p r) with
    | some q => if q.status.isNone then s.setReq (ringKey p r) (some { q with shortW := q.shortW || w, shortB := q.shortB || b }) else s
    | none => s) s

/-- The GUARANTEE_SHORTFALL event: kind 0 POWER, 1 BANDWIDTH; edge 0 start, 1 end. -/
def State.postShort (s : State) (p kind edge amount mj start : Nat) : State :=
  s.post Ev.GUARANTEE_SHORTFALL 0x27 p (some p) (leBytes 1 kind ++ leBytes 1 edge ++ leBytes 2 amount ++ leBytes 4 mj ++ leBytes 8 start)

/-- The 1/1,024 of a partition's cellar slots that heat levels leave unserved: half on a controller at level 2, all at
level 3. (Log 73: DEDUCED.) -/
def State.lostSlots (s : State) : Nat :=
  ((List.range 24).map (fun g => match s.heatLevel g with
    | 2 => 4
    | 3 => 8
    | _ => 0)).foldl (· + ·) 0 * 1024 / 192

/-- R415: bandwidth shortfalls begin and end with the heat levels and the slots, for every partition that has cellar slots.
(Log 73: DEDUCED.) -/
def State.bandShort (s : State) : State :=
  let lost := s.lostSlots
  s.parts.foldl (fun (s : State) e =>
    match (s.part e.1).shortB with
    | none =>
      if 0 < lost ∧ s.sharedMode ∧ e.2.pstate = .live ∧ s.cellSlot e.1 then
        ((s.modPart e.1 (fun x => { x with shortB := some (lost, s.mono, 0) })).flagRequests e.1 false true).postShort e.1 1 0 lost 0 s.mono
      else s
    | some (n, start, _) =>
      if lost = 0 ∨ !s.cellSlot e.1 then (s.modPart e.1 (fun x => { x with shortB := none })).postShort e.1 1 1 n 0 start else s) s

/-- CELLAR_MR4_POLL (R203, R208): package `pkg` reads refresh-rate field `mr4`, which JESD209-5C places in range `range`
of R202. (Log 118: DEDUCED.) -/
def execCellarMr4Poll (pkg mr4 range t : Nat) (s : State) : Host.Outcome State Fault Refusal :=
  if pkg < 192 ∧ mr4 < 32 ∧ range < 4 then
    let s := s.toTime t
    let c := pkg / 2
    let g := pkg / 8
    let s := if pkg % 2 = 0 then s.setFld F.CELL_TEMP_PKG0_MR4 c 0 mr4 else s.setFld F.CELL_TEMP_PKG1_MR4 c 0 mr4
    let x := tget s.heat g {}
    let ranges := x.ranges.set (pkg % 8) range
    let level := s.heatLevel g
    let allBelow := ranges.all (fun r => decide (r < level))
    -- a poll of the group ends with its last package
    let below := if !allBelow then 0 else if pkg % 8 = 7 then x.below + 1 else x.below
    let put := fun (s : State) (n : Nat) => { s with heat := tput s.heat g { ranges := ranges, below := n } {} }
    if level < range then .next ((put s 0).setHeat g range).bandShort
    else if 100 ≤ below then .next ((put s 0).setHeat g (level - 1)).bandShort
    else .next (put s below)
  else .refused .illFormed

end Sys2Proof.Machine
end

