-- ==== Sys2Proof/Machine/Journal.lean ====
section
/-! DEFINITION. The step journal: entries and the ring they lie in (R312-R317), and the arrivals it serves to repeated
and replayed attempts (R318, R331, R332). -/

namespace Sys2Proof.Machine
open Sys2Proof

def State.jrnlSize (s : State) (p : Nat) : Nat := s.fld F.TACK_JRNL_AREA_SIZE_GIB p 0 * gib
def State.jrnlBase (s : State) (p : Nat) : Nat := s.fld F.TACK_JRNL_AREA_BASE_GIB p 0 * gib
def State.jrnlWrite (s : State) (p : Nat) : Nat := s.reg64 RG.TACK_JRNL_WRITE_LO RG.TACK_JRNL_WRITE_HI p 0
def State.jrnlFloor (s : State) (p : Nat) : Nat := s.reg64 RG.TACK_JRNL_FLOOR_LO RG.TACK_JRNL_FLOOR_HI p 0

/-- R314: the bytes of an entry, its CRC included. -/
def jrnlBytes (e : JEnt) (len : Nat) : Bytes :=
  let body := fun (crc : Nat) => leBytes 4 len ++ leBytes 1 e.kind ++ leBytes 1 (e.attempt % 4) ++ leBytes 2 0 ++
    leBytes 8 e.step ++ leBytes 8 e.seq ++ leBytes 8 e.key0 ++ leBytes 8 e.key1 ++ leBytes 8 e.addr ++
    leBytes 4 e.payload.length ++ leBytes 4 crc ++ leBytes 8 0 ++ padTo e.payload (len - 64)
  body (crc32 (body 0))

/-- Writes `len` bytes of one entry at the write position; entries overwritten leave the ring, protected ones being
noted as lost (R316, R317). -/
def State.jrnlPut (s : State) (p : Nat) (e : JEnt) (len : Nat) : State :=
  let size := s.jrnlSize p
  let w := s.jrnlWrite p
  let x := s.part p
  let e := { e with seq := x.long.seq }
  let gone := x.long.marks.filter (fun m => decide (m.start + size < w + len))
  let lost := (gone.filter (fun m => m.kind != 0 && decide (s.jrnlFloor p ≤ m.step))).map (fun m => m.step)
  let s := s.cellarWrite x.key (s.cellBase p + s.jrnlBase p + w % size) (jrnlBytes e len)
  let s := s.cellarMarkWrite p (s.cellBase p + s.jrnlBase p + w % size) len false
  let s := if lost = [] then s else s.setFld F.TACK_JRNL_STAT_GAP p 0 1
  let s := s.setReg64 RG.TACK_JRNL_WRITE_LO RG.TACK_JRNL_WRITE_HI p 0 (w + len)
  s.modPart p (fun x => { x with long := { x.long with
    seq := x.long.seq + 1
    writeCount := x.long.writeCount + len
    lost := x.long.lost ++ lost
    marks := x.long.marks.filter (fun m => !decide (m.start + size < w + len)) ++
      [⟨e.kind, e.attempt, e.step, e.seq, e.key0, e.key1, e.addr, w, len, e.payload.length⟩] } })

/-- R312, R313, R315: writes an entry while recording is on, with a PAD entry first where it would cross the ring's
end. -/
def State.jrnl (s : State) (p kind key0 key1 addr : Nat) (payload : Bytes) : State :=
  let size := s.jrnlSize p
  let len := 64 + (payload.length + 63) / 64 * 64
  if s.fld F.TACK_JRNL_CFG_EN p 0 = 0 ∨ (s.part p).replaying ∨ size < len then s
  else
    let x := s.part p
    let e : JEnt := { kind := kind, attempt := x.attempt, step := x.step, key0 := key0, key1 := key1, addr := addr,
                      payload := payload }
    let room := size - s.jrnlWrite p % size
    let s := if room < len then
        s.jrnlPut p { kind := 0, attempt := x.attempt, step := x.step, payload := List.replicate (room - 64) 0 } room
      else s
    s.jrnlPut p e len

/-- R202, R312: the controllers behind the next entry, of `n` bytes of payload, serve its writes; always where nothing is
recorded. -/
def State.jrnlServed (s : State) (p n : Nat) : Bool :=
  let size := s.jrnlSize p
  let len := 64 + (n + 63) / 64 * 64
  let base := s.cellBase p + s.jrnlBase p
  let room := size - s.jrnlWrite p % size
  decide (s.fld F.TACK_JRNL_CFG_EN p 0 = 0) || (s.part p).replaying || decide (size < len) ||
    (s.cellarServed p (base + s.jrnlWrite p % size) (min len room) && (decide (len ≤ room) || s.cellarServed p base len))

/-- R316: free space of the ring, from the write position to the first protected entry. -/
def State.jrnlFree (s : State) (p : Nat) : Nat :=
  match (s.part p).long.marks.find? (fun m => m.kind != 0 && decide (s.jrnlFloor p ≤ m.step)) with
  | some m => m.start + s.jrnlSize p - s.jrnlWrite p
  | none => s.jrnlSize p

/-- R316: a hold ends once the floor has risen and the ring has room for the largest attempt. (Log 138: DEDUCED.) -/
def State.jrnlRelease (s : State) (p : Nat) : State :=
  if s.fld F.TACK_JRNL_STAT_HELD p 0 = 1 ∧ (s.part p).long.largest ≤ s.jrnlFree p then s.setFld F.TACK_JRNL_STAT_HELD p 0 0 else s

/-- The payload of an entry in the ring. -/
def State.jrnlPayload (s : State) (p : Nat) (m : JrnlMark) : Bytes :=
  s.cellarRead (s.part p).key (s.cellBase p + s.jrnlBase p + m.start % s.jrnlSize p + 64) m.plen

/-- R318, R331: the bytes the journal serves for an arrival. The first answer: the arrival is taken from the journal and
not from outside; the second: the bytes, where it holds the key. -/
def State.jrnlServe (s : State) (p kind key0 key1 : Nat) : Bool × Option Bytes :=
  let x := s.part p
  match x.long.replay with
  | some r =>
    -- entries of the attempt in hand lie before the next OPEN
    let here := (r.ents.drop 1).takeWhile (fun e => e.kind != 1)
    (true, (here.find? (fun e => e.kind == kind && e.key0 == key0 && e.key1 == key1)).map (fun e => e.payload))
  | none =>
    match (x.long.marks.filter (fun m => m.kind == kind && m.step == x.step && decide (m.attempt < x.attempt) &&
        m.key0 == key0 && m.key1 == key1)).getLast? with
    | some m => (true, some (s.jrnlPayload p m))
    | none => (false, none)

/-- R332: a replay finds a difference; only the first is kept. One of kind ARRIVAL is found as the arrival is made, and with
STOP_ON_DIVERGE the attempt ends there. -/
def State.diverge (s : State) (p : Nat) (d : JDiff) : State :=
  match (s.part p).long.replay with
  | some r =>
    let s := s.modPart p (fun x => { x with long := { x.long with replay := some (if r.diff.isNone then { r with diff := some d } else r) } })
    if r.stopOn ∧ d.kind = 4 then s.abandon p else s
  | none => s

/-- R331, R332: the bytes of a served arrival of `n` bytes; during a replay an arrival without an entry is a difference
of kind ARRIVAL, and what it delivers is open. -/
def State.servedBytes (s : State) (p n : Nat) (b : Option Bytes) : State × Bytes :=
  match b with
  | some bs => (s, bs)
  | none =>
    let x := s.part p
    (s.diverge p ⟨4, x.attempt, 0, x.step, 0, 0⟩).freeBytes n

/-- KEY0 of a PULL or SCALAR entry (R313). -/
def PartSt.jrnlKey (x : PartSt) (c ord : Nat) : Nat := x.indexOf c * 2 ^ 32 + ord

end Sys2Proof.Machine
end

