-- ==== Sys2Proof/Machine/Quant.lean ====
section
/-! DEFINITION. The quantising store shared by QUANT and the array drain: configurations and state records (R68, R70,
R72), amax and statistics (R73, R82), error feedback (R78, R79) and numeric trouble (R84, R85, R88). -/

namespace Sys2Proof.Machine
open Sys2Proof

/-- A quantiser configuration of R68. -/
structure QCfg where
  smode : Nat
  rnd : Nat
  ef : Bool
  troubleEn : Bool
  fixedSe8 : Nat
  margin : Nat
  histLen : Nat
  limit : Nat
  qstate : Nat
  stats : Nat
  resA : Nat
  resB : Nat
  deriving DecidableEq, Repr

def decodeQCfg (b : Bytes) : QCfg :=
  let c := fieldAt b 0 1
  ⟨bitsOf c 1 0, bitsOf c 3 2, bitOf c 4, bitOf c 5, fieldAt b 1 1, fieldAt b 2 1 % 8, fieldAt b 3 1, fieldAt b 4 2,
    fieldAt b 8 4, fieldAt b 12 4, fieldAt b 16 8, fieldAt b 24 8⟩

/-- R69: is a configuration refused with FORMAT_FAULT? -/
def qcfgBad (b : Bytes) : Bool :=
  let q := decodeQCfg b
  decide (q.smode = 3) || decide (q.rnd = 3) || decide (64 ≤ fieldAt b 0 1) || decide (8 ≤ fieldAt b 2 1) ||
    decide (fieldAt b 6 2 ≠ 0) || (decide (q.smode = 2) && (decide (q.fixedSe8 = 0) || decide (q.fixedSe8 = 255))) ||
    (decide (q.smode = 0) && (decide (q.histLen = 0) || decide (16 < q.histLen))) ||
    (q.ef && (decide (q.resA % 256 ≠ 0) || decide (q.resB % 256 ≠ 0)))

/-- Entry `HIST[(HEAD - i) mod 16]` of a state record. -/
def qHist (st : Bytes) (i : Nat) : Word := BitVec.ofNat 32 (fieldAt st (8 + 4 * ((fieldAt st 1 1 + 16 - i % 16) % 16)) 4)

/-- R70: is a state record refused with FORMAT_FAULT at load? -/
def qstateBad (b : Bytes) : Bool :=
  decide (16 < fieldAt b 0 1) || decide (15 < fieldAt b 1 1) || decide (8 ≤ fieldAt b 2 1) ||
    decide (fieldAt b 3 1 ≠ 0) || (slice b 0x48 56).any (fun x => x != 0) ||
    (List.range (fieldAt b 0 1)).any (fun i =>
      match f32 (qHist b i) with
      | .fin neg m _ => neg && decide (m ≠ 0)
      | _ => true)

def State.qcfg (s : State) (p i : Nat) : QCfg := decodeQCfg (s.lard p ((s.part p).harness.qcfgBase + 32 * i) 32)

/-- Larder offset of a state record. -/
def PartSt.qstateOff (x : PartSt) (i : Nat) : Nat := x.harness.qstateBase + 128 * i

/-- The state record as it stood at the start of the attempt (R83). -/
def State.qstate (s : State) (p i : Nat) : Bytes :=
  match (s.part p).qsnap[i]? with
  | some b => b
  | none => s.lard p ((s.part p).qstateOff i) 128

/-- R72: the largest magnitude of the window: none is an infinite entry; NaN and zeros count as 0. -/
def qWindow (st : Bytes) (n : Nat) : Option (Nat × Int) :=
  (List.range n).foldl (fun acc i =>
    match acc, f32 (qHist st i) with
    | none, _ => none
    | _, .inf _ => none
    | some a, .fin _ m e => if magLt a (m, e) then some (m, e) else some a
    | some a, .nan => some a) (some (0, 0))

/-- R72: e_t of an operation; none is just-in-time mode. A configuration rewritten in the larder after the load into a form
R69 refuses still runs: SMODE 3, and SMODE 0 with HIST_LEN 0, as just-in-time mode, a HIST_LEN above 16 as 16.
(Log 145: DESIGN CHOICE.) -/
def effMode (q : QCfg) (st : Bytes) (mx : Nat) : Option Nat :=
  if bitOf (fieldAt st 2 1) 2 ∨ q.smode = 1 ∨ q.smode = 3 then none
  else if q.smode = 2 then some q.fixedSe8
  else
    match qWindow st (min q.histLen (min 16 (fieldAt st 0 1))) with
    | none => some 254
    | some h => if h.1 = 0 then none else some (scaleExp (h.1, h.2 + q.margin) mx)

/-- What a quantising operation has produced so far: planned writes, counters, elements handled, largest magnitude. -/
structure QRun where
  writes : List (Nat × Bytes) := []
  cnt : Counters := {}
  n : Nat := 0
  amax : Nat := 0
  deriving DecidableEq, Repr

def Counters.add (a b : Counters) : Counters :=
  ⟨a.saturated + b.saturated, a.flushed + b.flushed, a.zeroBlocks + b.zeroBlocks, a.riveted + b.riveted,
    a.poison + b.poison⟩

/-- R78: BF16 residuals of `n` elements from a device address; marked ones read as NaN, and those in another node or in host
memory as what is open here. (Log 161: DESIGN CHOICE.) -/
def State.residuals (s : State) (p c addr n : Nat) : Except (Nat × Nat) (State × List Num) :=
  foldE (fun (a : State × List Num) i =>
    match a.1.devRead p (.core c) (addr + 2 * i) 2 with
    | .error e => .error e
    | .ok (s, bs, m) =>
      let (s, bs) := if bs = [] then s.freeBytes 2 else (s, bs)
      .ok (if m then s.raiseVote p voteReplay else s, a.2 ++ [if m then .nan else bfWiden (leNat bs)]))
    (s, []) (List.range n)

/-- The bytes of a block at its place in every plane of a narrow tensor (R41, R42). -/
def blkWrites (d : NDesc) (row kb : Nat) (b : Blk) : List (Nat × Bytes) :=
  let i := row * d.kb + kb
  [(d.eBase + i * nEBytes d.fmt, packCodes d.fmt b.codes), (d.sBase + i, leBytes 1 b.se8)] ++
    (if d.riv then [(d.riBase + i, leBytes 1 b.ri), (d.rvBase + 2 * i, leBytes 2 b.rv)] else [])

/-- R74, R79: one block of the operation, its 32 source values given. -/
def State.quantBlock (s : State) (p c : Nat) (q : QCfg) (st : Bytes) (d : NDesc) (acc : QRun) (row kb : Nat)
    (xs : List Num) : Except (Nat × Nat) (State × QRun) :=
  let k := (d.kb - 1) * 32 + d.ktail
  let idx0 := row * k + 32 * kb
  let nv := nValid k kb
  let par := bitOf (fieldAt st 2 1) 0
  let resIn := if par then q.resB else q.resA
  let resOut := if par then q.resA else q.resB
  let rin := if q.ef then s.residuals p c (resIn + 2 * idx0) nv else .ok (s, [])
  match rin with
  | .error e => .error e
  | .ok (s, rs) =>
    let xs := if q.ef then (List.range 32).map (fun i => (xs.getD i .nan).add (rs.getD i (.fin false 0 0))) else xs
    let seed := (s.part p).harness.jobSeed
    let step := (s.part p).step
    let et := effMode q st (nMax d.fmt)
    let r := quantiseBlock xs nv d.fmt et.isNone (rndOf q.rnd) d.riv (et.getD 127)
      (fun i => srBits seed step d.tid (idx0 + i))
    let res := if q.ef then
        [(resOut + 2 * idx0, (List.range nv).flatMap (fun i =>
          leBytes 2 (residualOut (xs.getD i .nan) (r.blk.value d.fmt nv i))))]
      else []
    let am := (List.range nv).foldl (fun a i =>
      match xs.getD i .nan with
      | .fin _ m e => max a (fp32Up (m, e))
      | _ => a) acc.amax
    .ok (s, { writes := acc.writes ++ blkWrites d row kb r.blk ++ res,
              cnt := acc.cnt.add ⟨r.saturated, r.flushed, r.zero, r.riveted, r.poison⟩,
              n := acc.n + nv, amax := am })

/-- R81, R82: adds operation counters into statistics record `i`; 0xFFFF_FFFF names none. A counter of 0 is not added, so
it meets no mark of its line (R521). (Log 146: DESIGN CHOICE.) -/
def State.statsAdd (s : State) (p i : Nat) (c : Counters) : State :=
  if i = 0xFFFFFFFF then s
  else
    let o := (s.part p).harness.statsBase + 48 * i
    let add := fun (s : State) (off v : Nat) => if v = 0 then s else (s.lardAdd p (o + off) 8 v).1
    add (add (add (add (add s 0 c.saturated) 8 c.flushed) 16 c.zeroBlocks) 24 c.riveted) 32 c.poison

/-- R73: CUR_AMAX raised by a larder atomic maximum, TOUCHED set; a marked line takes neither (R521). -/
def State.raiseAmax (s : State) (p i a : Nat) : State :=
  let o := (s.part p).qstateOff i
  match s.devRead p .agent (larderAddr o) 8 with
  | .ok (s, b, m) =>
    if m then s.raiseVote p voteReplay
    else
      let s := s.setLard p (o + 4) (leBytes 4 (max a (fieldAt b 4 4)))
      s.setLard p (o + 2) (leBytes 1 (withBits (fieldAt b 2 1) 1 1 1))
  | .error _ => s

/-- R84, R85: numeric trouble of an operation. -/
def State.trouble (s : State) (p c : Nat) (q : QCfg) (r : QRun) : State :=
  if q.troubleEn && decide (r.n * q.limit / 65536 < r.cnt.saturated + r.cnt.flushed) then
    let x := s.part p
    let s := (s.lardAdd p (x.harness.statsBase + 48 * q.stats + 0x28) 4 1).1
    let o := x.qstateOff q.qstate + 2
    let s := s.setLard p o (leBytes 1 (withBits (leNat (s.lard p o 1)) 2 2 1))
    let s := s.raiseVote p voteReplay
    s.post Ev.NUMERIC_TROUBLE 0x10 (s.physRoom (c / 128)) (some p) 
      (leBytes 4 q.qstate ++ leBytes 4 q.stats ++ leBytes 2 c ++ leBytes 1 x.attempt)
  else s

/-- A quantising operation of core `c` over whole blocks of `d` (R65, R66): the planned writes are answered, its amax,
statistics and trouble recorded. -/
def State.quantise (s : State) (p c qi : Nat) (d : NDesc) (blocks : List (Nat × Nat × List Num)) :
    Except (Nat × Nat) (State × List (Nat × Bytes)) :=
  let q := s.qcfg p qi
  let st := s.qstate p q.qstate
  match foldE (fun (a : State × QRun) b => a.1.quantBlock p c q st d a.2 b.1 b.2.1 b.2.2) (s, {}) blocks with
  | .error e => .error e
  | .ok (s, r) =>
    let s := s.raiseAmax p q.qstate r.amax
    let s := if q.ef then s.modPart p (fun x => { x with efUsed := setAdd x.efUsed q.qstate }) else s
    let s := s.statsAdd p q.stats r.cnt
    .ok (s.trouble p c q r, r.writes)

/-- Planned writes sorted by address, adjoining ones joined, so that a unit written whole is written at once (R522). -/
def joinWrites (ws : List (Nat × Bytes)) : List (Nat × Bytes) :=
  (sortBy (fun (a b : Nat × Bytes) => decide (a.1 ≤ b.1)) ws).foldr (fun w acc =>
    match acc with
    | (a, bs) :: rest => if w.1 + w.2.length = a then (w.1, w.2 ++ bs) :: rest else w :: acc
    | [] => [w]) []

/-- R78, R361, R381: residuals written to another node leave as WRITE transactions, one for each Bridle line they meet.
(Log 161: DESIGN CHOICE.) -/
def State.postFar (s : State) (p addr : Nat) (bs : Bytes) : Except (Nat × Nat) State :=
  let node := addr / 2 ^ 44 % 2 ^ 16
  foldE (fun (s : State) u =>
    let lo := max addr (128 * u)
    let n := min (addr + bs.length) (128 * u + 128) - lo
    if s.bridleRefused node (lo % 2 ^ 44) 1 2 false then .error (St.ADDR_FAULT, lo)
    else .ok (s.openTxn p (lineWrite node (lo % 2 ^ 44) (slice bs (lo - addr) n)) .posted)) s (unitsOf 128 addr bs.length)

/-- Applies planned writes of core `c`; the first that is refused ends them. -/
def State.putWrites (s : State) (p c : Nat) (ws : List (Nat × Bytes)) : Except (Nat × Nat) State :=
  foldE (fun (s : State) w =>
    if spaceOf w.1 = 4 then s.postFar p w.1 w.2 else s.devWrite p (.core c) w.1 w.2 false) s (joinWrites ws)

end Sys2Proof.Machine
end

