-- ==== Sys2Proof/Machine/Arrays.lean ====
section
/-! DEFINITION. The matrix arrays: issue, narrow and wide multiply-accumulate, MAC3, distance and comparison operations,
stitching and its injections, drains and write-outs (R94-R136, R142, R568). -/

namespace Sys2Proof.Machine
open Sys2Proof

/-! ### Issue (R142) -/

/-- An array slot of an issued bundle: its record enters the waiting register; a NOP record occupies nothing. `det` is a
storage error met by the fetch of the bundle (R518). -/
def execArraySlotIssue (core arr : Nat) (det : Option (Nat × Nat)) (s : State) : Host.Outcome State Fault Refusal :=
  if core < 12288 ∧ arr < 2 then
    match s.atSlot core (2 + arr) with
    | none => .next s
    | some (p, w) =>
      let s := s.fetchDet p core det
      let r := s.arrRecord p core w
      let s' := if r.op = 0 then s
        else s.modCore core (fun x =>
          { x.setArr arr { x.arr arr with waiting := some r, wsq := x.sq, wneed := x.need } with
            sq := x.sq + 1 })
      .next (if (s.part p).active then s'.slotDone p core (2 + arr) else s)
  else .refused .illFormed

/-! ### Shapes and checks (R100, R102, R104-R106, R118, R568) -/

/-- R106: the first row and column of an instruction's cells. -/
def ArrRec.origin (r : ArrRec) : Nat × Nat := if r.quart then (32 * (r.quarter / 2), 32 * (r.quarter % 2)) else (0, 0)

/-- The running position an instruction takes: its quarter, or 4 for the whole array. -/
def ArrRec.position (r : ArrRec) : Nat := if r.quart then r.quarter else 4

/-- R142: may the instruction leave the waiting register? -/
def ArrSt.mayStart (a : ArrSt) (r : ArrRec) : Bool :=
  if r.quart then a.running.all (fun j => j.1 != r.quarter && j.1 != 4) else a.running.isEmpty

/-- R102: the accepted operand and destination formats. -/
def pairingOk (op a b c : Nat) : Bool :=
  if op = 1 then
    ((isNarrow a && isNarrow b) || (decide (a = b) && (decide (a = 1) || decide (a = 2)))) && (isNarrow c || isWide c)
  else if op = 2 then decide (a = 0) && decide (b = 0) && decide (c = 3)
  else decide (a = b) && (decide (a = 9) || (decide (a = 1) && decide (op ≠ 8))) && (isNarrow c || decide (c ≤ 2))

/-- R105, R118: does the output fall outside the destination, or a quantising store write part of a block? -/
def ArrRec.destBad (r : ArrRec) (c : Desc) : Bool :=
  let nar := isNarrow c.fmt
  let (row0, rows, col0, cols) := if nar && r.qaxis then (r.cCol, r.n, r.cRow, r.m) else (r.cRow, r.m, r.cCol, r.n)
  decide (c.rows < row0 + rows) || decide (c.k < col0 + cols) ||
    (nar && r.store && (decide (col0 % 32 ≠ 0) || (decide ((col0 + cols) % 32 ≠ 0) && decide (col0 + cols ≠ c.k))))

/-- Does the instruction use its destination? Of one that neither stores nor loads only the format of C_DESC is checked
(R102), not its placement (R100) or its range (R105), for it moves no data there. (Log 147: DESIGN CHOICE.) -/
def ArrRec.usesDest (r : ArrRec) : Bool := r.store || decide (r.cinit = 2)

/-- R45, R99, R100, R102, R105: the descriptors of an instruction, or the status that stops the partition. -/
def State.arrDescs (s : State) (p : Nat) (r : ArrRec) : Except Nat (Desc × Desc × Desc) :=
  match s.desc p r.aDesc, s.desc p r.bDesc, s.desc p r.cDesc with
  | some a, some b, some c =>
    if !pairingOk r.op a.fmt b.fmt c.fmt then .error St.FORMAT_FAULT
    else if !(a.own && b.own && (c.own || !r.usesDest)) then .error St.ADDR_FAULT
    else if a.rows < r.aRow + r.m ∨ b.rows < r.bRow + r.n ∨ a.k < r.k0 + r.nk ∨ b.k < r.k0 + r.nk then
      .error St.SHAPE_FAULT
    else if r.usesDest && r.destBad c then .error St.SHAPE_FAULT
    else .ok (a, b, c)
  | _, _, _ => .error St.FORMAT_FAULT

/-! ### Pending write-outs and program order in the own pantry (R109, R168) -/

/-- Own-pantry byte ranges of elements `col0 .. col0 + cols - 1` of `rows` rows of a tensor. -/
def Desc.ranges (d : Desc) (row0 rows col0 cols : Nat) : List (Nat × Nat) :=
  match d with
  | .narrow d =>
    let b0 := col0 / 32
    let nb := (col0 + cols + 31) / 32 - b0
    (List.range rows).flatMap (fun m =>
      let i := (row0 + m) * d.kb + b0
      [(d.eBase + i * nEBytes d.fmt, nb * nEBytes d.fmt), (d.sBase + i, nb)] ++
        (if d.riv then [(d.riBase + i, nb), (d.rvBase + 2 * i, 2 * nb)] else []))
  | .wide d =>
    let w := wideBytes d.fmt
    (List.range rows).flatMap (fun m =>
      let o := ((row0 + m) * d.cols + col0) * w
      (d.base + o, cols * w) :: (if d.fmt = 3 then [(d.loBase + o, cols * w)] else []))

/-- The bytes an array instruction reads as operands. -/
def State.arrReads (s : State) (p : Nat) (r : ArrRec) : List (Nat × Nat) :=
  let rd := fun (i row0 rows : Nat) => match s.desc p i with
    | some d => d.ranges row0 rows r.k0 r.nk
    | none => []
  rd r.aDesc r.aRow r.m ++ rd r.bDesc r.bRow r.n

/-- The bytes an array instruction stores. -/
def State.arrStores (s : State) (p : Nat) (r : ArrRec) : List (Nat × Nat) :=
  if r.store then
    match s.desc p r.cDesc with
    | some d => if isNarrow d.fmt && r.qaxis then d.ranges r.cCol r.n r.cRow r.m else d.ranges r.cRow r.m r.cCol r.n
    | none => []
  else []

def anyOverlap (xs ys : List (Nat × Nat)) : Bool := xs.any (fun x => ys.any (fun y => overlaps x.1 x.2 y.1 y.2))

/-- Bytes of write-outs of core `c` still pending from array instructions issued before sequence number `sq`. -/
def State.pendingStores (s : State) (p c sq : Nat) : List (Nat × Nat) :=
  let x := s.core c
  [x.arr0, x.arr1].flatMap (fun a =>
    (match a.waiting with
      | some r => if a.wsq < sq then s.arrStores p r else []
      | none => []) ++
    a.running.flatMap (fun j => if j.2.1 < sq then s.arrStores p j.2.2.r else []) ++
    (match a.shadow with
      | some ws => if a.shadowSq < sq then ws.map (fun w => (w.1, w.2.length)) else []
      | none => []))

/-- Bytes that array instructions issued before `sq` and still waiting are to read. -/
def State.pendingReads (s : State) (p c sq : Nat) : List (Nat × Nat) :=
  let x := s.core c
  [x.arr0, x.arr1].flatMap (fun a => match a.waiting with
    | some r => if a.wsq < sq then s.arrReads p r ++ (if r.cinit = 2 then s.arrStores p { r with store := true } else [])
      else []
    | none => [])

/-- May an access of core `c` with sequence number `sq` read these own-pantry bytes (R109)? -/
def State.mayRead (s : State) (p c sq : Nat) (rs : List (Nat × Nat)) : Bool := !anyOverlap rs (s.pendingStores p c sq)

/-- May it write them? -/
def State.mayWrite (s : State) (p c sq : Nat) (rs : List (Nat × Nat)) : Bool :=
  !anyOverlap rs (s.pendingStores p c sq ++ s.pendingReads p c sq)

/-! ### Accumulators (R95, R115, R116) -/

/-- Cell number of output (m, n). -/
def ArrRec.cell (r : ArrRec) (m n : Nat) : Nat := 64 * (r.origin.1 + m) + r.origin.2 + n

/-- Every (m, n) of the shape. -/
def ArrRec.cells (r : ArrRec) : List (Nat × Nat) :=
  (List.range r.m).flatMap (fun m => (List.range r.n).map (fun n => (m, n)))

/-- R115: the identity of an operation. -/
def arrIdentity (op : Nat) : Word := if op = 3 then 0x7F800000 else if op = 4 then 0xFF800000 else 0

/-- R115 load: HI and LO of one cell from the destination, and whether a marked element was met. -/
def State.cinitLoad (s : State) (c : Nat) (d : Desc) (row col : Nat) : Word × Word × Bool :=
  match d with
  | .wide w =>
    let (h, l, m) := s.wideAt c w row col
    (fl h, if w.fmt = 3 then fl l else 0, m)
  | .narrow _ => (0, 0, false)

/-- R115, R116: HI and LO of a cell before the first product. -/
def State.cinit (s : State) (c : Nat) (a : ArrSt) (r : ArrRec) (d : Desc) (m n : Nat) : Word × Word × Bool :=
  let k := r.cell m n
  let hi := tget a.hi k 0
  let lo := tget a.lo k 0
  let was := a.paccCells.contains k
  match r.cinit with
  | 1 => if was && !r.pacc then (fadd hi lo, 0, false) else if r.pacc && !was then (hi, 0, false) else (hi, lo, false)
  | 2 => s.cinitLoad c d (r.cRow + m) (r.cCol + n)
  | _ => (arrIdentity r.op, 0, false)

/-! ### Faults in an array (R97, R127-R131, R136) -/

/-- The bits, modulo `w`, that faults of one target at a point and cell invert; `row` and `col` are those of the array. -/
def faultMask (fs : List ArrFault) (target pos row col w : Nat) : Nat :=
  fs.foldl (fun acc f => if f.target = target ∧ f.pos = pos ∧ f.row = row ∧ (f.col = col ∨ target = 1) then
    acc ^^^ 2 ^ (f.bit % w) else acc) 0

/-- One failed check: point of the reduction, KIND of R134, failing row, failing column. -/
structure ArrFail where
  pos : Nat
  kind : Nat
  row : Option Nat := none
  col : Option Nat := none
  deriving DecidableEq, Repr

/-- Is an exact value finite and within the FP32 range? -/
def inRange32 (x : Num) : Bool := x.isFin && !magLt (numMag (decodeF fmt32 0x7F7FFFFF)) (numMag x)

def numSum (xs : List Num) : Num := xs.foldl Num.add (.fin false 0 0)

/-- FP32 sum in ascending order. -/
def fsum32 : List Word → Word
  | [] => 0
  | x :: xs => xs.foldl fadd x

/-- R128: does the check of one row at one point fail? `x` is the common operand, `ys` the others, `ps` the FP32
products as they reach the checker, `tm` the bits of T inverted. -/
def wideCheck (x : Num) (ys : List Num) (ps : List Word) (tm : Nat) : Bool :=
  let prods := ys.map x.mul
  let beta := numSum ys
  let skip := !x.isFin || ys.any (fun y => !y.isFin) || prods.any (fun q => !inRange32 q) ||
    !inRange32 (numSum prods) || !inRange32 (x.mul beta) || !inRange32 beta || !inRange32 (numSum (prods.map Num.abs))
  if skip then false
  else
    let sS := f32 (fsum32 ps)
    let t := f32 (fl (x.mul (f32 (fsum32 (ys.map fl)))) ^^^ BitVec.ofNat 32 tm)
    let b := f32 (fsum32 (ps.map fabs))
    if !sS.isFin || !t.isFin || !b.isFin then true
    else
      let tol := ((b.mul (.fin false 1 (-12))).add (.fin false 1 (-143)))
      magLt (numMag tol) (numMag (sS.add t.negate))

/-! ### Narrow multiply-accumulate (R111, R113, R127, R129) -/

/-- R111 `accumulate`. -/
def accumulate (pacc : Bool) (hl : Word × Word) (n x : Int) : Word × Word :=
  if n = 0 then hl
  else if pacc then pairAdd hl.1 hl.2 (fp32Of n x)
  else (fl ((f32 hl.1).add (.ofInt n x)), hl.2)

/-- `accumulate` of a term already rounded to FP32, as an altered rivet term is. -/
def accumulate32 (pacc : Bool) (hl : Word × Word) (t : Word) : Word × Word :=
  if pacc then pairAdd hl.1 hl.2 t else (fadd hl.1 t, hl.2)

/-- One narrow operand: format and its blocks by row and block of the reduction. -/
structure NOperand where
  fmt : Nat
  rows : List (List Blk)
  deriving DecidableEq, Repr

def NOperand.blk (o : NOperand) (row j : Nat) : Blk := (o.rows.getD row []).getD j {}

/-- R127: the integer form with 0 at padding, at POISON codes and at the own valid rivet. -/
def Blk.iPrime (fmt nv : Nat) (b : Blk) (i : Nat) : Int :=
  if nv ≤ i ∨ b.se8 = 0 ∨ b.se8 = 255 ∨ b.rivIdx = some i then 0 else (nDecode fmt (b.codes.getD i 0)).getD 0

/-- The exact run of a block pair. -/
def narrowRun (fa fb nv : Nat) (a b : Blk) : Int :=
  ((List.range nv).map (fun i => a.iPrime fa nv i * b.iPrime fb nv i)).foldl (· + ·) 0

/-- The run with its faults (R136). -/
def alterRun (s : Int) (mask : Nat) : Int := if mask = 0 then s else toSigned 14 (ofSigned 14 s ^^^ mask)

/-- Exponent of a run (R111). -/
def runExp (fa fb : Nat) (a b : Blk) : Int := nOff fa + nOff fb + a.se8 + b.se8 - 254

/-- R111: rivet indices of a block pair, distinct and ascending, within the reduction. -/
def rivTerms (nv : Nat) (a b : Blk) : List Nat :=
  let f := fun (o : Option Nat) => (match o with
    | some i => if i < nv then [i] else []
    | none => [])
  (f a.rivIdx).foldl setAdd (f b.rivIdx)

/-- The rivet term at index `i` as (n, x). -/
def rivTerm (fa fb nv : Nat) (a b : Blk) (i : Nat) : Int × Int :=
  let u := (a.elem fa nv i).getD (0, 0)
  let v := (b.elem fb nv i).getD (0, 0)
  (u.1 * v.1, u.2 + v.2)

/-- The faults of a rivet lane on one cell: the A side's lane takes the terms riveted in A, the B side's the others. -/
def laneMask (fs : List ArrFault) (a : Blk) (i pos row col : Nat) : Nat :=
  faultMask fs (if a.rivIdx = some i then 2 else 3) pos row col 32

/-- R111: one block pair of one cell. -/
def macBlock (r : ArrRec) (fs : List ArrFault) (fa fb nv pos m n : Nat) (a b : Blk) (hl : Word × Word) : Word × Word :=
  let row := r.origin.1 + m
  let col := r.origin.2 + n
  let sg : Int := if r.neg then -1 else 1
  if a.poisoned fa nv || b.poisoned fb nv then (nan32, 0)
  else if a.se8 = 0 ∨ b.se8 = 0 then hl
  else
    let run := alterRun (narrowRun fa fb nv a b) (faultMask fs 0 pos row col 14)
    let hl := accumulate r.pacc hl (sg * run) (runExp fa fb a b)
    (rivTerms nv a b).foldl (fun hl i =>
      let t := rivTerm fa fb nv a b i
      let mask := laneMask fs a i pos row col
      if mask = 0 then accumulate r.pacc hl (sg * t.1) t.2
      else accumulate32 r.pacc hl (let w := fp32Of t.1 t.2 ^^^ BitVec.ofNat 32 mask; if r.neg then fneg w else w)) hl

/-- R91 as R113 uses it: terms of one block pair of one cell; an altered run stands for the run it replaces. -/
def xrefTerms (r : ArrRec) (fs : List ArrFault) (fa fb nv pos m n : Nat) (a b : Blk) : List (Int × Int) :=
  let sg : Int := if r.neg then -1 else 1
  let mask := faultMask fs 0 pos (r.origin.1 + m) (r.origin.2 + n) 14
  let tm := fun (i : Nat) => (let t := rivTerm fa fb nv a b i; (sg * t.1, t.2))
  if a.se8 = 0 ∨ b.se8 = 0 then []
  else if mask = 0 then (List.range nv).map tm
  else
    let rv := rivTerms nv a b
    (sg * alterRun (narrowRun fa fb nv a b) mask, runExp fa fb a b) :: rv.map tm

/-- The result of one cell of a narrow MAC over the blocks of its reduction. -/
def macNarrowCell (r : ArrRec) (fs : List ArrFault) (oa ob : NOperand) (nvs : List Nat) (m n : Nat) (hl : Word × Word) :
    Word × Word :=
  let js := List.range nvs.length
  let nv := fun j => nvs.getD j 0
  if r.xref then
    let c := if r.pacc && decide (r.cinit = 1) then fadd hl.1 hl.2 else hl.1
    if js.any (fun j => (oa.blk m j).poisoned oa.fmt (nv j) || (ob.blk n j).poisoned ob.fmt (nv j)) then (nan32, 0)
    else
      let e := exactFinish (js.flatMap (fun j => xrefTerms r fs oa.fmt ob.fmt (nv j) j m n (oa.blk m j) (ob.blk n j))) c true
      (e.1, if r.pacc then exactLo e.1 e.2 else 0)
  else js.foldl (fun hl j => macBlock r fs oa.fmt ob.fmt (nv j) j m n (oa.blk m j) (ob.blk n j) hl) hl

/-- R127: the row and column checks of each block that a fault of a cell or checksum concerns; in every other one both
sides are equal, for a fault-free run is exact. A row whose block is ZERO, or which meets none but ZERO blocks, has no
check, nor has such a column. -/
def narrowFails (r : ArrRec) (fs : List ArrFault) (oa ob : NOperand) (nvs : List Nat) : List ArrFail :=
  let run := fun (m n j : Nat) =>
    let a := oa.blk m j
    let b := ob.blk n j
    if a.se8 = 0 ∨ b.se8 = 0 then 0
    else alterRun (narrowRun oa.fmt ob.fmt (nvs.getD j 0) a b)
      (faultMask fs 0 j (r.origin.1 + m) (r.origin.2 + n) 14)
  let true' := fun (m n j : Nat) =>
    let a := oa.blk m j
    let b := ob.blk n j
    if a.se8 = 0 ∨ b.se8 = 0 then 0 else narrowRun oa.fmt ob.fmt (nvs.getD j 0) a b
  let sum := fun (l : List Int) => l.foldl (· + ·) 0
  let here := fs.filter (fun f => f.target ≤ 1 && decide (f.pos < nvs.length) && decide (r.origin.1 ≤ f.row) &&
    decide (f.row < r.origin.1 + r.m) && (f.target == 1 || (decide (r.origin.2 ≤ f.col) && decide (f.col < r.origin.2 + r.n))))
  here.flatMap (fun f =>
    let m := f.row - r.origin.1
    let n := f.col - r.origin.2
    let pred := toSigned 21 (ofSigned 21 (sum ((List.range r.n).map (fun n => true' m n f.pos))) ^^^
      faultMask fs 1 f.pos f.row 0 21)
    let nzA := fun (m : Nat) => (oa.blk m f.pos).se8 != 0
    let nzB := fun (n : Nat) => (ob.blk n f.pos).se8 != 0
    let rowBad := nzA m && (List.range r.n).any nzB && decide (sum ((List.range r.n).map (fun n => run m n f.pos)) ≠ pred)
    let colBad := f.target == 0 && nzB n && (List.range r.m).any nzA && decide (sum ((List.range r.m).map (fun m => run m n f.pos)) ≠
      sum ((List.range r.m).map (fun m => true' m n f.pos)))
    (if rowBad then [{ pos := f.pos, kind := 0, row := some f.row : ArrFail }] else []) ++
      (if colBad then [{ pos := f.pos, kind := 0, col := some f.col : ArrFail }] else []))

/-- R129: the check of one rivet lane: block `j` of row `m` of A (`aSide`) or of row `m` of B, where it carries a rivet. -/
def laneFail (r : ArrRec) (fs : List ArrFault) (oa ob : NOperand) (j nv : Nat) (aSide : Bool) (m : Nat) : List ArrFail :=
  let own := if aSide then oa.blk m j else ob.blk m j
  match own.rivIdx with
  | none => []
  | some i =>
    if nv ≤ i ∨ own.se8 = 0 ∨ own.se8 = 255 then []
    else
      -- a B-side lane leaves out rows whose own A rivet lies at the same index
      let cells := (if aSide then (List.range r.n).map (fun n => (m, n)) else (List.range r.m).map (fun k => (k, m))).filter
        (fun mn => aSide || (oa.blk mn.1 j).rivIdx != some i)
      let es := cells.map (fun mn => if aSide then (ob.blk mn.2 j).value ob.fmt nv i else (oa.blk mn.1 j).value oa.fmt nv i)
      let x := own.value (if aSide then oa.fmt else ob.fmt) nv i
      let ts := (cells.zip es).map (fun q => fl (x.mul q.2) ^^^
        BitVec.ofNat 32 (faultMask fs (if aSide then 2 else 3) j (r.origin.1 + q.1.1) (r.origin.2 + q.1.2) 32))
      if wideCheck x es ts 0 then
        [if aSide then { pos := j, kind := 2, row := some (r.origin.1 + m) : ArrFail }
          else { pos := j, kind := 2, col := some (r.origin.2 + m) : ArrFail }]
      else []

/-- R129: the checks of every rivet lane of every block. -/
def laneFails (r : ArrRec) (fs : List ArrFault) (oa ob : NOperand) (nvs : List Nat) : List ArrFail :=
  nvs.zipIdx.flatMap (fun q =>
    (List.range r.m).flatMap (laneFail r fs oa ob q.2 q.1 true) ++ (List.range r.n).flatMap (laneFail r fs oa ob q.2 q.1 false))

/-! ### Wide multiply-accumulate and MAC3 (R92, R114, R124, R128) -/

/-- One point of a wide reduction: the A values by row and the B values by column. -/
abbrev WPoint := List Num × List Num

/-- The product of one cell at a point: exact, or the altered FP32 product (R136). -/
def wideProduct (r : ArrRec) (fs : List ArrFault) (pt : WPoint) (pos m n : Nat) : Num :=
  let x := (pt.1.getD m .nan).mul (pt.2.getD n .nan)
  let mask := faultMask fs 0 pos (r.origin.1 + m) (r.origin.2 + n) 32
  if mask = 0 then x else f32 (fl x ^^^ BitVec.ofNat 32 mask)

/-- R92: the exact reference over products. -/
def exactWide (ps : List Num) (c : Word) (pair : Bool) : Word × Word :=
  let all := ps ++ [f32 c]
  let infs := all.filterMap (fun x => match x with
    | .inf n => some n
    | _ => none)
  if all.any Num.isNan || (infs.contains true && infs.contains false) then (nan32, 0)
  else match infs with
    | n :: _ => ((if n then 0xFF800000 else 0x7F800000), 0)
    | [] =>
      let ts := ps.map (fun x => match x with
        | .fin n m e => (sInt n m, e)
        | _ => (0, 0))
      let e := exactFinish ts c (ps.all (fun x => match x with
        | .fin n _ _ => n
        | _ => false))
      (e.1, if pair then exactLo e.1 e.2 else 0)

/-- R114: the result of one cell of a wide MAC or MAC3 over its points. -/
def macWideCell (r : ArrRec) (fs : List ArrFault) (pts : List WPoint) (m n : Nat) (hl : Word × Word) : Word × Word :=
  let prod := fun (q : WPoint × Nat) =>
    let x := wideProduct r fs q.1 q.2 m n
    if r.neg then x.negate else x
  let qs := pts.zipIdx
  if r.xref then
    exactWide (qs.map prod) (if r.pacc && decide (r.cinit = 1) then fadd hl.1 hl.2 else hl.1) r.pacc
  else qs.foldl (fun hl q =>
    if r.pacc then pairAdd hl.1 hl.2 (fl (prod q)) else (fl ((prod q).add (f32 hl.1)), hl.2)) hl

/-- R128: the check of every row and every column at every point. -/
def wideFails (r : ArrRec) (fs : List ArrFault) (pts : List WPoint) : List ArrFail :=
  pts.zipIdx.flatMap (fun q =>
    let p := fun m n => fl (wideProduct r fs q.1 q.2 m n)
    (List.range r.m).flatMap (fun m =>
      if wideCheck (q.1.1.getD m .nan) (q.1.2.take r.n) ((List.range r.n).map (p m)) (faultMask fs 1 q.2 (r.origin.1 + m) 0 32) then
        [{ pos := q.2, kind := 1, row := some (r.origin.1 + m) : ArrFail }] else []) ++
    (List.range r.n).flatMap (fun n =>
      if wideCheck (q.1.2.getD n .nan) (q.1.1.take r.m) ((List.range r.m).map (fun m => p m n)) 0 then
        [{ pos := q.2, kind := 1, col := some (r.origin.2 + n) : ArrFail }] else []))

/-- R124: the two BF16 parts of an FP32 operand. -/
def split3 (x : Num) : Num × Num :=
  match x with
  | .fin neg _ _ =>
    let h := match bfWiden (bf16Of x) with
      | .inf _ => bfWiden (if neg then 0xFF7F else 0x7F7F)
      | y => y
    (h, bfWiden (bf16Of (x.add h.negate)))
  | y => (y, .fin false 0 0)

/-- R124: the three passes of MAC3 over the operands' points. -/
def mac3Points (pts : List WPoint) : List WPoint :=
  let pass := fun (f g : Num × Num → Num) => pts.map (fun q => (q.1.map (fun x => f (split3 x)), q.2.map (fun x => g (split3 x))))
  pass Prod.snd Prod.fst ++ pass Prod.fst Prod.snd ++ pass Prod.fst Prod.fst

/-! ### Distance and comparison operations (R120-R123) -/

/-- Bits set in a 4-bit code. -/
def pop4 (x : Nat) : Nat := x % 2 + x / 2 % 2 + x / 4 % 2 + x / 8 % 2

/-- R120, R123: one position of one cell, on values. -/
def distUpdate (op rel : Nat) (a b : Num) (hi : Word) : Word :=
  match op with
  | 3 => fmin hi (fl (a.add b))
  | 4 => fmax hi (fl (a.add b))
  | 5 => fadd hi (fabs (fl (a.add b.negate)))
  | 6 => let t := fl (a.add b.negate); ffma t t hi
  | _ => fadd hi (if relHolds rel a b then one32 else 0)

/-- R121: the N4i value of an element; none is POISON. -/
def distN4 (b : Blk) (i : Nat) : Option Num :=
  if b.se8 = 0 then some (.fin false 0 0)
  else if b.se8 = 255 then none
  else (nDecode 9 (b.codes.getD i 0)).map (fun n => .ofInt n 0)

/-- One cell of a distance, comparison or HAM operation on N4i operands. -/
def distNarrowCell (r : ArrRec) (oa ob : NOperand) (nvs : List Nat) (m n : Nat) (hi : Word) : Word :=
  let upd := fun (h : Word) (j i : Nat) =>
    let a := oa.blk m j
    let b := ob.blk n j
    if r.op = 8 then fadd h (fl (.ofInt (pop4 (a.codes.getD i 0 ^^^ b.codes.getD i 0)) 0))
    else match distN4 a i, distN4 b i with
      | some x, some y => distUpdate r.op r.rel x y h
      | _, _ => nan32
  let poison := r.op != 8 && (List.range nvs.length).any (fun j => (List.range (nvs.getD j 0)).any (fun i =>
    (distN4 (oa.blk m j) i).isNone || (distN4 (ob.blk n j) i).isNone))
  if poison then nan32
  else (List.range nvs.length).foldl (fun h j => (List.range (nvs.getD j 0)).foldl (fun h i => upd h j i) h) hi

/-- One cell of a distance or comparison operation on BF16 operands. -/
def distWideCell (r : ArrRec) (pts : List WPoint) (m n : Nat) (hi : Word) : Word :=
  pts.foldl (fun h q => distUpdate r.op r.rel (q.1.getD m .nan) (q.2.getD n .nan) h) hi

/-! ### Operands of an instruction -/

/-- Blocks spanned by the reduction and their counts of positions (R568). -/
def ArrRec.spans (r : ArrRec) : List Nat :=
  (List.range ((r.k0 + r.nk + 31) / 32 - r.k0 / 32)).map (fun j => nValid (r.k0 + r.nk) (r.k0 / 32 + j))

/-- The bytes of an operand register entry that holds a block. -/
def Blk.bytes (fmt : Nat) (riv : Bool) (b : Blk) : Bytes :=
  packCodes fmt b.codes ++ leBytes 1 b.se8 ++ (if riv then leBytes 1 b.ri ++ leBytes 2 b.rv else [])

/-- The block an entry holds. -/
def blkOfBytes (fmt : Nat) (b : Bytes) : Blk :=
  let e := nEBytes fmt
  ⟨fieldAt b e 1, unpackCodes fmt (b.take e), fieldAt b (e + 1) 1, fieldAt b (e + 2) 2⟩

/-- R96: what the feeder puts into an operand register for a narrow operand, block by block, and whether a marked byte was
met. -/
def State.narrowBufs (s : State) (c : Nat) (d : NDesc) (row0 rows : Nat) (r : ArrRec) : List OpBuf × Bool :=
  let bs := (List.range r.spans.length).map (fun j => (List.range rows).map (fun m => s.blkAt c d (row0 + m) (r.k0 / 32 + j)))
  (bs.zipIdx.map (fun q => ⟨q.2, q.1.map (fun b => b.1.bytes d.fmt d.riv)⟩), bs.any (fun l => l.any Prod.snd))

/-- R96: the same for a wide operand, element by element; a marked element enters as NaN (R521). -/
def State.wideBufs (s : State) (c : Nat) (d : WDesc) (row0 rows : Nat) (r : ArrRec) : List OpBuf × Bool :=
  let w := wideBytes d.fmt
  let vs := (List.range r.nk).map (fun k => (List.range rows).map (fun m =>
    let key := pantryKey c (d.base + ((row0 + m) * d.cols + r.k0 + k) * w)
    if markRead s.pantryMark 32 key w then (leBytes w (wideFmt d.fmt).nanBits, true) else (memRead s.pantry key w, false)))
  (vs.zipIdx.map (fun q => ⟨q.2, q.1.map Prod.fst⟩), vs.any (fun l => l.any Prod.snd))

/-- The bits of operand row `row` at a point that faults of an operand register (target 6 A, 7 B) invert, of `w` bits. -/
def regMask (fs : List ArrFault) (target pos row w : Nat) : Nat :=
  fs.foldl (fun acc f => if f.target = target ∧ f.pos = pos ∧ (if target = 6 then f.row else f.col) = row then
    acc ^^^ 2 ^ (f.bit % w) else acc) 0

/-- One parity bit per 32-bit word (R97) finds an odd number of inverted bits in a word. -/
def parityOdd (mask : Nat) : Bool :=
  (List.range ((bitLen mask + 31) / 32)).any (fun i =>
    decide (((List.range 32).filter (fun k => mask.testBit (32 * i + k))).length % 2 = 1))

/-- R97: the operand registers as the cells read them, and the parity errors found; `o` is the array row or column of the
operand's first row. -/
def readRegs (fs : List ArrFault) (target o : Nat) (bufs : List OpBuf) : List OpBuf × List ArrFail :=
  let mask := fun (b : OpBuf) (m : Nat) (e : Bytes) => regMask fs target b.pos (o + m) (8 * e.length)
  (bufs.map (fun b => { b with rows := b.rows.zipIdx.map (fun q => leBytes q.1.length (leNat q.1 ^^^ mask b q.2 q.1)) }),
    bufs.flatMap (fun b => b.rows.zipIdx.flatMap (fun q =>
      if parityOdd (mask b q.2 q.1) then [{ pos := b.pos, kind := 3 : ArrFail }] else [])))

/-- A narrow operand as its registers hold it, by row. -/
def narrowOf (fmt rows : Nat) (bufs : List OpBuf) : NOperand :=
  ⟨fmt, (List.range rows).map (fun m => bufs.map (fun b => blkOfBytes fmt (b.rows.getD m [])))⟩

/-- A wide operand as its registers hold it, by row. -/
def wideOf (fmt rows : Nat) (bufs : List OpBuf) : List (List Num) :=
  (List.range rows).map (fun m => bufs.map (fun b => decodeF (wideFmt fmt) (leNat (b.rows.getD m []))))

/-- R81, array column: the counters of one operand. HAM ignores SE8, ZERO and POISON (R122): nothing in it counts as
POISON, but a block whose SE8 is 0 still counts as a zero block and a valid rivet as riveted, which R119 leaves open.
(Log 148: DESIGN CHOICE.) -/
def operandCounters (op : Nat) (o : NOperand) (nvs : List Nat) : Counters :=
  o.rows.foldl (fun c row => row.zipIdx.foldl (fun c bj =>
    let nv := nvs.getD bj.2 0
    { c with
      zeroBlocks := c.zeroBlocks + b2n (bj.1.se8 == 0)
      riveted := c.riveted + b2n (bj.1.rivHonoured nv)
      poison := c.poison + (if op = 8 then 0 else bj.1.poisonCount o.fmt nv) }) c) {}

/-! ### Injection and recording (R131, R132, R134-R136) -/

/-- Register instance of a core's room page. -/
def State.roomInst (s : State) (c : Nat) : Nat := s.physRoom (c / 128)

/-- R136: the armed injection naming this array, as a fault at the point `pos`. -/
def State.injection (s : State) (c a : Nat) : Option ArrFault :=
  let w := s.reg RG.ROOM_STITCH_INJ (s.roomInst c) 0
  if bitOf w 31 && bitsOf w 4 0 == c / 4 % 32 && bitsOf w 6 5 == c % 4 && bitsOf w 7 7 == a then
    some ⟨0, bitsOf w 13 8, bitsOf w 19 14, bitsOf w 24 20, bitsOf w 25 25⟩
  else none

/-- R136: does the shape cover the target? -/
def ArrRec.covers (r : ArrRec) (f : ArrFault) : Bool :=
  decide (r.origin.1 ≤ f.row) && decide (f.row < r.origin.1 + r.m) &&
    (f.target == 1 || (decide (r.origin.2 ≤ f.col) && decide (f.col < r.origin.2 + r.n)))

/-- R136: the point a narrow instruction gives the injection, none where it stays armed. -/
def narrowPoint (r : ArrRec) (f : ArrFault) (oa ob : NOperand) (n : Nat) : Option Nat :=
  let m := f.row - r.origin.1
  (List.range n).find? (fun j => (oa.blk m j).se8 != 0 &&
    (if f.target = 1 then (List.range r.n).any (fun k => (ob.blk k j).se8 != 0)
      else (ob.blk (f.col - r.origin.2) j).se8 != 0))

/-- Clears ARM. -/
def State.disarm (s : State) (c : Nat) : State := s.setFld F.ROOM_STITCH_INJ_ARM (s.roomInst c) 0 0

/-- The first failure among failed checks: its kind and the lowest failing row and column at its point. -/
def firstFail (fs : List ArrFail) : Option (Nat × Option Nat × Option Nat) :=
  match fs with
  | [] => none
  | f :: rest =>
    let p0 := rest.foldl (fun p g => min p g.pos) f.pos
    let here := (f :: rest).filter (fun g => g.pos == p0)
    let least := fun (xs : List Nat) => (match xs with
      | [] => none
      | x :: xs => some (xs.foldl min x))
    some ((here.map (fun g => g.kind)).headD 0, least (here.filterMap (fun g => g.row)), least (here.filterMap (fun g => g.col)))

/-- R131, R132: the actions on a failed instruction of array `a` of core `c`. (Log 20: DESIGN CHOICE; 21: DEDUCED.) -/
def State.stitchFail (s : State) (p c a : Nat) (fails : List ArrFail) : State :=
  match firstFail fails with
  | none => s
  | some (kind, row, col) =>
    let s := s.raiseVote p voteReplay
    let s := if fails.any (fun f => f.kind == 3) then
        s.logError 3 1 (some p) 0x10 (s.roomInst c) (2 ^ 60 + (s.part p).indexOf c * 2 ^ 22) else s
    let ph := s.physArray c a
    let x := s.part p
    if x.failedArrays.contains ph then s
    else
      let lr := c / 128
      let pr := s.roomInst c
      let s := s.modPart p (fun x => { x with failedArrays := x.failedArrays ++ [ph] })
      let s := s.setReg RG.ROOM_STITCH_FAILS pr 0 (sat32 (s.reg RG.ROOM_STITCH_FAILS pr 0 + 1))
      let s := if x.failedRooms.contains lr then s
        else
          let w := c / 4 % 32 + 2 ^ 5 * (c % 4) + 2 ^ 7 * a + 2 ^ 8 * row.getD 0 + 2 ^ 14 * b2n row.isSome +
            2 ^ 15 * col.getD 0 + 2 ^ 21 * b2n col.isSome + 2 ^ 22 * kind + 2 ^ 31
          ((s.setReg RG.ROOM_STITCH_LAST pr 0 w).setReg RG.ROOM_STITCH_LAST_STEP pr 0 (x.step % 2 ^ 32)).modPart p
            (fun x => { x with failedRooms := x.failedRooms ++ [lr] })
      let s := s.post Ev.STITCH_FAIL 0x10 pr (some p)
        (leBytes 1 lr ++ leBytes 3 0 ++ leBytes 4 (s.reg RG.ROOM_STITCH_LAST pr 0) ++ leBytes 8 x.step)
      let live := tget s.strikes ph [] ++ [0]
      let s := { s with strikes := tput s.strikes ph live [] }
      -- the third live failure retires the tile at once; a spare takes over at the next step boundary (R16)
      if 3 ≤ live.length ∧ !s.tileRetired pr (ph / 8 % 36) then
        (s.retireInService p pr (ph / 8 % 36) 2).condemn (ph / 8) 2
      else s

/-! ### The instructions -/

/-- Results of an instruction's cells, in the order of `ArrRec.cells`, written into the array. -/
def ArrSt.putCells (a : ArrSt) (r : ArrRec) (vs : List (Word × Word)) : ArrSt :=
  (r.cells.zip vs).foldl (fun a q =>
    let k := r.cell q.1.1 q.1.2
    { a with hi := tput a.hi k q.2.1 0, lo := tput a.lo k q.2.2 0, paccCells := setPut a.paccCells k r.pacc }) a

/-- What an instruction computes: its cells' results, counters, failed checks, whether the injection fired, and what its
operand registers held. -/
structure ArrResult where
  vals : List (Word × Word)
  cnt : Counters := {}
  fails : List ArrFail := []
  fired : Bool := false
  regA : List OpBuf := []
  regB : List OpBuf := []
  deriving DecidableEq, Repr

/-- The bits of HI (target 4) or LO (target 5) of cell (row, col) that faults invert. -/
def cellMask (fs : List ArrFault) (target row col : Nat) : Nat :=
  fs.foldl (fun acc f => if f.target = target ∧ f.row = row ∧ f.col = col then acc ^^^ 2 ^ (f.bit % 32) else acc) 0

/-- R97: the parity errors found in HI and LO. -/
def parityFails (r : ArrRec) (fs : List ArrFault) : List ArrFail :=
  (fs.filter (fun f => (f.target == 4 || f.target == 5) && r.covers f && parityOdd (cellMask fs f.target f.row f.col))).map
    (fun f => { pos := f.pos, kind := 3 : ArrFail })

/-- R97: HI and LO of a cell as their reader sees them. -/
def parityCell (r : ArrRec) (fs : List ArrFault) (m n : Nat) (v : Word × Word) : Word × Word :=
  let at_ := fun (t : Nat) => BitVec.ofNat 32 (cellMask fs t (r.origin.1 + m) (r.origin.2 + n))
  (v.1 ^^^ at_ 4, v.2 ^^^ at_ 5)

/-- R111, R113, R127, R129, R136: a narrow MAC. -/
def runNarrow (r : ArrRec) (env : List ArrFault) (inj : Option ArrFault) (oa ob : NOperand)
    (init : List (Word × Word)) : ArrResult :=
  let nvs := r.spans
  let fire := match inj with
    | some f => if r.covers f then (narrowPoint r f oa ob nvs.length).map (fun j => { f with pos := j }) else none
    | none => none
  let fs := env ++ fire.toList
  let vals := (r.cells.zip init).map (fun q =>
    parityCell r fs q.1.1 q.1.2 (macNarrowCell r fs oa ob nvs q.1.1 q.1.2 q.2))
  { vals := vals, cnt := (operandCounters r.op oa nvs).add (operandCounters r.op ob nvs),
    fails := narrowFails r fs oa ob nvs ++ laneFails r fs oa ob nvs ++ parityFails r fs, fired := fire.isSome }

/-- R92, R114, R124, R128, R136: a wide MAC or a MAC3, its points given. -/
def runWide (r : ArrRec) (env : List ArrFault) (inj : Option ArrFault) (pts : List WPoint)
    (init : List (Word × Word)) : ArrResult :=
  let fire := match inj with
    | some f => if r.covers f then some f else none
    | none => none
  let fs := env ++ fire.toList
  let vals := (r.cells.zip init).map (fun q =>
    parityCell r fs q.1.1 q.1.2 (macWideCell r fs pts q.1.1 q.1.2 q.2))
  { vals := vals, fails := wideFails r fs pts ++ parityFails r fs, fired := fire.isSome }

/-- Points of a wide reduction from its operands' rows. -/
def widePoints (nk : Nat) (oa ob : List (List Num)) : List WPoint :=
  (List.range nk).map (fun k => (oa.map (fun row => row.getD k .nan), ob.map (fun row => row.getD k .nan)))

/-- Computes an instruction on its operands; the last answer says that a marked byte was met. -/
def State.arrCompute (s : State) (c a : Nat) (r : ArrRec) (env : List ArrFault) (da db dc : Desc) :
    ArrResult × Bool :=
  let ar := (s.core c).arr a
  let ini := r.cells.map (fun q => s.cinit c ar r dc q.1 q.2)
  let init := ini.map (fun v => (v.1, v.2.1))
  let m0 := ini.any (fun v => v.2.2)
  let inj := s.injection c a
  match da, db with
  | .narrow x, .narrow y =>
    let (ba, ma) := s.narrowBufs c x r.aRow r.m r
    let (bb, mb) := s.narrowBufs c y r.bRow r.n r
    let (ra, fa) := readRegs env 6 r.origin.1 ba
    let (rb, fb) := readRegs env 7 r.origin.2 bb
    let oa := narrowOf x.fmt r.m ra
    let ob := narrowOf y.fmt r.n rb
    let res := if r.op = 1 then runNarrow r env inj oa ob init
      else { vals := (r.cells.zip init).map (fun q => (distNarrowCell r oa ob r.spans q.1.1 q.1.2 q.2.1, 0)),
             cnt := (operandCounters r.op oa r.spans).add (operandCounters r.op ob r.spans) }
    ({ res with fails := res.fails ++ fa ++ fb, regA := ba, regB := bb }, m0 || ma || mb)
  | .wide x, .wide y =>
    let (ba, ma) := s.wideBufs c x r.aRow r.m r
    let (bb, mb) := s.wideBufs c y r.bRow r.n r
    let (ra, fa) := readRegs env 6 r.origin.1 ba
    let (rb, fb) := readRegs env 7 r.origin.2 bb
    let pts := widePoints r.nk (wideOf x.fmt r.m ra) (wideOf y.fmt r.n rb)
    let res := if r.op = 1 then runWide r env inj pts init
      else if r.op = 2 then runWide r env inj (mac3Points pts) init
      else { vals := (r.cells.zip init).map (fun q => (distWideCell r pts q.1.1 q.1.2 q.2.1, 0)) }
    ({ res with fails := res.fails ++ fa ++ fb, regA := ba, regB := bb }, m0 || ma || mb)
  | _, _ => ({ vals := init }, m0)

/-- The waiting instruction of an array with operation `op`, when it may start and its operands may be read. -/
def State.arrReady (s : State) (c a op : Nat) : Option (Nat × ArrRec) :=
  match s.partOfCore c, ((s.core c).arr a).waiting with
  | some p, some r =>
    let x := (s.core c).arr a
    if (s.part p).active && r.op == op && x.mayStart r && (s.core c).needOk x.wneed x.wsq false &&
        s.mayRead p c x.wsq (s.arrReads p r ++ (if r.cinit = 2 then s.arrStores p { r with store := true } else []))
    then some (p, r) else none
  | _, _ => none

/-- The instruction leaves the waiting register and runs its reduction. -/
def State.arrRun (s : State) (p c a : Nat) (r : ArrRec) (env : List ArrFault) : State :=
  let sq := ((s.core c).arr a).wsq
  let clear := fun (s : State) => s.modCore c (fun x => x.setArr a { x.arr a with waiting := none })
  match s.arrDescs p r with
  | .error st => (clear s).stopPart p st
  | .ok (da, db, dc) =>
    let (res, marked) := s.arrCompute c a r env da db dc
    let s := clear s
    let s := s.modCore c (fun x =>
      let y := (x.arr a).putCells r res.vals
      x.setArr a { y with
        running := y.running ++ [(r.position, sq, ⟨r, (x.arr a).wneed, res.cnt, !res.fails.isEmpty⟩)]
        opA := tput y.opA r.position (res.regA.drop (res.regA.length - 2)) []
        opB := tput y.opB r.position (res.regB.drop (res.regB.length - 2)) [] })
    let s := if marked then s.raiseVote p voteReplay else s
    let s := if res.fired then s.disarm c else s
    s.stitchFail p c a res.fails

/-- Shared form of the array instructions. -/
def opArray (op core arr : Nat) (env : List ArrFault) (s : State) : Host.Outcome State Fault Refusal :=
  if core < 12288 ∧ arr < 2 then
    match s.arrReady core arr op with
    | none => .next s
    | some (p, r) => .next (s.arrRun p core arr r env)
  else .refused .illFormed

/-- R111, R113, R114: MAC. (Log 15: DESIGN CHOICE.) -/
def execMac (core arr : Nat) (faults : List ArrFault) (s : State) := opArray 1 core arr faults s
/-- R124: MAC3. -/
def execMac3 (core arr : Nat) (faults : List ArrFault) (s : State) := opArray 2 core arr faults s
/-- R120: MINPLUS. -/
def execMinplus (core arr : Nat) (s : State) := opArray 3 core arr [] s
/-- R120: MAXPLUS. -/
def execMaxplus (core arr : Nat) (s : State) := opArray 4 core arr [] s
/-- R120: L1. -/
def execL1 (core arr : Nat) (s : State) := opArray 5 core arr [] s
/-- R120: L2SQ. -/
def execL2sq (core arr : Nat) (s : State) := opArray 6 core arr [] s
/-- R120: CMPCOUNT. -/
def execCmpcount (core arr : Nat) (s : State) := opArray 7 core arr [] s
/-- R120, R122: HAM. -/
def execHam (core arr : Nat) (s : State) := opArray 8 core arr [] s

/-! ### Drain and write-out (R108, R117-R119) -/

/-- The FP32 value a cell writes (R117). -/
def ArrSt.outVal (a : ArrSt) (r : ArrRec) (m n : Nat) : Word :=
  let k := r.cell m n
  if r.pacc then fadd (tget a.hi k 0) (tget a.lo k 0) else tget a.hi k 0

/-- R117: the planned writes of a wide destination. -/
def State.wideStore (s : State) (p : Nat) (a : ArrSt) (r : ArrRec) (d : WDesc) : List (Nat × Bytes) :=
  let seed := (s.part p).harness.jobSeed
  let step := (s.part p).step
  r.cells.flatMap (fun q =>
    let i := (r.cRow + q.1) * d.cols + r.cCol + q.2
    let k := r.cell q.1 q.2
    if d.fmt = 3 then
      let v := pairNorm (tget a.hi k 0) (if r.pacc then tget a.lo k 0 else 0)
      [(d.base + 4 * i, leBytes 4 v.1.toNat), (d.loBase + 4 * i, leBytes 4 v.2.toNat)]
    else
      let v := a.outVal r q.1 q.2
      let w := wideBytes d.fmt
      [(d.base + w * i, leBytes w (if d.fmt = 0 then v.toNat
        else encodeF (wideFmt d.fmt) (rndOf r.rnd) (srBits seed step d.tid i) (f32 v)))])

/-- R117: the blocks of a quantising store, with their values. -/
def ArrSt.storeBlocks (a : ArrSt) (r : ArrRec) : List (Nat × Nat × List Num) :=
  let (row0, rows, col0, cols) := if r.qaxis then (r.cCol, r.n, r.cRow, r.m) else (r.cRow, r.m, r.cCol, r.n)
  let val := fun (i j : Nat) => f32 (if r.qaxis then a.outVal r j i else a.outVal r i j)
  (List.range rows).flatMap (fun i => (List.range ((cols + 31) / 32)).map (fun b =>
    (row0 + i, col0 / 32 + b, (List.range 32).map (fun e =>
      if 32 * b + e < cols then val i (32 * b + e) else .fin false 0 0))))

/-- R108, R117, R119: the instruction in a running position drains; with STORE its output enters the empty shadow. -/
def State.drain (s : State) (p c a q sq : Nat) (j : ArrJob) : State :=
  let leave := fun (s : State) => s.modCore c (fun x =>
    x.setArr a { x.arr a with running := (x.arr a).running.filter (fun e => e.1 != q) })
  let shadow := fun (s : State) (ws : List (Nat × Bytes)) => s.modCore c (fun x =>
    x.setArr a { x.arr a with shadow := some ws, shadowSq := sq, shadowNeed := j.need })
  let s := leave s
  let s := s.statsAdd p j.r.stats j.cnt
  if j.r.store then
    match s.desc p j.r.cDesc with
    | some (.wide d) => shadow s (s.wideStore p ((s.core c).arr a) j.r d)
    | some (.narrow d) =>
      match s.quantise p c j.r.qcfg d (((s.core c).arr a).storeBlocks j.r) with
      | .error e => s.stopPart p e.1
      | .ok (s, ws) => shadow s ws
    | none => s.stopPart p St.FORMAT_FAULT
  else s

/-- ARRAY_DRAIN: running position `quarter` (4 for a whole-array instruction) of an array drains. (Log 15: DESIGN CHOICE.) -/
def execArrayDrain (core arr quarter : Nat) (s : State) : Host.Outcome State Fault Refusal :=
  if core < 12288 ∧ arr < 2 ∧ quarter < 5 then
    match s.partOfCore core, ((s.core core).arr arr).running.find? (fun e => e.1 == quarter) with
    | some p, some (_, sq, j) =>
      if (s.part p).active && (!j.r.store || ((s.core core).arr arr).shadow.isNone) then
        .next (s.drain p core arr quarter sq j)
      else .next s
    | _, _ => .next s
  else .refused .illFormed

/-- SHADOW_WRITEOUT_DONE (R108, R155): the shadow's bytes are in the pantry and it is empty. -/
def execShadowWriteoutDone (core arr : Nat) (s : State) : Host.Outcome State Fault Refusal :=
  if core < 12288 ∧ arr < 2 then
    match s.partOfCore core, ((s.core core).arr arr).shadow with
    | some p, some ws =>
      let x := (s.core core).arr arr
      if anyOverlap (ws.map (fun w => (w.1, w.2.length))) (s.pendingReads p core x.shadowSq) ||
          !(s.core core).needOk x.shadowNeed x.shadowSq true then .next s
      else
        let s' := s.modCore core (fun y => y.setArr arr { y.arr arr with shadow := none })
        match s'.putWrites p core ws with
        | .ok s'' => .next s''
        | .error e => .next (s'.stopPart p e.1)
    | _, _ => .next s
  else .refused .illFormed

end Sys2Proof.Machine
end

