-- ==== Sys2Proof/Machine/Vector.lean ====
section
/-! DEFINITION. The vector unit: loads and stores of the own pantry, lane arithmetic and the record operations QUANT,
DEQUANT and WSTORE (R143-R146, R49, R123). -/

namespace Sys2Proof.Machine
open Sys2Proof

/-- The vector slot a core acts on, when it holds operation `vop`. -/
def State.vecSlot (s : State) (c vop : Nat) : Option (Nat × VSlot) :=
  match s.atSlot c 1 with
  | some (p, w) => if (decodeV w).vop = vop then some (p, decodeV w) else none
  | none => none

/-- The sequence number that accesses of the current bundle would take. -/
def State.nowSq (s : State) (c : Nat) : Nat := (s.core c).sq

/-- Shared form of the lane operations: lane `l` of VD becomes `f` of the core and `l`. -/
def opLanes (vop core : Nat) (f : VSlot → CoreSt → Nat → Word) (s : State) : Host.Outcome State Fault Refusal :=
  if core < 12288 then
    match s.vecSlot core vop with
    | some (p, v) => .next ((s.modCore core (fun c => c.setVr v.vd (f v c))).slotDone p core 1)
    | none => .next s
  else .refused .illFormed

/-- R144: VADD. -/
def execVadd (core : Nat) (s : State) := opLanes 3 core (fun v c l => fadd (c.lane v.va l) (c.lane v.vb l)) s
/-- R144: VSUB. -/
def execVsub (core : Nat) (s : State) := opLanes 4 core (fun v c l => fsub (c.lane v.va l) (c.lane v.vb l)) s
/-- R144: VMUL. -/
def execVmul (core : Nat) (s : State) := opLanes 5 core (fun v c l => fmul (c.lane v.va l) (c.lane v.vb l)) s
/-- R144: VFMA. -/
def execVfma (core : Nat) (s : State) :=
  opLanes 6 core (fun v c l => ffma (c.lane v.va l) (c.lane v.vb l) (c.lane v.vc l)) s
/-- R144, R123: VMIN. -/
def execVmin (core : Nat) (s : State) := opLanes 7 core (fun v c l => fmin (c.lane v.va l) (c.lane v.vb l)) s
/-- R144, R123: VMAX. -/
def execVmax (core : Nat) (s : State) := opLanes 8 core (fun v c l => fmax (c.lane v.va l) (c.lane v.vb l)) s
/-- R144: VABS. -/
def execVabs (core : Nat) (s : State) := opLanes 9 core (fun v c l => fabs (c.lane v.va l)) s
/-- R144: VNEG. -/
def execVneg (core : Nat) (s : State) := opLanes 10 core (fun v c l => fneg (c.lane v.va l)) s
/-- R144: VCMP, the relation in IMM[1:0]. -/
def execVcmp (core : Nat) (s : State) :=
  opLanes 11 core (fun v c l => if relHolds (v.imm % 4) (f32 (c.lane v.va l)) (f32 (c.lane v.vb l)) then one32 else 0) s
/-- R144: VSEL. -/
def execVsel (core : Nat) (s : State) :=
  opLanes 12 core (fun v c l => if c.lane v.vc l = 0 ∨ c.lane v.vc l = 0x80000000 then c.lane v.vb l else c.lane v.va l) s
/-- R145: VEXP2. -/
def execVexp2 (core : Nat) (s : State) := opLanes 13 core (fun v c l => fexp2 (c.lane v.va l)) s
/-- R145: VLOG2. -/
def execVlog2 (core : Nat) (s : State) := opLanes 14 core (fun v c l => flog2 (c.lane v.va l)) s
/-- R145: VRCP. -/
def execVrcp (core : Nat) (s : State) := opLanes 15 core (fun v c l => frcp (c.lane v.va l)) s
/-- R145: VRSQRT. -/
def execVrsqrt (core : Nat) (s : State) := opLanes 16 core (fun v c l => frsqrt (c.lane v.va l)) s

/-- One level of R145: elements 2j and 2j + 1 combined. -/
def treeLevel (f : Word → Word → Word) : List Word → List Word
  | a :: b :: rest => f a b :: treeLevel f rest
  | l => l

/-- R145: six levels over the 64 lanes. -/
def treeReduce (f : Word → Word → Word) (xs : List Word) : Word :=
  ((List.range 6).foldl (fun l _ => treeLevel f l) xs).headD 0

/-- Every lane of a register. -/
def CoreSt.lanes (c : CoreSt) (r : Nat) : List Word := (List.range 64).map (c.lane r)

/-- R145: VRSUM. -/
def execVrsum (core : Nat) (s : State) := opLanes 17 core (fun v c _ => treeReduce fadd (c.lanes v.va)) s
/-- R145: VRMAX. -/
def execVrmax (core : Nat) (s : State) := opLanes 18 core (fun v c _ => treeReduce fmax (c.lanes v.va)) s
/-- R144: VBCAST. -/
def execVbcast (core : Nat) (s : State) := opLanes 19 core (fun v c _ => c.lane v.va (v.imm % 64)) s

/-! ### VLD and VST -/

/-- R144, R46, R521: VLD; a storage error found by the read is `det` (R518). (Log 16: DEDUCED.) -/
def execVld (core : Nat) (det : Option (Nat × Nat)) (s : State) : Host.Outcome State Fault Refusal :=
  if core < 12288 then
    match s.vecSlot core 1 with
    | none => .next s
    | some (p, v) =>
      let w := wideBytes v.fmt
      let n := 64 * w
      if 2 ^ 21 < v.imm + n then .next (s.stopPart p St.ADDR_FAULT)
      else if s.mayRead p core (s.nowSq core) [(v.imm, n)] && (s.core core).loadOk then
        let k := pantryKey core v.imm
        let s := s.detect p (.pantry k) det
        let elem := fun (l : Nat) =>
          if markRead s.pantryMark 32 (k + w * l) w then nan32
          else if v.fmt = 0 then BitVec.ofNat 32 (leNat (memRead s.pantry (k + w * l) w))
          else fl (decodeF (wideFmt v.fmt) (leNat (memRead s.pantry (k + w * l) w)))
        let s := if markRead s.pantryMark 32 k n then s.raiseVote p voteReplay else s
        .next ((s.modCore core (fun c => c.setVr v.vd elem)).slotDone p core 1)
      else .next s
  else .refused .illFormed

/-- R144, R53, R155: VST. (Log 16: DEDUCED.) -/
def execVst (core : Nat) (s : State) : Host.Outcome State Fault Refusal :=
  if core < 12288 then
    match s.vecSlot core 2 with
    | none => .next s
    | some (p, v) =>
      let w := wideBytes v.fmt
      let bs := ((s.core core).lanes v.va).flatMap (fun x =>
        leBytes w (if v.fmt = 0 then x.toNat else encodeF (wideFmt v.fmt) (rndOf v.rnd) 0 (f32 x)))
      if s.mayWrite p core (s.nowSq core) [(v.imm, bs.length)] && (s.core core).storeOk then
        match s.devWrite p (.core core) v.imm bs false with
        | .ok s => .next (s.slotDone p core 1)
        | .error e => .next (s.stopPart p e.1)
      else .next s
  else .refused .illFormed

/-! ### Record operations (R146) -/

/-- The record and checked descriptors of a VREC, or the status that stops the partition. -/
def State.vrecOperands (s : State) (p : Nat) (r : VRec) : Except Nat (Desc × Desc) :=
  match s.desc p r.src, s.desc p r.dst with
  | some a, some b =>
    let fmtOk := if r.rop = 1 then isWide a.fmt && isNarrow b.fmt else if r.rop = 2 then isNarrow a.fmt && isWide b.fmt
      else isWide a.fmt && decide (b.fmt ≤ 2)
    -- whole blocks within the narrow row, and the valid elements they hold within the wide row
    let inside := fun (d : Desc) (other : Desc) => match d with
      | .narrow n => decide (r.start + r.count ≤ n.kb)
      | .wide w => if r.rop = 3 then decide (r.start + r.count ≤ w.cols)
        else decide (min (32 * (r.start + r.count)) other.k ≤ w.cols)
    if !fmtOk then .error St.FORMAT_FAULT
    else if !(a.own && b.own) then .error St.ADDR_FAULT
    else if a.rows ≤ r.row ∨ b.rows ≤ r.row ∨ r.count = 0 ∨ !(inside a b) ∨ !(inside b a) then .error St.SHAPE_FAULT
    else .ok (a, b)
  | _, _ => .error St.FORMAT_FAULT

/-- First element and number of elements of a record operation. -/
def VRec.span (r : VRec) (k : Nat) : Nat × Nat :=
  if r.rop = 3 then (r.start, r.count) else (32 * r.start, min (32 * (r.start + r.count)) k - 32 * r.start)

/-- Exact value of a wide source element (R49, R79): a PAIR is hi + lo. -/
def State.wideVal (s : State) (c : Nat) (d : WDesc) (row col : Nat) : Num × Bool :=
  let (h, l, m) := s.wideAt c d row col
  (if d.fmt = 3 then h.add l else h, m)

/-- QUANT on checked operands: the state, or the status and address that stop the partition. -/
def State.runQuant (s : State) (p c : Nat) (r : VRec) (a : WDesc) (b : NDesc) : Except (Nat × Nat) State :=
  let k := (b.kb - 1) * 32 + b.ktail
  let blocks := (List.range r.count).map (fun i =>
    (r.row, r.start + i, (List.range 32).map (fun e =>
      let col := 32 * (r.start + i) + e
      if col < k then s.wideVal c a r.row col else (.fin false 0 0, false))))
  let s := if blocks.any (fun x => x.2.2.any Prod.snd) then s.raiseVote p voteReplay else s
  match s.quantise p c r.qcfg b (blocks.map (fun x => (x.1, x.2.1, x.2.2.map Prod.fst))) with
  | .error e => .error e
  | .ok (s, ws) => s.putWrites p c ws

/-- DEQUANT on checked operands (R49, R50). -/
def State.runDequant (s : State) (p c : Nat) (r : VRec) (a : NDesc) (b : WDesc) : Except (Nat × Nat) State :=
  let k := (a.kb - 1) * 32 + a.ktail
  let cells := (List.range r.count).flatMap (fun i =>
    let kb := r.start + i
    let (blk, m) := s.blkAt c a r.row kb
    (List.range (nValid k kb)).map (fun e => (32 * kb + e, blk.value a.fmt (nValid k kb) e, m)))
  let s := if cells.any (fun x => x.2.2) then s.raiseVote p voteReplay else s
  let w := wideBytes b.fmt
  s.putWrites p c (cells.flatMap (fun x =>
    let o := (r.row * b.cols + x.1) * w
    let v := if b.fmt = 0 ∨ b.fmt = 3 then (fl x.2.1).toNat else encodeF (wideFmt b.fmt) .rne 0 x.2.1
    (b.base + o, leBytes w v) :: (if b.fmt = 3 then [(b.loBase + o, leBytes 4 0)] else [])))

/-- WSTORE on checked operands. -/
def State.runWstore (s : State) (p c : Nat) (r : VRec) (a b : WDesc) : Except (Nat × Nat) State :=
  let cells := (List.range r.count).map (fun i => (r.start + i, s.wideVal c a r.row (r.start + i)))
  let s := if cells.any (fun x => x.2.2) then s.raiseVote p voteReplay else s
  let w := wideBytes b.fmt
  let seed := (s.part p).harness.jobSeed
  let step := (s.part p).step
  s.putWrites p c (cells.map (fun x =>
    let i := r.row * b.cols + x.1
    (b.base + i * w, leBytes w (encodeF (wideFmt b.fmt) (rndOf r.rnd) (srBits seed step b.tid i) x.2.1))))

/-- Shared form of the record operations. (Log 17: DESIGN CHOICE.) -/
def opVrec (rop core : Nat) (s : State) : Host.Outcome State Fault Refusal :=
  if core < 12288 then
    match s.vecSlot core 0x18 with
    | none => .next s
    | some (p, v) =>
      let r := s.vecRecord p core v.imm
      if r.rop = rop then
        match s.vrecOperands p r with
        | .error st => .next (s.stopPart p st)
        | .ok (a, b) =>
          let k := match a, b with
            | .narrow n, _ => (Desc.narrow n).k
            | _, d => d.k
          let sp := r.span k
          let sq := s.nowSq core
          if s.mayRead p core sq (a.ranges r.row 1 sp.1 sp.2) && s.mayWrite p core sq (b.ranges r.row 1 sp.1 sp.2) &&
              (s.core core).storeOk then
            let res := match a, b with
              | .wide x, .narrow y => s.runQuant p core r x y
              | .narrow x, .wide y => s.runDequant p core r x y
              | .wide x, .wide y => s.runWstore p core r x y
              | .narrow _, .narrow _ => .ok s
            match res with
            | .ok s => .next (s.slotDone p core 1)
            | .error e => .next (s.stopPart p e.1)
          else .next s
      else .next s
  else .refused .illFormed

/-- R74, R146: QUANT. -/
def execQuant (core : Nat) (s : State) := opVrec 1 core s
/-- R146: DEQUANT. -/
def execDequant (core : Nat) (s : State) := opVrec 2 core s
/-- R146: WSTORE. -/
def execWstore (core : Nat) (s : State) := opVrec 3 core s

end Sys2Proof.Machine
end

