-- ==== Sys2Proof/Machine/Scalar.lean ====
section
/-! DEFINITION. Scalar accesses and larder atomics of the vector unit (R147, R167-R169, R177-R182, R372, R569). -/

namespace Sys2Proof.Machine
open Sys2Proof

/-- A scalar access about to be issued: direction, width, address, data and orderings. -/
structure Scalar where
  /-- 0 load, 2 store, 4 atomic (the KIND of R210). -/
  kind : Nat
  op : Nat := 0
  width : Nat
  addr : Nat
  vd : Nat := 0
  ret : Bool := false
  data : Nat := 0
  cmp : Nat := 0
  acq : Bool := false
  rel : Bool := false
  deriving DecidableEq, Repr

/-- The access returns a value to its core. -/
def Scalar.returns (a : Scalar) : Bool := a.kind == 0 || a.ret
/-- The access writes. -/
def Scalar.writes (a : Scalar) : Bool := a.kind != 0
/-- The Bridle operation of R361 the access asks for. -/
def Scalar.brdlOp (a : Scalar) : Nat :=
  if a.kind = 0 then 1
  else if a.kind = 2 then
    -- an ST.REL to the ownership range asks for an ownership message (R372, R381)
    (if a.rel ∧ a.addr / 2 ^ 60 % 16 = 4 ∧ 0xF0000000000 ≤ a.addr % 2 ^ 44 then 9 else 2)
  else 5

/-- R168: orderings of the access. -/
def State.needOf (s : State) (c : Nat) (a : Scalar) : Need :=
  let x := s.core c
  if a.rel then { x.need with all := max x.need.all x.sq } else x.need

/-- R180, R181: the status an atomic is refused with by its space, before its other checks. -/
def State.atomicSpace (s : State) (p : Nat) (a : Scalar) : Option Nat :=
  let sp := a.addr / 2 ^ 60 % 16
  if 6 ≤ sp then some St.ADDR_FAULT
  else if sp = 0 ∨ sp = 1 ∨ sp = 5 then some St.ATOMIC_SPACE
  else if sp = 3 then
    let h := (s.part p).harness
    let inside := match (s.part p).cellarOff a.addr with
      | some off => h.inWindow off
      | none => h.inWindow (a.addr % 2 ^ 44)
    if inside then none else some St.ATOMIC_SPACE
  else if sp = 4 ∧ ¬(a.width = 8 ∧ (a.op = 0x20 ∨ a.op = 0x22 ∨ a.op = 0x23 ∨ a.op = 0x28)) then some St.ATOMIC_SPACE
  else none

/-- R147, R155, R180, R352, R381, R403: the location of a scalar access, or the status that stops the partition. -/
def State.scalarLoc (s : State) (p c : Nat) (a : Scalar) : Except Nat Loc :=
  match (if a.kind = 4 then s.atomicSpace p a else none) with
  | some e => .error e
  | none =>
    if a.addr % a.width ≠ 0 then .error St.ADDR_FAULT
    else match s.resolve p (.core c) a.addr a.width with
      | .error e => .error e
      | .ok (.bridle node off) =>
        if s.bridleRefused node off a.width a.brdlOp a.rel then .error St.ADDR_FAULT else .ok (.bridle node off)
      | .ok l => if a.writes && s.writeRefused p a.addr a.width l then .error St.ADDR_FAULT else .ok l

/-- A refused scalar access stops its partition; a refusal by the charter is recorded (R363). -/
def State.refuseScalar (s : State) (p : Nat) (a : Scalar) (e : Nat) : State :=
  let node := a.addr / 2 ^ 44 % 2 ^ 16
  let off := a.addr % 2 ^ 44
  let s := if a.addr / 2 ^ 60 % 16 = 4 ∧ node < 4096 ∧ !s.chartered node a.brdlOp then s.lastRefusal p 6 node off else s
  s.stopPart p e

/-- The access has issued with the core's next sequence number: it is outstanding, its register awaits its value, and
an acquiring access orders later ones. -/
def State.issued (s : State) (c : Nat) (a : Scalar) (l : PendLoad) (out fabric : Bool) : State :=
  s.modCore c (fun x =>
    { x with
      outs := if out then x.outs ++ [⟨x.sq, a.writes, a.returns || a.acq, false⟩] else x.outs
      loads := if a.returns then x.loads ++ [{ l with sq := x.sq }] else x.loads
      need := if a.acq && out then { x.need with acq := x.sq + 1 } else x.need
      scalars := if a.returns && fabric then x.scalars + 1 else x.scalars
      sq := x.sq + 1 })

/-- Sends an access as a flit: it has issued and is outstanding. -/
def State.scalarSend (s : State) (p c : Nat) (a : Scalar) (l : Loc) (pend : PendLoad) (fabric : Bool) : State :=
  let f := { s.request p c a.kind l a.addr a.width with
    op := a.op, ret := a.ret, data := a.data, cmp := a.cmp, sq := (s.core c).sq, need := s.needOf c a, vd := a.vd }
  (s.addFlit f).issued c a pend true fabric

/-- R168, R177: a scalar access of the current bundle issues: an own-pantry access is performed at once, one that the
journal serves is answered from it (R318, R331), any other is sent as a flit. A store or an atomic without RET to space
0x4 sends nothing during a replay. -/
def State.scalar (s : State) (p c : Nat) (a : Scalar) (det : Option (Nat × Nat)) : State :=
  match s.scalarLoc p c a with
  | .error e => s.refuseScalar p a e
  | .ok l =>
    let x := s.core c
    let need := s.needOf c a
    let sp := a.addr / 2 ^ 60 % 16
    let pend : PendLoad := { vd := a.vd, width := a.width, sq := 0, addr := a.addr, ord := x.scalars }
    match l with
    | .pantry k =>
      if k / 2 ^ 21 = c then
        let rs := [(k % 2 ^ 21, a.width)]
        let free := if a.writes then s.mayWrite p c x.sq rs else s.mayRead p c x.sq rs
        if free && x.needOk need x.sq a.writes then
          let f : Flit := { kind := a.kind, part := p, addr := a.addr, dst := l, width := a.width, data := a.data }
          let (s, v) := s.perform f det
          (s.issued c a { pend with value := some v } false false).slotDone p c 1
        else s
      else (s.scalarSend p c a l pend false).slotDone p c 1
    | _ =>
      let fabric := decide (sp = 4 ∨ sp = 5)
      let serve := s.jrnlServe p 3 ((s.part p).jrnlKey c x.scalars) 0
      if fabric && a.returns && serve.1 then
        let (s, bs) := s.servedBytes p a.width serve.2
        (s.issued c a { pend with value := some (leNat (bs.take a.width)) } false true).slotDone p c 1
      else if sp = 4 && (s.part p).replaying then (s.issued c a pend false true).slotDone p c 1
      else (s.scalarSend p c a l pend fabric).slotDone p c 1

/-- Width of a scalar slot: IMM[0]. -/
def VSlot.width (v : VSlot) : Nat := if bitOf v.imm 0 then 8 else 4

/-- A register's first `width` bytes. -/
def CoreSt.scalarVal (c : CoreSt) (r width : Nat) : Nat := c.lane64 r 0 % 2 ^ (8 * width)

/-- Shared form of the scalar loads. -/
def opScalarLoad (vop : Nat) (acq : Bool) (core : Nat) (det : Option (Nat × Nat)) (s : State) :
    Host.Outcome State Fault Refusal :=
  if core < 12288 then
    match s.vecSlot core vop with
    | some (p, v) => .next (s.scalar p core
        { kind := 0, width := v.width, addr := (s.core core).lane64 v.va 0, vd := v.vd, acq := acq } det)
    | none => .next s
  else .refused .illFormed

/-- VLDS (R147); `det` is a storage error an own-pantry read meets. -/
def execVlds (core : Nat) (det : Option (Nat × Nat)) (s : State) := opScalarLoad 0x14 false core det s
/-- VLDA (R147, R168): LD.ACQ. -/
def execVlda (core : Nat) (det : Option (Nat × Nat)) (s : State) := opScalarLoad 0x15 true core det s

/-- Shared form of the scalar stores. -/
def opScalarStore (vop : Nat) (rel : Bool) (core : Nat) (s : State) : Host.Outcome State Fault Refusal :=
  if core < 12288 then
    match s.vecSlot core vop with
    | some (p, v) => .next (s.scalar p core
        { kind := 2, width := v.width, addr := (s.core core).lane64 v.va 0, data := (s.core core).scalarVal v.vb v.width,
          rel := rel } none)
    | none => .next s
  else .refused .illFormed

/-- VSTS (R147). -/
def execVsts (core : Nat) (s : State) := opScalarStore 0x16 false core s
/-- VSTR (R168, R372): ST.REL, with the ownership stores to a node's ownership range. -/
def execVstr (core : Nat) (s : State) := opScalarStore 0x17 true core s

/-- Shared form of the larder atomics (R177-R181). -/
def opAtomic (vop core : Nat) (s : State) : Host.Outcome State Fault Refusal :=
  if core < 12288 then
    match s.vecSlot core vop with
    | some (p, v) =>
      let x := s.core core
      .next (s.scalar p core
        { kind := 4, op := vop, width := v.width, addr := x.lane64 v.va 0, vd := v.vd, ret := bitOf v.imm 1,
          data := x.scalarVal v.vb v.width, cmp := x.scalarVal v.vc v.width, acq := bitOf v.imm 2, rel := bitOf v.imm 3 }
        none)
    | none => .next s
  else .refused .illFormed

/-- AADD. -/
def execAadd (core : Nat) (s : State) := opAtomic 0x20 core s
/-- FADD. -/
def execFadd (core : Nat) (s : State) := opAtomic 0x21 core s
/-- SMIN. -/
def execSmin (core : Nat) (s : State) := opAtomic 0x22 core s
/-- SMAX. -/
def execSmax (core : Nat) (s : State) := opAtomic 0x23 core s
/-- UMIN. -/
def execUmin (core : Nat) (s : State) := opAtomic 0x24 core s
/-- UMAX. -/
def execUmax (core : Nat) (s : State) := opAtomic 0x25 core s
/-- FMIN. -/
def execFmin (core : Nat) (s : State) := opAtomic 0x26 core s
/-- FMAX. -/
def execFmax (core : Nat) (s : State) := opAtomic 0x27 core s
/-- CAS. -/
def execCas (core : Nat) (s : State) := opAtomic 0x28 core s

/-- SCALAR_LOAD_RETURN (R147, R178, R313): the value come back for register `vd` is written to it. -/
def execScalarLoadReturn (core vd : Nat) (s : State) : Host.Outcome State Fault Refusal :=
  if core < 12288 ∧ vd < 32 then
    match s.partOfCore core, (s.core core).loads.find? (fun l => l.vd == vd) with
    | some p, some l =>
      match l.value with
      | none => .next s
      | some v =>
        let sp := l.addr / 2 ^ 60 % 16
        let key := (s.part p).jrnlKey core l.ord
        let fabric := decide (sp = 4 ∨ sp = 5)
        if fabric && !s.jrnlServed p l.width then .next s
        else
        let s := (s.modCore core (fun x =>
          { x.setVr vd (fun i => if i = 0 then BitVec.ofNat 32 v
                                 else if i = 1 ∧ l.width = 8 then BitVec.ofNat 32 (v / 2 ^ 32) else 0) with
            loads := x.loads.filter (fun m => m.sq != l.sq) })).accDone core l.sq
        .next (if fabric then s.jrnl p 3 key 0 l.addr (leBytes l.width v) else s)
    | _, _ => .next s
  else .refused .illFormed

end Sys2Proof.Machine
end

