-- ==== Sys2Proof/Machine/Control.lean ====
section
/-! DEFINITION. The control slot: fences, barriers, safe points, phases, loops, waits on a word and the end of a step
(R148-R153, R168, R171, R172, R377), and the handling of copy statuses (R158, R165). KNOCK is in Power. -/

namespace Sys2Proof.Machine
open Sys2Proof

/-- The control slot a core acts on, when it holds operation `op`. -/
def State.ctlSlot (s : State) (c op : Nat) : Option (Nat × Nat) :=
  match s.atSlot c 4 with
  | some (p, w) => if w % 16 = op then some (p, w) else none
  | none => none

/-! ### Fences (R168) -/

/-- Is everything a fence of a kind waits for done? -/
def CoreSt.fenceDone (x : CoreSt) (kind : Nat) : Bool :=
  x.allOuts.all (fun o => match kind with
    | 0 => !o.isStore
    | 1 => !o.isStore && !o.isLoad
    | _ => !o.isStore && !o.isLoad && !o.fabric)

/-- Shared form of the fences. -/
def opFence (kind core : Nat) (s : State) : Host.Outcome State Fault Refusal :=
  if core < 12288 then
    match s.ctlSlot core 1 with
    | some (p, w) => if bitsOf w 5 4 = kind then .next ((s.modCore core (fun x => x.fence kind)).slotDone p core 4) else .next s
    | none => .next s
  else .refused .illFormed

/-- FENCE.ST. -/
def execFenceSt (core : Nat) (s : State) := opFence 0 core s
/-- FENCE.FULL. -/
def execFenceFull (core : Nat) (s : State) := opFence 1 core s
/-- FENCE.FABRIC. -/
def execFenceFabric (core : Nat) (s : State) := opFence 2 core s

/-- Nodes whose oldest unanswered write or atomic has waited 100 µs, without a FENCE on its way. -/
def State.fenceNodes (s : State) : List Nat :=
  let old := s.brdl.txns.filter (fun o => (o.t.op == 2 || (decide (5 ≤ o.t.op) && decide (o.t.op ≤ 8))) && !o.fenced &&
    decide (o.first + 100000 ≤ s.mono))
  (old.foldl (fun l o => setAdd l o.t.dst) []).filter (fun n => s.brdl.txns.all (fun o => !(o.t.op == 3 && o.t.dst == n)))

/-- FABRIC_FENCE_PROBE (R377): while a FENCE.FABRIC of the core waits, a FENCE goes to each node whose oldest
outstanding write has waited 100 µs and the charter allows it (R381). -/
def execFabricFenceProbe (core t : Nat) (s : State) : Host.Outcome State Fault Refusal :=
  if core < 12288 then
    let s := s.toTime t
    let x := s.core core
    match s.partOfCore core with
    | none => .next s
    | some p =>
      if x.outs.any (fun o => o.fabric && decide (o.sq < x.need.fab)) then
        .next (s.fenceNodes.foldl (fun s n =>
          if s.chartered n 3 && s.mayOpen p n 3 then s.openTxn p { op := 3, dst := n } .fence else s) s)
      else .next s
  else .refused .illFormed

/-! ### Barriers (R150) -/

/-- BARRIER: the fence is applied, and the core arrives at its group once the fence has done its work. -/
def execBarrier (core : Nat) (s : State) : Host.Outcome State Fault Refusal :=
  if core < 12288 then
    match s.atGate core 2 with
    | none => .next s
    | some (_, w) =>
      let g := bitsOf w 15 8
      let fenced := match barrierFence w with
        | some k => (s.core core).fenceDone k
        | none => true
      .next (s.modCore core (fun x =>
        let x := match barrierFence w with
          | some k => x.fence k
          | none => x
        if fenced then { x with arrivals := tput x.arrivals g (tget x.arrivals g 0 + 1) 0, atBarrier := some g } else x))
  else .refused .illFormed

/-- Cores of a group of a partition's barrier table. -/
def PartSt.members (x : PartSt) (g : Nat) : List Nat := (x.harness.barriers.getD g []).map x.coreAt

/-- The job record of an index. -/
def PartSt.job (x : PartSt) (i : Nat) : CurJob := x.harness.cur.jobs.getD i {}

/-- R280: jobs whose barrier arrival has completed fall due, in ascending job index. -/
def State.jobsDue (s : State) (p group arrived : Nat) : State :=
  let x := s.part p
  let due := (List.range x.harness.cur.jobs.length).filter (fun i =>
    decide ((x.job i).group = group) && decide ((x.job i).arrival ≤ arrived) && !x.jobsRun.contains i)
  s.modPart p (fun x => { x with jobs := x.jobs ++ due.map (fun i => { job := i }), jobsRun := x.jobsRun ++ due })

/-- BARRIER_COMPLETE: cores waiting at group `group` of partition `part` whose arrival every member has matched
proceed. -/
def execBarrierComplete (part group : Nat) (s : State) : Host.Outcome State Fault Refusal :=
  if part < 512 ∧ group < 256 then
    let ms := (s.part part).members group
    let least := fun (k : Nat) => ms.all (fun c => decide (k ≤ tget (s.core c).arrivals group 0))
    -- a core of a stopped room goes on when the stop ends (R154)
    let ready := (s.part part).cores.filter (fun c => (s.core c).atBarrier == some group &&
      least (tget (s.core c).arrivals group 0) && !s.roomStop.contains (s.physRoom (c / 128)))
    if (s.part part).active then
      -- arrivals of the group completed so far
      let done := match ms with
        | [] => 0
        | m :: rest => rest.foldl (fun n c => min n (tget (s.core c).arrivals group 0)) (tget (s.core m).arrivals group 0)
      let s := s.jobsDue part group done
      .next (ready.foldl (fun s c => (s.modCore c (fun x => { x with atBarrier := none })).passGate part c) s)
    else .next s
  else .refused .illFormed

/-! ### Safe points and the time log (R151, R171, R172) -/

/-- The 16-byte segment time record. -/
def segRecord (seg core attempt step cycles ns : Nat) : Bytes :=
  leBytes 2 seg ++ leBytes 2 (core % 2 ^ 14 + attempt % 4 * 2 ^ 14) ++ leBytes 4 step ++ leBytes 4 (sat32 cycles) ++
    leBytes 4 (sat32 ns)

/-- R172: claims a slot of the partition's time log and writes a record there. -/
def State.timeLog (s : State) (p : Nat) (rec16 : Bytes) : State :=
  let h := (s.part p).harness
  match s.lardAdd p h.timelogBase 8 1 with
  | (s, some k) => s.setLard p (h.timelogBase + 64 + 16 * (k % 2 ^ h.timelogLog2)) rec16
  | (s, none) => s

/-- SAFEPOINT: a stop of the room that is pending holds the core there (R154); `cycles` are the room cycles of the segment it closes. -/
def execSafepoint (core cycles t : Nat) (s : State) : Host.Outcome State Fault Refusal :=
  if core < 12288 then
    let s := s.toTime t
    match s.ctlSlot core 3 with
    | none => .next s
    | some (p, w) =>
      let x := s.core core
      let y := s.part p
      let s1 := if bitOf w 20 then s.timeLog p (segRecord (bitsOf w 19 4) core y.attempt y.step cycles (s.mono - x.segNs)) else s
      .next ((s1.modCore core (fun x => { x with segNs := s.mono })).slotDone p core 4)
  else .refused .illFormed

/-! ### Phases and loops -/

/-- PHASE (R148, R266, R337). -/
def execPhase (core : Nat) (s : State) : Host.Outcome State Fault Refusal :=
  if core < 12288 then
    match s.ctlSlot core 5 with
    | none => .next s
    | some (p, w) =>
      let ph := bitsOf w 11 4
      .next ((s.modCore core (fun x => { x with phase := ph })).slotDone p core 4)
  else .refused .illFormed

/-- R149: the loop stack and program counter after a LOOP at bundle `x.pc`. -/
def CoreSt.loopStep (x : CoreSt) (target count : Nat) : CoreSt :=
  match x.loops with
  | (b, n) :: rest =>
    if b = x.pc then
      if n - 1 = 0 then { x with loops := rest, pc := x.pc + 1, slotPos := 0 }
      else { x with loops := (b, n - 1) :: rest, pc := target, slotPos := 0 }
    else if 2 ≤ count then { x with loops := (x.pc, count - 1) :: x.loops, pc := target, slotPos := 0 }
    else { x with pc := x.pc + 1, slotPos := 0 }
  | [] =>
    if 2 ≤ count then { x with loops := [(x.pc, count - 1)], pc := target, slotPos := 0 }
    else { x with pc := x.pc + 1, slotPos := 0 }

/-- LOOP. -/
def execLoop (core : Nat) (s : State) : Host.Outcome State Fault Refusal :=
  if core < 12288 then
    match s.ctlSlot core 6 with
    | some (p, w) => .next ((s.modCore core (fun x => x.loopStep (bitsOf w 31 8) (bitsOf w 55 32))).skipNops p core)
    | none => .next s
  else .refused .illFormed

/-! ### WAITV (R148, R168) -/

/-- The LD.ACQ of a WAITV's word. -/
def CoreSt.waitRead (x : CoreSt) (w : Nat) : Scalar := { kind := 0, width := 8, addr := x.lane64 (bitsOf w 8 4) 0, vd := 32, acq := true }

/-- WAITV: the word is read with acquire, over again while it differs. A word of the own pantry is read at once, any other
by a load that comes back as every load does (register 32 stands for its word); in a replay a wait on space 0x4 or 0x5
is over at once (R331). `sev` is the severity of a storage error that a
read of the own pantry meets, `off` its byte in the word. (Log 13: DEDUCED.) -/
def execWaitv (core : Nat) (sev : Option Nat) (off : Nat) (s : State) : Host.Outcome State Fault Refusal :=
  if core < 12288 then
    match s.atGate core 7 with
    | none => .next s
    | some (p, w) =>
      let x := s.core core
      let r := bitsOf w 8 4
      let a := x.waitRead w
      let want := x.lane64 r 2
      match x.loads.find? (fun l => l.vd == 32) with
      | some l =>
        match l.value with
        | none => .next s
        | some v =>
          let s := (s.modCore core (fun x => { x with loads := x.loads.filter (fun m => m.vd != 32) })).accDone core l.sq
          .next (if v = want then s.passGate p core else s)
      | none =>
        if x.awaits r then .next s
        else match s.scalarLoc p core a with
        | .error e => .next (s.refuseScalar p a e)
        | .ok l =>
          let sp := spaceOf a.addr
          match l with
          | .pantry k =>
            if k / 2 ^ 21 = core then
              if x.loadOk && s.mayRead p core x.sq [(k % 2 ^ 21, 8)] then
                let (s, v) := s.perform { kind := 0, part := p, addr := a.addr, dst := l, width := 8 } (sev.map (fun e => (e, off)))
                .next (if v = want then s.passGate p core else s)
              else .next s
            else .next (s.scalarSend p core a l { vd := 32, width := 8, sq := 0, addr := a.addr } false)
          | _ =>
            if (sp = 4 ∨ sp = 5) ∧ (s.part p).replaying then .next (s.passGate p core)
            else .next (s.scalarSend p core a l { vd := 32, width := 8, sq := 0, addr := a.addr } false)
  else .refused .illFormed

/-! ### Copy statuses and the end of a step (R152, R158, R165) -/

/-- Handles the status of copy slot `i` of a core when it is DONE, and frees the slot. -/
def State.handleSlot (s : State) (p c i : Nat) : State :=
  match tget (s.core c).slots i none with
  | some y =>
    match y.status with
    | none => s
    | some st =>
      let s := s.modCore c (fun x => { x with slots := tput x.slots i none none })
      if st = St.OK then s
      else
        let s := s.post Ev.COPY_FAULT 0x10 (s.physRoom (c / 128)) (some p)
          (leBytes 2 c ++ leBytes 2 i ++ leBytes 2 st ++ leBytes 2 0 ++ leBytes 8 y.failAddr)
        if st = St.DATA_UE then s.raiseVote p voteReplay
        else if st = St.LINK_LOST then s.raiseVote p voteSkip
        else s.stopPart p st
  | none => s

/-- END_STEP. `det` is a storage error met by the fetch of its bundle (R518). -/
def execEndStep (core : Nat) (det : Option (Nat × Nat)) (s : State) : Host.Outcome State Fault Refusal :=
  if core < 12288 then
    match s.ctlSlot core 8 with
    | none => .next s
    | some (p, _) =>
      let s := s.fetchDet p core det
      if (s.part p).active then
        let s := (List.range 48).foldl (fun s i => s.handleSlot p core i) s
        .next (if (s.part p).active then s.modCore core (fun x => { x with ended := true }) else s)
      else .next s
  else .refused .illFormed

end Sys2Proof.Machine
end

