-- ==== Sys2Proof/Machine/Copy.lean ====
section
/-! DEFINITION. The copy engine: ISSUE and WAIT (R157-R159), the units of each kind (R160, R161, R163-R165, R228, R389,
R521), taps (R266) and the completion of a copy. -/

namespace Sys2Proof.Machine
open Sys2Proof

/-! ### ISSUE and WAIT -/

/-- Shared form of the ISSUE operations: the copy of a descriptor of kind `kind` starts in its slot, whose earlier status
is handled first. -/
def opIssue (kind core : Nat) (s : State) : Host.Outcome State Fault Refusal :=
  if core < 12288 then
    match s.atSlot core 0 with
    | none => .next s
    | some (p, w) =>
      let d := s.copyRecord p core w
      if w % 4 = 1 ∧ d.kind = kind then
        let i := bitsOf w 7 2
        let s := s.handleSlot p core i
        if (s.part p).active then
          .next ((s.modCore core (fun x =>
            { x with
              slots := tput x.slots i (some { desc := d, sq := x.sq, need := x.need, phase := x.phase, ord := x.issues }) none
              issues := x.issues + 1
              sq := x.sq + 1 })).slotDone p core 0)
        else .next s
      else .next s
  else .refused .illFormed

/-- COPY_LINEAR. -/
def execCopyLinear (core : Nat) (s : State) := opIssue 0 core s
/-- COPY_STRIDED. -/
def execCopyStrided (core : Nat) (s : State) := opIssue 1 core s
/-- COPY_GATHER. -/
def execCopyGather (core : Nat) (s : State) := opIssue 2 core s
/-- COPY_SCATTER. -/
def execCopyScatter (core : Nat) (s : State) := opIssue 3 core s
/-- COPY_TABLE. -/
def execCopyTable (core : Nat) (s : State) := opIssue 4 core s
/-- COPY_REDUCE. -/
def execCopyReduce (core : Nat) (s : State) := opIssue 5 core s

/-- COPY_WAIT: every slot of the mask is FREE or DONE (R139), and the DONE ones are handled in ascending order. -/
def execCopyWait (core : Nat) (s : State) : Host.Outcome State Fault Refusal :=
  if core < 12288 then
    match s.atSlot core 0 with
    | none => .next s
    | some (p, w) =>
      if w % 4 = 2 then
        let s := (List.range 48).foldl (fun s i => if bitOf w (16 + i) then s.handleSlot p core i else s) s
        .next (if (s.part p).active then s.slotDone p core 0 else s)
      else .next s
  else .refused .illFormed

/-! ### Units (R160) -/

/-- What a unit does: nothing, zero bytes written, bytes moved, or a refused address. A marked index ran as null. -/
inductive UnitPlan where
  | nothing
  | zeros (dst n : Nat)
  | move (src dst n : Nat)
  | refused (addr : Nat)
  deriving DecidableEq, Repr

/-- A 64-bit device address moved by a signed offset. -/
def addrAdd (a : Nat) (d : Int) : Nat := ofSigned 64 ((a : Int) + d)

/-- An entry of `n` bytes of the copy's table, in the larder of the partition: its value and whether it is marked. -/
def State.tableEntry (s : State) (p c : Nat) (d : CopyDesc) (j n : Nat) : Except Nat (State × Nat × Bool) :=
  match s.devRead p (.core c) (d.table + n * j) n with
  | .error e => .error e.2
  | .ok (s, bs, m) => .ok (s, if m then allOnes n else leNat bs, m)

/-- R160: unit `j` of a copy; the flag says that a marked index was read. (Log 19: DESIGN CHOICE.) -/
def State.planUnit (s : State) (p c : Nat) (d : CopyDesc) (j : Nat) : State × UnitPlan × Bool :=
  let null := 0xFFFFFFFF
  let row := fun (base : Nat) (stride : Int) (i : Nat) => addrAdd base (stride * (i : Int))
  match d.kind with
  | 0 => (s, .move d.src d.dst d.len, false)
  | 1 | 5 => (s, .move (row d.src d.srcStride j) (row d.dst d.dstStride j) d.len, false)
  | 2 =>
    match s.tableEntry p c d j 4 with
    | .error a => (s, .refused a, false)
    | .ok (s, x, m) =>
      let dst := addrAdd d.dst (j * d.esize : Nat)
      (s, if x = null then .zeros dst d.esize else .move (row d.src d.srcStride x) dst d.esize, m)
  | 3 =>
    match s.tableEntry p c d j 4 with
    | .error a => (s, .refused a, false)
    | .ok (s, x, m) =>
      (s, if x = null then .nothing else .move (addrAdd d.src (j * d.esize : Nat)) (row d.dst d.dstStride x) d.esize, m)
  | _ =>
    match s.tableEntry p c d j 8 with
    | .error a => (s, .refused a, false)
    | .ok (s, x, m) =>
      let sr := x % 2 ^ 32
      let ds := x / 2 ^ 32
      let dst := row d.dst d.dstStride ds
      (s, if ds = null then .nothing else if sr = null then .zeros dst d.len
          else .move (row d.src d.srcStride sr) dst d.len, m)

/-- Pieces of a range that lie within one unit of marking of its space: 32 B for a pantry, 64 B elsewhere, one line of
128 B for Bridle. -/
def piecesBy (addr n : Nat) : List (Nat × Nat) :=
  let u := if spaceOf addr ≤ 1 then 32 else if spaceOf addr = 4 then 128 else 64
  (unitsOf u addr n).map (fun b =>
    let lo := max addr (u * b)
    (lo, min (addr + n) (u * b + u) - lo))

/-- Is a read (or a write) of a piece by a copy refused (R155, R161, R352, R381, R403)? -/
def State.pieceRefused (s : State) (p c addr n : Nat) (write : Bool) : Bool :=
  match s.resolve p (.core c) addr n with
  | .error _ => true
  | .ok (.bridle node off) => s.bridleRefused node off 1 (if write then 2 else 1) false
  | .ok l => write && s.writeRefused p addr n l

/-- The first refused piece of a range. -/
def State.firstRefused (s : State) (p c addr n : Nat) (write : Bool) : Option Nat :=
  ((piecesBy addr n).find? (fun q => s.pieceRefused p c q.1 q.2 write)).map (fun q => q.1)

/-- A cellar range the copy can use now: its controllers serve it, and no accepted store to it is still waiting. -/
def State.cellarFree (s : State) (p nat n : Nat) : Bool :=
  s.ctrlServes (cellarCtl nat) && s.cellSlot p &&
    s.hall.flits.all (fun f => !(f.queued && (match f.dst with
      | .cellar m => overlaps m f.width nat n
      | _ => false)))

/-- Can every piece of a range inside the device be accessed now? A line of the cache window that is not resident waits
for its controllers, `write` says that whole lines need no read of theirs. -/
def State.rangeFree (s : State) (p : Nat) (via : Via) (addr n : Nat) (write : Bool) : Bool :=
  (piecesBy addr n).all (fun q => match s.resolve p via q.1 q.2 with
    | .ok (.cellar nat) => s.cellarFree p nat q.2
    | .ok (.cached nat) =>
      let o := q.1 - nat % 256
      s.lineServed p (nat / 256) (write && decide (addr ≤ o) && decide (o + 256 ≤ addr + n))
    | _ => true)

/-- Severity of a copy status: a refusal (which R165 lets end the copy), then a lost link, then marked data; R165 names no
order of the last two. (Log 153: DESIGN CHOICE.) -/
def copyRank (st : Nat) : Nat := if st = St.ADDR_FAULT then 3 else if st = St.LINK_LOST then 2 else if st = St.DATA_UE then 1 else 0

/-- R165: a unit met a status at an address; a refused address stops the copy. -/
def CopySlot.meet (y : CopySlot) (st addr : Nat) : CopySlot :=
  let y := if copyRank y.worst < copyRank st then { y with worst := st, failAddr := addr } else y
  if st = St.ADDR_FAULT then { y with stopped := true } else y

/-- R518: a storage error at byte `o` of a range of `n` bytes that is read, or, past it, of the range written to: a line of
the cache window that the write fills (R185). -/
def State.rangeErrors (s : State) (p : Nat) (via : Via) (src n dst : Nat) (det : Option (Nat × Nat)) : State :=
  match det with
  | none => s
  | some (sev, o) =>
    match s.resolve p via (if o < n then src + o else dst + (o - n)) 1 with
    | .ok (.cached nat) => if o < n ∨ (s.cacheLine p (nat / 256)).isNone then s.detect p (.cached nat) (some (sev, 0)) else s
    | .ok l => if o < n then s.detect p l (some (sev, 0)) else s
    | .error _ => s

/-- R389, R518: a storage error met by a unit of `n` bytes, and reads of a cellar burst that fail link ECC. -/
def State.unitErrors (s : State) (p c src n dst : Nat) (det : Option (Nat × Nat)) (link : Nat × Nat) : State :=
  let s := s.rangeErrors p (.core c) src n dst det
  match s.resolve p (.core c) (src + link.1) 1 with
  | .ok (.cellar nat) => s.linkEcc p nat link.2
  | _ => s

/-- Reads a range inside the device piece by piece: bytes and the ranges of the unit that were marked. -/
def State.readUnit (s : State) (p c src n : Nat) : State × Bytes × List (Nat × Nat) :=
  (piecesBy src n).foldl (fun (a : State × Bytes × List (Nat × Nat)) q =>
    match a.1.devRead p (.core c) q.1 q.2 with
    | .ok (s, bs, m) => (s, a.2.1 ++ bs, if m then a.2.2 ++ [(q.1 - src, q.2)] else a.2.2)
    | .error _ => a) (s, [], [])

/-- Does a range of the unit hold bad bytes? -/
def anyBad (bad : List (Nat × Nat)) (o n : Nat) : Bool := bad.any (fun b => overlaps b.1 b.2 o n)

/-- Writes a unit inside the device or to the host, marks carried piece by piece (R520, R521). -/
def State.writeUnit (s : State) (p c dst : Nat) (data : Bytes) (bad : List (Nat × Nat)) : State :=
  let s := s.claimLines p (.core c) dst data.length
  (piecesBy dst data.length).foldl (fun s q =>
    let o := q.1 - dst
    match s.devWrite p (.core c) q.1 (slice data o q.2) (anyBad bad o q.2) with
    | .ok s => s
    | .error _ => s) s

/-! ### Taps (R266) -/

/-- Adds to a tap's accumulator. -/
def State.tapAdd (s : State) (p i sum lines : Nat) : State :=
  let base := (s.part p).harness.tapBase + 16 * i
  ((s.lardAdd p base 8 sum).1.lardAdd p (base + 8) 8 lines).1

/-- Counts a unit of phase `ph` that moved `data` at `addr` in direction `dir` (0 read, 1 written) for every tap. -/
def State.tapUnit (s : State) (p ph dir addr : Nat) (data : Bytes) : State :=
  (List.range (s.part p).harness.taps.length).foldl (fun s i =>
    let t := (s.part p).harness.taps.getD i {}
    if t.phase = ph ∧ t.dir = dir ∧ overlaps t.base t.len addr data.length then
      let first := max t.base addr
      let last := min (t.base + t.len) (addr + data.length)
      let lines := (List.range ((last - t.base + 63) / 64 - (first - t.base) / 64)).map (fun k => t.base + 64 * ((first - t.base) / 64 + k))
      let whole := lines.filter (fun a => decide (addr ≤ a) && decide (a + 64 ≤ addr + data.length))
      let sum := whole.foldl (fun acc a => (acc + crc64 (leBytes 8 (t.digestAddr + (a - t.base)) ++ slice data (a - addr) 64)) % 2 ^ 64) 0
      let s := if whole.length < lines.length then s.modPart p (fun x => { x with tapPartial := setAdd x.tapPartial i }) else s
      if whole = [] then s else s.tapAdd p i sum whole.length
    else s) s

/-! ### REDUCE (R228-R230) -/

/-- FP32 addends of a REDUCE row, a BF16 source widened exactly. -/
def reduceVals (rfmt : Nat) (data : Bytes) : List Word :=
  if rfmt = 1 then (List.range (data.length / 2)).map (fun i => BitVec.ofNat 32 (fieldAt data (2 * i) 2 * 65536))
  else (List.range (data.length / 4)).map (fun i => BitVec.ofNat 32 (fieldAt data (4 * i) 4))

/-- Bytes of the destination a REDUCE row of `n` source bytes updates. -/
def reduceLen (rfmt n : Nat) : Nat := if rfmt = 1 then 2 * n else n

/-- Sends the reduce-writes of one row: one for each destination line. -/
def State.sendReduce (s : State) (p c key tag dst : Nat) (vals : List Word) (esz : Nat) (bad : List (Nat × Nat)) :
    State × Nat :=
  let ps := piecesBy dst (4 * vals.length)
  (ps.foldl (fun s q =>
    let line := q.1 / 64 * 64
    let e0 := (q.1 - dst) / 4
    let as := (List.range 16).map (fun i =>
      if q.1 ≤ line + 4 * i ∧ line + 4 * i < q.1 + q.2 then vals[(line + 4 * i - dst) / 4]? else none)
    match s.resolve p (.core c) line 64 with
    | .ok (.larder k) =>
      let f := s.request p c 6 (.larder k) line 64
      s.addFlit { f with lane := s.reduceLane p (line % 2 ^ 60) tag, srcs := [(c, key)], tag := tag, addends := as, mark := anyBad bad (e0 * esz) (q.2 / 4 * esz) }
    | _ => s) s, ps.length)

/-! ### Moving a unit -/

/-- The lines of a Bridle source: line address with its first byte and count, and their place in the unit. -/
def bridleReads (src n : Nat) : List (Nat × Nat × Nat × Nat) :=
  (piecesBy src n).map (fun q => (q.1 / 128 * 128, q.1 % 128, q.2, q.1 - src))

/-- Changes a unit's buffer. -/
def CopySlot.putBuf (y : CopySlot) (b : UnitBuf) : CopySlot := { y with bufs := y.bufs.map (fun g => if g.unit = b.unit then b else g) }

/-- R163: the read granules of a core in flight on Bridle: copy, unit and 256 B of the source. -/
def State.granules (s : State) (c : Nat) : List (Nat × Nat × Nat) :=
  s.brdl.txns.foldl (fun l o => match o.for_ with
    | .copyRead c' key unit _ _ _ a => if c' = c ∧ !l.contains (key, unit, a / 256) then l ++ [(key, unit, a / 256)] else l
    | _ => l) []

/-- Opens the Bridle reads of a unit's next granule, as tags allow, where fewer than 48 granules are in flight or it is one
of them (R163). -/
def State.openGranule (s : State) (p c key : Nat) (b : UnitBuf) : State × UnitBuf :=
  match b.rtodo with
  | [] => (s, b)
  | g0 :: _ =>
    let g := (key, b.unit, g0.1 / 256)
    if (s.granules c).contains g || decide ((s.granules c).length < 48) then
      (b.rtodo.takeWhile (fun q => q.1 / 256 == g0.1 / 256)).foldl (fun (a : State × UnitBuf) q =>
        let node := q.1 / 2 ^ 44 % 2 ^ 16
        if a.1.mayOpen p node 1 && a.2.rtodo.head? == some q then
          (a.1.openTxn p (lineRead node (q.1 % 2 ^ 44)) (.copyRead c key b.unit q.2.2.2 q.2.1 q.2.2.1 (q.1 + q.2.1)),
            { a.2 with rtodo := a.2.rtodo.drop 1, left := a.2.left + 1 })
        else a) (s, b)
    else (s, b)

/-- One round of R163: each active copy of a core, in slot order, is given one granule. -/
def State.granuleRound (s : State) (p c : Nat) : State :=
  (s.core c).slots.foldl (fun s e => match tget (s.core c).slots e.1 none with
    | some y =>
      match y.bufs.find? (fun b => b.rtodo != []) with
      | some b =>
        let key := copyKey y.sq e.1
        let (s, b') := s.openGranule p c key b
        s.modCopy c key (fun y => y.putBuf b')
      | none => s
    | none => s) s

/-- R163: the active copies of a core share its granules in slot order. -/
def State.shareGranules (s : State) (p c : Nat) : State := (List.range 48).foldl (fun s _ => s.granuleRound p c) s

/-- Opens as many of a unit's Bridle writes as tags allow; a line with bad bytes is not written (R521). Answers how many
were opened. -/
def State.openWrites (s : State) (p c key : Nat) (b : UnitBuf) : State × UnitBuf × Nat :=
  (b.wtodo.getD []).foldl (fun (a : State × UnitBuf × Nat) q =>
    let node := q.1 / 2 ^ 44 % 2 ^ 16
    let o := q.1 - b.dst
    let rest := { a.2.1 with wtodo := a.2.1.wtodo.map (fun l => l.drop 1) }
    if (a.2.1.wtodo.getD []).head? ≠ some q then a
    else if anyBad b.bad o q.2 then (a.1, rest, a.2.2)
    else if a.1.mayOpen p node 2 then
      (a.1.openTxn p (lineWrite node (q.1 % 2 ^ 44) (slice b.data o q.2)) (.copyWrite c key q.1), rest, a.2.2 + 1)
    else a) (s, b, 0)

/-- The unit has begun. -/
def CopySlot.began (y : CopySlot) (unit : Nat) : CopySlot := { y with next := max y.next (unit + 1), linkWait := none }

/-- The unit is finished: it counts as moved, with `acks` acknowledgements still to come. -/
def CopySlot.moveDone (y : CopySlot) (unit acks : Nat) : CopySlot :=
  { y with next := max y.next (unit + 1), moved := y.moved ++ [unit], outstanding := y.outstanding + acks, linkWait := none,
           bufs := y.bufs.filter (fun b => b.unit != unit) }

/-- The data of a unit have been read: they are tapped and journalled, then written, sent as reduce-writes, or queued for
Bridle. (Log 18: DESIGN CHOICE.) -/
def State.landUnit (s : State) (p c key : Nat) (y : CopySlot) (unit src dst : Nat) (data : Bytes) (bad : List (Nat × Nat))
    (outside : Bool) : State :=
  let s := if outside then s.jrnl p 2 ((s.part p).jrnlKey c y.ord) unit src data else s
  let s := if src = 0 ∧ !outside then s else s.tapUnit p y.phase 0 src data
  let s := match bad with
    | [] => s
    | b :: _ => s.modCopy c key (fun y => y.meet St.DATA_UE (src + b.1))
  if y.desc.kind = 5 then
    let (s, n) := s.sendReduce p c key y.desc.redTag dst (reduceVals y.desc.rfmt data) (if y.desc.rfmt = 1 then 2 else 4) bad
    s.modCopy c key (fun y => y.moveDone unit n)
  else
    let s := s.tapUnit p y.phase 1 dst data
    if spaceOf dst = 4 then
      if (s.part p).replaying then s.modCopy c key (fun y => y.moveDone unit 0)
      else
        let (s, b, n) := s.openWrites p c key { unit := unit, dst := dst, data := data, bad := bad, wtodo := some (piecesBy dst data.length) }
        s.modCopy c key (fun y => if b.wtodo = some [] then y.moveDone unit n
          else { y.began unit with outstanding := y.outstanding + n, bufs := y.bufs.filter (fun b => b.unit != unit) ++ [b] })
    else (s.writeUnit p c dst data bad).modCopy c key (fun y => y.moveDone unit 0)

/-- The larder slices that a range of device addresses touches, in the larder or in its cache. -/
def State.slicesOf (s : State) (p c addr n : Nat) : List Nat :=
  (piecesBy addr n).filterMap (fun q => match s.resolve p (.core c) q.1 q.2 with
    | .ok (.larder k) => some (k / sliceBytes)
    | .ok (.cached nat) => some ((s.part p).cacheHome (nat / 256)).1
    | _ => none)

/-- R167: the writes of one copy to one larder slice become visible in order, so a unit waits to land while an earlier one
that is to write the same slice is still being read. -/
def State.landOk (s : State) (p c : Nat) (y : CopySlot) (unit dst n : Nat) : Bool :=
  let mine := s.slicesOf p c dst n
  y.bufs.all (fun b => decide (unit ≤ b.unit) || b.wtodo.isSome ||
    (s.slicesOf p c b.dst (if y.desc.kind = 5 then reduceLen y.desc.rfmt b.data.length else b.data.length)).all
      (fun k => !mine.contains k))

/-- R389: a unit waits for its port link, from now on. -/
def State.waitLink (s : State) (c key unit : Nat) : State :=
  s.modCopy c key (fun y => if y.linkWait.isNone then { y with linkWait := some (unit, s.mono) } else y)

/-- A unit that begins: refused addresses, the host link, the journal and Bridle reads. `ext` holds the bytes that host
memory answers. -/
def State.startUnit (s : State) (p c key : Nat) (y : CopySlot) (unit src dst n : Nat) (zeros : Bool) (ext : Bytes)
    (det : Option (Nat × Nat)) (link : Nat × Nat) : State :=
  let dn := if y.desc.kind = 5 then reduceLen y.desc.rfmt n else n
  let sref := if zeros then none else s.firstRefused p c src n false
  let dref := s.firstRefused p c dst dn true
  let outside := !zeros && decide (spaceOf src = 4 ∨ spaceOf src = 5)
  match sref, dref with
  | some a, _ | none, some a =>
    let node := a / 2 ^ 44 % 2 ^ 16
    let op := if sref.isSome then 1 else 2
    let s := if spaceOf a = 4 ∧ node < 4096 ∧ !s.chartered node op then s.lastRefusal p 6 node (a % 2 ^ 44) else s
    s.modCopy c key (fun y => y.meet St.ADDR_FAULT a)
  | none, none =>
    let serve := if outside then s.jrnlServe p 2 ((s.part p).jrnlKey c y.ord) unit else (false, none)
    let usesHost := (outside && decide (spaceOf src = 5) && !serve.1) || decide (spaceOf dst = 5)
    if usesHost && !s.portServes p then s.waitLink c key unit
    else if outside && !s.jrnlServed p n then s
    else if !((zeros || s.rangeFree p (.core c) src n false) && s.rangeFree p (.core c) dst dn true) then s
    else if !(outside && decide (spaceOf src = 4) && !serve.1) && !s.landOk p c y unit dst dn then s
    else if zeros then s.landUnit p c key y unit 0 dst (List.replicate n 0) [] false
    else if serve.1 then
      let (s, bs) := s.servedBytes p n serve.2
      s.landUnit p c key y unit src dst (padTo (bs.take n) n) [] true
    else if outside && decide (spaceOf src = 5) then
      s.landUnit p c key y unit src dst (padTo (ext.take n) n) [] true
    else if outside then
      let b : UnitBuf := { unit := unit, dst := dst, data := List.replicate n 0, rtodo := bridleReads src n }
      (s.modCopy c key (fun y => { y.began unit with bufs := y.bufs ++ [b] })).shareGranules p c
    else
      let s := s.unitErrors p c src n dst det link
      let (s, data, bad) := s.readUnit p c src n
      s.landUnit p c key y unit src dst data bad false

/-- A unit in the middle of a Bridle access goes on. -/
def State.resumeUnit (s : State) (p c key : Nat) (y : CopySlot) (b : UnitBuf) (src : Nat) : State :=
  match b.wtodo with
  | some _ =>
    let (s, b', n) := s.openWrites p c key b
    s.modCopy c key (fun y => if b'.wtodo = some [] then y.moveDone b.unit n
      else { y with outstanding := y.outstanding + n }.putBuf b')
  | none =>
    let dn := if y.desc.kind = 5 then reduceLen y.desc.rfmt b.data.length else b.data.length
    if b.rtodo ≠ [] then s.shareGranules p c
    else if b.left ≠ 0 ∨ !s.rangeFree p (.core c) b.dst dn true ∨ !s.jrnlServed p b.data.length ∨ !s.landOk p c y b.unit b.dst dn then s
    else if spaceOf b.dst = 5 ∧ !s.portServes p then s.waitLink c key b.unit
    else s.landUnit p c key y b.unit src b.dst b.data b.bad true

/-- R164: the orderings that the accesses of a copy wait for: everything its core issued before it. -/
def CopySlot.order (y : CopySlot) : Need := { y.need with all := max y.need.all y.sq }

/-- R162: may the copy in a slot be given a unit to begin? -/
def CoreSt.canBegin (x : CoreSt) (slot : Nat) : Bool :=
  match tget x.slots slot none with
  | some y => y.status.isNone && !y.stopped && decide (y.next < y.desc.rows) && x.needOk y.order y.sq true
  | none => false

/-- R162: the slot whose copy the engine gives its next unit to: one unit from each active copy in turn, in ascending slot
order. A copy whose far end makes it wait has had its turn. (Log 154: DEDUCED.) -/
def CoreSt.copyTurn (x : CoreSt) : Option Nat :=
  let act := (List.range 48).filter x.canBegin
  match act.find? (fun i => decide (x.turn < i)) with
  | some i => some i
  | none => act.head?

/-- The engine begins unit `unit` of the copy in a slot, which is its next (R165: no unit after one that is refused). -/
def State.beginUnit (s : State) (p core slot unit : Nat) (y : CopySlot) (ext : Bytes) (det : Option (Nat × Nat))
    (link : Nat × Nat) : State :=
  let key := copyKey y.sq slot
  let s := s.modCore core (fun x => { x with turn := slot })
  let (s, plan, marked) := s.planUnit p core y.desc unit
  let s := if marked then s.modCopy core key (fun y =>
    y.meet St.DATA_UE (y.desc.table + (if y.desc.kind = 4 then 8 else 4) * unit)) else s
  match plan with
  | .nothing => s.modCopy core key (fun y => y.moveDone unit 0)
  | .refused a => s.modCopy core key (fun y => y.meet St.ADDR_FAULT a)
  | .zeros dst n => s.startUnit p core key y unit 0 dst n true ext none (0, 0)
  | .move src dst n => s.startUnit p core key y unit src dst n false ext det link

/-- COPY_UNIT_MOVE (R162, R164, R165): the engine works on unit `unit` of the copy in a slot of a core: it begins the unit,
when it is the next one of the copy whose turn it is, or goes on with one that waits for its far end.
(Log 18, 19: DESIGN CHOICE.) -/
def execCopyUnitMove (core slot unit : Nat) (ext : Bytes) (det : Option (Nat × Nat)) (link : Nat × Nat) (t : Nat) (s : State) :
    Host.Outcome State Fault Refusal :=
  if core < 12288 ∧ slot < 48 then
    let s := s.toTime t
    match s.partOfCore core, tget (s.core core).slots slot none with
    | some p, some y =>
      if !(s.part p).active || y.status.isSome then .next s
      else match y.bufs.find? (fun b => b.unit == unit) with
      | some b =>
        match (s.planUnit p core y.desc unit).2.1 with
        | .move src _ _ => .next (s.resumeUnit p core (copyKey y.sq slot) y b src)
        | _ => .next (s.resumeUnit p core (copyKey y.sq slot) y b 0)
      | none =>
        if unit = y.next ∧ (s.core core).copyTurn = some slot then .next (s.beginUnit p core slot unit y ext det link)
        else .next s
    | _, _ => .next s
  else .refused .illFormed

/-- COPY_COMPLETE (R164, R165): every unit of the copy has moved, or those before the one that stopped it, every read has
returned and nothing of it is outstanding. -/
def execCopyComplete (core slot : Nat) (s : State) : Host.Outcome State Fault Refusal :=
  if core < 12288 ∧ slot < 48 then
    match tget (s.core core).slots slot none with
    | none => .next s
    | some y =>
      if y.status.isNone && (y.stopped || decide (y.desc.rows ≤ y.moved.length)) && decide (y.outstanding = 0) &&
          y.bufs.isEmpty then
        .next (s.modCore core (fun x => { x with slots := tput x.slots slot (some { y with status := some y.worst }) none }))
      else .next s
  else .refused .illFormed

end Sys2Proof.Machine
end

