-- ==== Sys2Proof/Machine/Sparing.lean ====
section
/-! DEFINITION. Spare tiles and rooms (R12, R14, R16-R26) and the map the defect record gives (R506). -/

namespace Sys2Proof.Machine
open Sys2Proof

/-- R12: the physical room that backs logical room `n` by default. -/
def defaultRoom (n : Nat) : Nat := if n < 8 then n + 1 else if n < 88 then n + 2 else n + 3

/-- R14: the physical tile that backs logical tile `t` by default. -/
def defaultTile (t : Nat) : Nat := if t < 14 then t else if t < 18 then t + 2 else t + 4

/-- R12: the spare rooms in the order of R18's ties, with their bit of GLB_SPARE_ROOM_STAT. -/
def spareRooms : List (Nat × Nat) := [(0, 0), (9, 1), (90, 2), (99, 3)]

/-- R27: the map entry that backs logical tile `t` with physical tile `p`. -/
def State.backTile (s : State) (lr t p : Nat) : State :=
  let r := s.physRoom lr
  (s.setFld F.ROOM_TILE_MAP_PHYS_TILE r t p).setFld F.ROOM_TILE_MAP_SUBST r t (b2n (p != defaultTile t))

/-- R25, R27: backs logical tile `t` with physical tile `p`. -/
def State.mapTile (s : State) (lr t p : Nat) : State := (s.backTile lr t p).countSpares lr

/-- R16, R20: sub_tile: the lowest healthy, unused spare tile takes over, or the room is marked SHORT. -/
def State.subTile (s : State) (lr t : Nat) : State :=
  match s.spareTiles lr [] with
  | p :: _ => s.mapTile lr t p
  | [] => s.setFld F.GLB_ROOM_MAP_SHORT 0 lr 1

/-- R14, R506: the tiles of a room that takes over: default backing, then the retired ones replaced in ascending order. -/
def State.initTiles (s : State) (lr : Nat) : State :=
  let s := ((List.range 32).foldl (fun s t => s.backTile lr t (defaultTile t)) s).countSpares lr
  (List.range 32).foldl (fun s t => if s.tileRetired (s.physRoom lr) (defaultTile t) then s.subTile lr t else s) s

/-- A spare room is healthy and unused (R26). -/
def State.spareFree (s : State) (bit : Nat) : Bool := bitOf (s.reg RG.GLB_SPARE_ROOM_STAT 0 0) bit

/-- R18: the spare room for a retired physical room: nearest by Manhattan distance, ties in the order of R18. -/
def State.pickSpare (s : State) (r : Nat) : Option (Nat × Nat) :=
  (spareRooms.filter (fun q => s.spareFree q.2)).foldl (fun best q =>
    match best with
    | none => some q
    | some b => if hops r q.1 < hops r b.1 then some q else best) none

/-- R214, R446: sets or clears the hole of a physical room, which its DARK shows. -/
def State.setHole (s : State) (r : Nat) (h : Bool) : State :=
  let w := s.reg RG.HALL_HOLE 0 (r / 32)
  (s.setReg RG.HALL_HOLE 0 (r / 32) (withBits w (r % 32) (r % 32) (b2n h))).setFld F.PWR_ROOM_STAT_DARK r 0 (b2n h)

/-- R19, R134: the registers kept for the logical room move with it. -/
def State.moveStitch (s : State) (from_ to_ : Nat) : State :=
  [RG.ROOM_STITCH_INJ, RG.ROOM_STITCH_LAST, RG.ROOM_STITCH_LAST_STEP, RG.ROOM_STITCH_FAILS].foldl (fun s r =>
    (s.setReg r to_ 0 (s.reg r from_ 0)).setReg r from_ 0 0) s

/-- R25: backs logical room `lr` with physical room `r`. -/
def State.mapRoom (s : State) (lr r : Nat) : State :=
  ((s.setFld F.GLB_ROOM_MAP_PHYS_X 0 lr (r % 10)).setFld F.GLB_ROOM_MAP_PHYS_Y 0 lr (r / 10)).setFld
    F.GLB_ROOM_MAP_SUBST 0 lr (b2n (r != defaultRoom lr))

/-- R18, R19, R21: sub_room: a spare room takes over, or the room goes out of service. -/
def State.subRoom (s : State) (lr : Nat) : State :=
  let r := s.physRoom lr
  match s.pickSpare r with
  | some (q, bit) =>
    let s := s.setReg RG.GLB_SPARE_ROOM_STAT 0 0 (withBits (s.reg RG.GLB_SPARE_ROOM_STAT 0 0) bit bit 0)
    let s := ((s.moveStitch r q).setHole r true).setHole q false
    ((s.mapRoom lr q).setFld F.GLB_ROOM_MAP_SHORT 0 lr 0).initTiles lr
  | none => (s.setHole r true).setFld F.GLB_ROOM_MAP_OUT_OF_SERVICE 0 lr 1

/-- R506: the backing of R12 and R14 with every unit healthy. -/
def State.defaultMap (s : State) : State :=
  let s := (List.range 100).foldl (fun s r => ((s.setReg RG.ROOM_TILE_RETIRED_LO r 0 0).setReg RG.ROOM_TILE_RETIRED_HI r 0 0).setHole r false) s
  let s := s.setReg RG.GLB_SPARE_ROOM_STAT 0 0 15
  let s := spareRooms.foldl (fun s q => s.setHole q.1 true) s
  (List.range 96).foldl (fun s lr => ((s.setReg RG.GLB_ROOM_MAP 0 lr 0).mapRoom lr (defaultRoom lr)).initTiles lr) s

/-- The logical room a physical room backs. -/
def State.backs (s : State) (r : Nat) : Option Nat := (List.range 96).find? (fun lr => s.physRoom lr == r)

/-- A cold bring-up runs in survey mode (R509). -/
def State.surveying (s : State) : Bool := s.fld F.TACK_BRINGUP_SURVEY 0 0 == 1 && s.bring.kind == 1

/-- Physical tiles of a room that back a logical tile. -/
def State.mappedTiles (s : State) (r : Nat) : List Nat :=
  match s.backs r with
  | some lr => (List.range 32).map (fun t => s.physTile lr t)
  | none => []

/-- Physical tiles of a room that bring-up powers and tests: those that back a logical tile, and in a survey every tile. -/
def State.testedTiles (s : State) (r : Nat) : List Nat := if s.surveying then List.range 36 else s.mappedTiles r

/-- R23: the header switches of a powered room are closed for these tiles and open for every other one. -/
def State.setHeaders (s : State) (r : Nat) (tiles : List Nat) : State :=
  s.modRoom r (fun x => if x.seq = 0 then x else { x with headers := (List.range 36).filter tiles.contains })

/-- R17, R23, R437: the headers of a room's live tiles are closed, with those of the spares a migration to come has chosen. -/
def State.closeHeaders (s : State) (r : Nat) : State :=
  s.setHeaders r (s.testedTiles r ++ (match s.backs r with
    | some lr => s.parts.flatMap (fun e => (e.2.subs.filter (fun q => q.1 == lr)).map (fun q => q.2.2))
    | none => []))

/-- R506: a retired room loses its bit of GLB_SPARE_ROOM_STAT. -/
def State.retireRoom (s : State) (r : Nat) : State :=
  match spareRooms.find? (fun q => q.1 == r) with
  | some q => s.setReg RG.GLB_SPARE_ROOM_STAT 0 0 (withBits (s.reg RG.GLB_SPARE_ROOM_STAT 0 0) q.2 q.2 0)
  | none => s

/-- One event of R506, with the logical rooms whose substitution is pending. -/
def State.mapEvent (s : State) (pend : List Nat) (e : DefEv) : State × List Nat :=
  if e.cause = 7 then (s.defaultMap, [])
  else if e.tile = 63 then
    (s.retireRoom e.room, match s.backs e.room with
      | some n => setAdd pend n
      | none => pend)
  else
    let s := s.retireTile e.room e.tile
    match s.backs e.room with
    | some lr =>
      match (List.range 32).find? (fun t => s.physTile lr t == e.tile) with
      | some t => (s.subTile lr t, pend)
      | none => (s.countSpares lr, pend)
    | none => (s, pend)

/-- R506: the substitutions pending at the end of an epoch. -/
def State.mapPending (s : State) (pend : List Nat) : State :=
  let short := (List.range 96).filter (fun lr => s.fld F.GLB_ROOM_MAP_SHORT 0 lr == 1)
  (short.foldl setAdd pend).foldl (fun s lr => s.subRoom lr) s

/-- R506: build_map over a list of events. -/
def State.mapEvents (s : State) (pend : List Nat) : List DefEv → State
  | [] => s
  | e :: rest =>
    let (s, pend) := s.mapEvent pend e
    match rest with
    | [] => s.mapPending pend
    | f :: _ => if f.epoch = e.epoch then s.mapEvents pend rest else (s.mapPending pend).mapEvents [] rest

/-- build_map. -/
def State.buildMap (s : State) (l : List DefEv) : State := s.defaultMap.mapEvents [] l

end Sys2Proof.Machine
end

