-- ==== Sys2Proof/Machine/Checkpoint.lean ====
section
/-! DEFINITION. Bulk streams of requests, line digests (R264), checkpoint images: layout, writing, judging and restoring
(R320-R329), and what a load or restore resets (R250). -/

namespace Sys2Proof.Machine
open Sys2Proof

/-! ### Bulk streams -/

def State.bulk (s : State) (key : Nat) : Option Bulk := s.brdl.bulk.find? (fun b => b.key == key)
def State.setBulk (s : State) (key : Nat) (b : Option Bulk) : State :=
  let rest := s.brdl.bulk.filter (fun g => g.key != key)
  { s with brdl := { s.brdl with bulk := match b with
      | some g => rest ++ [g]
      | none => rest } }

/-- Opens as many writes of a stream as tags allow. -/
def State.pumpBulk (s : State) (key : Nat) : State :=
  match s.bulk key with
  | none => s
  | some b =>
    b.todo.foldl (fun s q =>
      let node := q.1 / 2 ^ 44 % 2 ^ 16
      match s.bulk key with
      | some g => if g.todo.head? == some q && s.mayOpen g.part node 2 then
          (s.openTxn g.part (lineWrite node (q.1 % 2 ^ 44) q.2) (.bulk key)).setBulk key
            (some { g with todo := g.todo.drop 1, outstanding := g.outstanding + 1 })
        else s
      | none => s) s

/-- A request writes bytes outside the device: to a host window at once, to another node as a stream. (Log 42: DEDUCED.) -/
def State.startBulk (s : State) (key p addr : Nat) (bs : Bytes) : State :=
  if addr / 2 ^ 60 % 16 = 4 then
    let ps := piecesBy addr bs.length
    if ps.any (fun q => s.bridleRefused (q.1 / 2 ^ 44 % 2 ^ 16) (q.1 % 2 ^ 44) 1 2 false) then
      s.setBulk key (some { key := key, part := p, fault := some St.ADDR_FAULT })
    else (s.setBulk key (some { key := key, part := p, todo := ps.map (fun q => (q.1, slice bs (q.1 - addr) q.2)) })).pumpBulk key
  else match s.devWrite p .agent addr bs false with
  | .ok s => s.setBulk key (some { key := key, part := p })
  | .error e => s.setBulk key (some { key := key, part := p, fault := some e.1 })

/-- The stream has been acknowledged in full, or has met a fault. -/
def Bulk.ended (b : Bulk) : Bool := b.fault.isSome || (b.todo.isEmpty && decide (b.outstanding = 0))

/-! ### Arrivals written into a partition (R313, R331) -/

/-- R155, R339, R403: a host request writes bytes into the partition's spaces; nothing is written when any is refused. -/
def State.hostPut (s : State) (p addr : Nat) (bs : Bytes) (marked : Bool) : Except Nat State :=
  let ps := pieces addr bs.length
  let bad := ps.any (fun pc => match s.resolve p .agent pc.1 pc.2 with
    | .error _ => true
    | .ok (.pantry k) => (s.part p).inProgram (k / 2 ^ 21) (k % 2 ^ 21) pc.2
    | .ok (.cellar nat) => s.inLongArea p (nat - s.cellBase p) pc.2
    | .ok (.cached nat) => s.inLongArea p (nat - s.cellBase p) pc.2
    | .ok _ => false)
  if bad then .error St.ADDR_FAULT
  else .ok (ps.foldl (fun (s : State) pc => match s.resolve p .agent pc.1 pc.2 with
    | .ok l => (s.writeLoc p l (slice bs (pc.1 - addr) pc.2) marked).noteWrite p pc.1
    | .error _ => s) s)

/-- The location of `n` bytes at a region address; a target that is not there belongs to no region. A cellar region names
partition cellar offsets, whatever view the partition's harness uses. (Log 64: DEDUCED.) -/
def State.regionLoc (s : State) (p addr n : Nat) : Option Loc :=
  if (s.part p).pstate ≠ .live then none
  else if spaceOf addr = 3 then
    let off := addr % 2 ^ 60
    if off + n ≤ s.cellCap p ∧ off + s.cellBase p + n ≤ s.cellarSize then
      some (if (s.part p).harness.inWindow off then .cached (off + s.cellBase p) else .cellar (off + s.cellBase p))
    else none
  else match s.resolve p .agent addr n with
  | .ok l => some l
  | .error _ => none

/-- R331: a PUSH or REMOTE entry is applied during a replay, where its bytes landed. -/
def State.applyArrival (s : State) (p : Nat) (e : JEnt) : State :=
  if e.kind = 5 then
    match s.hostPut p e.addr e.payload false with
    | .ok s => s
    | .error _ => s
  else if e.kind = 6 then
    (pieces e.addr e.payload.length).foldl (fun s q => match s.regionLoc p q.1 q.2 with
      | some l => (s.writeLoc p l (slice e.payload (q.1 - e.addr) q.2) false).noteWrite p q.1
      | none => s) s
  else s

/-! ### Digests -/

/-- R264: the line digest of a byte string whose first line has address `a`. -/
def lineDigest (a : Nat) (bs : Bytes) : Nat :=
  (List.range ((bs.length + 63) / 64)).foldl (fun d i =>
    (d + crc64 (leBytes 8 (a + 64 * i) ++ padTo (slice bs (64 * i) 64) 64)) % 2 ^ 64) 0

/-! ### Parameter records and ranges (R320, R321) -/

/-- The parameter record of R320. -/
structure LongParam where
  flags : Nat := 0
  rangeCount : Nat := 0
  addr : Nat := 0
  fromStep : Nat := 0
  toStep : Nat := 0
  result : Nat := 0
  rangesOff : Nat := 0
  limit : Nat := 0
  deriving DecidableEq, Repr

def decodeLongParam (b : Bytes) : LongParam :=
  ⟨fieldAt b 0 4, fieldAt b 4 2, fieldAt b 8 8, fieldAt b 16 8, fieldAt b 24 8, fieldAt b 32 8, fieldAt b 40 8, fieldAt b 48 8⟩

def LongParam.export_ (x : LongParam) : Bool := bitOf x.flags 0
def LongParam.pairs (x : LongParam) : Bool := bitOf x.flags 1
def LongParam.import_ (x : LongParam) : Bool := bitOf x.flags 2
def LongParam.stopOn (x : LongParam) : Bool := bitOf x.flags 3
/-- The slot named, when SLOT_SET is 1. -/
def LongParam.slot (x : LongParam) : Option Nat := if bitOf x.flags 4 then some (b2n (bitOf x.flags 5)) else none

/-- The ranges listed by a parameter record, none for the default ones. -/
def State.listedRanges (s : State) (p : Nat) (x : LongParam) : Option (List (Nat × Nat)) :=
  if x.rangeCount = 0 then none
  else some ((List.range x.rangeCount).map (fun i =>
    (leNat (s.lard p (x.rangesOff + 16 * i) 8), leNat (s.lard p (x.rangesOff + 16 * i + 8) 8))))

/-- Bytes of a pantry outside the instruction and record regions of core index `i`, as segments of space 0x1. -/
def PartSt.pantrySegs (x : PartSt) (i : Nat) : List (Nat × Nat) :=
  let h := x.harness.progs.getD i {}
  let base := 2 ^ 60 + i * 2 ^ 22
  let regions := sortBy (fun (a b : Nat × Nat) => decide (a.1 ≤ b.1)) [(h.instrBase, h.instrLen), (h.recBase, h.recLen)]
  let cuts := regions.foldl (fun (a : Nat × List (Nat × Nat)) r =>
    (max a.1 (r.1 + r.2), if a.1 < r.1 then a.2 ++ [(base + a.1, r.1 - a.1)] else a.2)) (0, [])
  if cuts.1 < 2 ^ 21 then cuts.2 ++ [(base + cuts.1, 2 ^ 21 - cuts.1)] else cuts.2

/-- R321: the segments of each range, by device address of spaces 0x1 and 0x2. -/
def PartSt.rangeSegs (x : PartSt) (ranges : Option (List (Nat × Nat))) : List (List (Nat × Nat)) :=
  let n := 4 * x.tiles.length
  match ranges with
  | none =>
    [(larderAddr 0, x.tiles.length * (3072 - x.harness.cachePages) * 4096)] :: (List.range n).map x.pantrySegs
  | some l => l.map (fun r =>
      if spaceOf r.1 = 0 then (List.range n).map (fun i => (2 ^ 60 + i * 2 ^ 22 + r.1, r.2)) else [r])

/-- The bytes of the ranges, each padded to a multiple of 256; none when a marked or refused byte is met. -/
def State.readRanges (s : State) (p : Nat) (segs : List (List (Nat × Nat))) : Except Nat Bytes :=
  foldE (fun (acc : Bytes) seg =>
    match foldE (fun (a : Bytes) (q : Nat × Nat) =>
      match s.devRead p .agent q.1 q.2 with
      | .ok (_, bs, m) => if m then .error St.CKPT_DATA_UE else .ok (a ++ bs)
      | .error e => .error e.1) [] seg with
    | .ok bs => .ok (acc ++ padMul bs 256)
    | .error e => .error e) [] segs

/-- Writes a body back to the ranges; bytes of an instruction or record region are left (R155). -/
def State.writeRanges (s : State) (p : Nat) (segs : List (List (Nat × Nat))) (body : Bytes) : State :=
  (segs.foldl (fun (a : State × Nat) seg =>
    let r := seg.foldl (fun (a : State × Nat) q =>
      ((pieces q.1 q.2).foldl (fun s pc =>
        match s.devWrite p .agent pc.1 (slice body (a.2 + (pc.1 - q.1)) pc.2) false with
        | .ok s => s
        | .error _ => s) a.1, a.2 + q.2)) a
    (r.1, a.2 + (r.2 - a.2 + 255) / 256 * 256)) (s, 0)).1

/-! ### Placement and headers (R322, R323) -/

/-- R323: native address of the q-th granule of copy `c` (0 A, 1 B) of a range that starts at native offset `lo`. -/
def copyGranule (lo c q : Nat) : Nat :=
  let g := lo / 256
  let r := g % 96
  let i := q + (if c = 0 then min r 48 else r - 48)
  256 * (g - r + i / 48 * 96 + 48 * c + i % 48)

def State.ckptLo (s : State) (p slot : Nat) : Nat :=
  s.cellBase p + (s.fld F.TACK_CKPT_AREA_BASE_GIB p 0 * gib) + slot * (s.fld F.TACK_CKPT_AREA_SIZE_GIB p 0 * gib / 2)
def State.ckptHi (s : State) (p slot : Nat) : Nat := s.ckptLo p slot + s.fld F.TACK_CKPT_AREA_SIZE_GIB p 0 * gib / 2

/-- R323: does an image of `n` bytes fit in both copies of a slot? -/
def State.ckptFits (s : State) (p slot n : Nat) : Bool :=
  let last := (n + 255) / 256 - 1
  [0, 1].all (fun c => decide (copyGranule (s.ckptLo p slot) c last + 256 ≤ s.ckptHi p slot))

/-- Writes bytes at offset `o` (a multiple of 256) of copy `c` of a slot. -/
def State.putCopy (s : State) (p slot c o : Nat) (bs : Bytes) : State :=
  (List.range ((bs.length + 255) / 256)).foldl (fun s i =>
    let a := copyGranule (s.ckptLo p slot) c (o / 256 + i)
    let b := slice bs (256 * i) 256
    (s.cellarWrite (s.part p).key a b).cellarMarkWrite p a b.length false) s

/-- Reads `n` bytes at offset `o` (a multiple of 256) of copy `c`; the flag says that a marked line was met. -/
def State.getCopy (s : State) (p slot c o n : Nat) : Bytes × Bool :=
  let gs := (List.range ((n + 255) / 256)).map (fun i => copyGranule (s.ckptLo p slot) c (o / 256 + i))
  ((gs.flatMap (fun a => s.cellarRead (s.part p).key a 256)).take n, gs.any (fun a => markRead s.cellarMark 64 a 256))

/-- Bits as bytes, bit i at bit i mod 8 of byte i div 8. -/
def packBits (bs : List Bool) : Bytes :=
  (List.range ((bs.length + 7) / 8)).map (fun i =>
    BitVec.ofNat 8 ((List.range 8).foldl (fun a j => a + b2n (bs.getD (8 * i + j) false) * 2 ^ j) 0))

/-- Half length of a body (R322). -/
def halfLen (n : Nat) : Nat := 256 * ((n + 511) / 512)

/-- R322: the checkpoint header with COPY `c` (0, 1 or 0xFF). -/
def State.ckptHeader (s : State) (p c step : Nat) (pairs : Bool) (ranges : Option (List (Nat × Nat))) (parity : List Bool)
    (tai : Nat) (body : Bytes) : Bytes :=
  let x := s.part p
  let h := halfLen body.length
  let rs := (ranges.getD []).flatMap (fun r => leBytes 8 r.1 ++ leBytes 8 r.2)
  let b := [0x54, 0x4E, 0x43, 0x4B] ++ leBytes 2 1 ++ leBytes 1 c ++ leBytes 1 (b2n pairs + 2 * b2n ranges.isNone) ++
    leBytes 8 step ++ padTo x.harness.digest 32 ++ leBytes 4 (s.reg RG.TACK_FW_ABI_SEL 0 0) ++
    leBytes 2 (ranges.getD []).length ++ leBytes 2 x.harness.cur.pairs.length ++ leBytes 8 body.length ++
    leBytes 8 (lineDigest 0 (body.take h)) ++ leBytes 8 (lineDigest h (body.drop h)) ++ leBytes 8 tai
  let b := padTo b 0x80 ++ padTo rs 256
  let b := padTo (padTo b 0x200 ++ padTo (packBits parity) 512) 0xFFC
  b ++ leBytes 4 (crc32 b)

/-- A header's MAGIC, VERSION, COPY and CRC are correct. -/
def ckptIntact (b : Bytes) (c : Nat) : Bool :=
  slice b 0 4 == [0x54, 0x4E, 0x43, 0x4B] && fieldAt b 4 2 == 1 && fieldAt b 6 1 == c &&
    fieldAt b 0xFFC 4 == crc32 (b.take 0xFFC)

/-- A header without its COPY and CRC. -/
def ckptSame (a b : Bytes) : Bool := a.take 6 == b.take 6 && slice a 7 0xFF5 == slice b 7 0xFF5

def PartSt.ckSlot (x : PartSt) (i : Nat) : CkptSlot := if i = 0 then x.long.ck0 else x.long.ck1
def PartSt.setCk (x : PartSt) (i : Nat) (c : CkptSlot) : PartSt :=
  { x with long := if i = 0 then { x.long with ck0 := c } else { x.long with ck1 := c } }

/-- R327: the judgement of a slot: none is rejected, else its header and the intact copies. A slot that a restore has
marked rejected (R328) stays so until it is written. (Log 50: DEDUCED.) -/
def State.judgeSlot (s : State) (p slot : Nat) : Option (Bytes × List Nat) :=
  if s.fld F.TACK_CKPT_AREA_SIZE_GIB p 0 = 0 ∨ !((s.part p).ckSlot slot).valid then none
  else
    let a := s.getCopy p slot 0 0 4096
    let b := s.getCopy p slot 1 0 4096
    let ia := ckptIntact a.1 0 && !a.2
    let ib := ckptIntact b.1 1 && !b.2
    if ia && ib then (if ckptSame a.1 b.1 then some (a.1, [0, 1]) else none)
    else if ia then some (a.1, [0])
    else if ib then some (b.1, [1])
    else none

/-- Valid slots, the latest first. -/
def State.validSlots (s : State) (p : Nat) : List Nat :=
  let x := s.part p
  sortBy (fun a b => decide ((x.ckSlot b).order ≤ (x.ckSlot a).order)) ([0, 1].filter (fun i => (s.judgeSlot p i).isSome))

/-! ### Writing a checkpoint (R324-R326) -/

/-- PARITY of every pair. -/
def PartSt.parities (x : PartSt) : List Bool := x.harness.cur.pairs.map (fun e => e.parity)

/-- Orders 1-5 of R324; the error is the status, with what the orders before it have done: stopped at order 3, the target
slot has no valid header. -/
def State.writeCheckpoint (s : State) (p : Nat) (slot : Option Nat) (ranges : Option (List (Nat × Nat))) :
    Except (State × Nat) (State × Bytes) :=
  let x := s.part p
  let target := match slot, s.validSlots p with
    | some i, _ => i
    | none, latest :: _ => 1 - latest
    | none, [] => 0
  let segs := x.rangeSegs ranges
  let len := (segs.map (fun seg => ((seg.map (fun q => q.2)).foldl (· + ·) 0 + 255) / 256 * 256)).foldl (· + ·) 0
  if s.fld F.TACK_CKPT_AREA_SIZE_GIB p 0 = 0 ∨ !s.ckptFits p target (4096 + len) then .error (s, St.CKPT_SPACE)
  else
    let s := s.flushCache p
    let zero := List.replicate 4096 (0 : Byte)
    let s := (s.putCopy p target 0 0 zero).putCopy p target 1 0 zero
    let s := s.modPart p (fun x => x.setCk target {})
    match s.readRanges p segs with
    | .error e => .error (s, e)
    | .ok body =>
      let s := (s.putCopy p target 0 4096 body).putCopy p target 1 4096 body
      let hdr := fun c => s.ckptHeader p c x.step false ranges x.parities s.tai body
      let s' := (s.putCopy p target 0 0 (hdr 0)).putCopy p target 1 0 (hdr 1)
      let other := (s'.judgeSlot p (1 - target)).map (fun h => fieldAt h.1 8 8)
      let s' := s'.modPart p (fun x => { x.setCk target ⟨true, false, x.step, x.long.ckOrder + 1, x.parities⟩ with
        long := { (x.setCk target ⟨true, false, x.step, x.long.ckOrder + 1, x.parities⟩).long with ckOrder := x.long.ckOrder + 1 } })
      let s' := if s'.fld F.TACK_JRNL_CFG_AUTO_FLOOR p 0 = 1 then
          s'.setReg64 RG.TACK_JRNL_FLOOR_LO RG.TACK_JRNL_FLOOR_HI p 0 (other.getD x.step)
        else s'
      .ok ((s'.jrnlRelease p).jrnl p 8 target x.step 0 ((hdr 0).take 128), body)

/-- R321: an exported image: the header with COPY 0xFF and the body, with the current buffer of each pair appended. -/
def State.exportImage (s : State) (p : Nat) (pairs : Bool) (ranges : Option (List (Nat × Nat))) (body : Bytes) : Bytes :=
  let x := s.part p
  let cur := if pairs then x.harness.cur.pairs.flatMap (fun e =>
      s.cellarRead x.key (s.cellBase p + (if e.parity then e.bBase else e.aBase)) e.len) else []
  let body := body ++ cur
  s.ckptHeader p 0xFF x.step pairs ranges x.parities s.tai body ++ body

/-! ### Restoring (R319, R328, R329) -/

/-- R250: loop stacks empty and copy slots FREE, statistics records, tap accumulators and the time log header zeroed. -/
def State.loadResets (s : State) (p : Nat) : State :=
  let h := (s.part p).harness
  let s := s.forCores p (fun c => { c with loops := [], slots := [] })
  let s := h.statsIdx.foldl (fun s i => s.setLard p (h.statsBase + 48 * i) (List.replicate 48 0)) s
  let s := s.setLard p h.tapBase (List.replicate (16 * h.taps.length) 0)
  s.setLard p h.timelogBase (List.replicate 64 0)

/-- R328: the body of a slot, each half checked against HALF_DIGEST and reread from the other copy. -/
def State.readBody (s : State) (p slot : Nat) (hdr : Bytes) (copies : List Nat) : Option Bytes :=
  let n := fieldAt hdr 0x38 8
  let h := halfLen n
  let half := fun (i c : Nat) =>
    let o := if i = 0 then 0 else h
    let len := if i = 0 then min h n else n - h
    let (bs, m) := s.getCopy p slot c (4096 + o) len
    if !m && lineDigest o bs == fieldAt hdr (0x40 + 8 * i) 8 then some bs else none
  let pick := fun (i : Nat) =>
    let order := if copies = [0, 1] then (if i = 0 then [0, 1] else [1, 0]) else copies
    (order.filterMap (half i)).head?
  match pick 0, pick 1 with
  | some a, some b => some (a ++ b)
  | _, _ => none

/-- The ranges a header names. -/
def ckptRanges (hdr : Bytes) : Option (List (Nat × Nat)) :=
  if bitOf (fieldAt hdr 7 1) 1 then none
  else some ((List.range (min 16 (fieldAt hdr 0x34 2))).map (fun i => (fieldAt hdr (0x80 + 16 * i) 8, fieldAt hdr (0x88 + 16 * i) 8)))

/-- PARITY of pair `i` in a header. -/
def ckptParity (hdr : Bytes) (i : Nat) : Bool := bitOf (fieldAt hdr (0x200 + i / 8) 1) (i % 8)

/-- R328: a copy that is not intact is rewritten from the image, and CKPT_REPAIR posted. (Log 50: DEDUCED.) -/
def State.repairCopies (s : State) (p slot : Nat) (hdr body : Bytes) (copies : List Nat) : State :=
  ([0, 1].filter (fun c => !copies.contains c)).foldl (fun s c =>
    let b := (hdr.take 6) ++ leBytes 1 c ++ slice hdr 7 0xFF5
    let s := (s.putCopy p slot c 4096 body).putCopy p slot c 0 (b ++ leBytes 4 (crc32 b))
    s.post Ev.CKPT_REPAIR 0x26 p (some p) (leBytes 1 slot ++ leBytes 1 c)) s

/-- R328: the first of the slots, latest first, whose halves can be read: slot, header, intact copies and body, or the
status. A slot whose halves fail in both copies is marked rejected, and the restore starts again from the next.
(Log 50: DEDUCED.) -/
def State.chooseSlot (s : State) (p : Nat) : List Nat → State × Except Nat (Nat × Bytes × List Nat × Bytes)
  | [] => (s, .error St.CKPT_NONE)
  | i :: rest => match s.judgeSlot p i with
    | none => s.chooseSlot p rest
    | some (hdr, cs) =>
      if slice hdr 0x10 32 ≠ padTo (s.part p).harness.digest 32 then (s, .error St.HARNESS_MISMATCH)
      else if ((s.part p).ckSlot i).stale then (s, .error St.CKPT_STALE)
      else match s.readBody p i hdr cs with
        | some body => (s, .ok (i, hdr, cs, body))
        | none => (s.modPart p (fun x => x.setCk i { x.ckSlot i with valid := false })).chooseSlot p rest

/-- R292, R309: the pair records in the larder follow the Curriers. -/
def State.putPairs (s : State) (p : Nat) : State :=
  let c := (s.part p).harness.cur
  (List.range c.pairs.length).foldl (fun s i =>
    let e := c.pairs.getD i {}
    s.setLard p (c.pairBase + 32 * i + 0x18) (leBytes 1 (b2n e.parity + 2 * b2n e.written))) s

/-- Sets the pairs of a partition. -/
def PartSt.setPairs (x : PartSt) (f : Nat → PairEnt → PairEnt) : PartSt :=
  match x.harn with
  | some h => { x with harn := some { h with cur := { h.cur with pairs := h.cur.pairs.mapIdx f } } }
  | none => x

/-- R328: a restored image becomes the state of the partition; `slot` is 0xFF for an import. -/
def State.applyImage (s : State) (p slot : Nat) (hdr body : Bytes) : State :=
  let s := s.writeRanges p ((s.part p).rangeSegs (ckptRanges hdr)) body
  let s := s.modPart p (fun x => x.setPairs (fun i e => { e with parity := ckptParity hdr i, written := false }))
  let s := (s.putPairs p).loadResets p
  let s := s.modPart p (fun x => { x with step := fieldAt hdr 8 8, attempt := 0, finalVote := 0, stopped := none,
                                          running := false, closed := false, tail := none, flrHold := false })
  s.jrnl p 9 slot (fieldAt hdr 8 8) 0 []

/-- Larder ranges of the records the device itself manages: quantiser, statistics, vote groups and pairs (R319). -/
def PartSt.managed (x : PartSt) : List (Nat × Nat) :=
  let h := x.harness
  [(h.qstateBase, 128 * h.qstateCount), (h.cur.pairBase, 32 * h.cur.pairs.length)] ++
    h.statsIdx.map (fun i => (h.statsBase + 48 * i, 48)) ++
    (match h.voteBase with
      | some b => [(b, 256 + 256 * h.voteGroups)]
      | none => [])

/-- R319: the automatic restore of the latest checkpoint's ranges, except the managed records; where R328 refuses it there is
none. -/
def State.autoRestore (s : State) (p : Nat) : State :=
  match s.chooseSlot p (s.validSlots p) with
  | (s, .error _) => s
  | (s, .ok (slot, hdr, cs, body)) =>
    let keep := (s.part p).managed.map (fun r => (r.1, s.lard p r.1 r.2))
    let s := (s.repairCopies p slot hdr body cs).writeRanges p ((s.part p).rangeSegs (ckptRanges hdr)) body
    keep.foldl (fun s r => s.setLard p r.1 r.2) s

end Sys2Proof.Machine
end

