-- ==== Sys2Proof/Machine/Exchange.lean ====
section
/-! DEFINITION. Exchange between modules: messages (R302), their sending (R303, R378), their treatment on receipt
(R304-R306, R318) and the stall limit (R308). -/

namespace Sys2Proof.Machine
open Sys2Proof

/-- Chunks of 4,096 elements. -/
def chunkElems : Nat := 4096

/-- R311: what the exchange page of a partition holds now. -/
def State.xgRegs (s : State) (p : Nat) : XgCfg :=
  { pcount := s.fld F.BRDL_XG_CFG_PCOUNT p 0, ordinal := s.fld F.BRDL_XG_CFG_ORDINAL p 0, timeout := s.fld F.BRDL_XG_TIMEOUT_MS p 0
    nodes := (List.range (s.fld F.BRDL_XG_CFG_PCOUNT p 0)).map (fun i =>
      if i % 2 = 0 then s.fld F.BRDL_XG_NODE_NODE_EVEN p (i / 2) else s.fld F.BRDL_XG_NODE_NODE_ODD p (i / 2)) }

/-- R311: the device uses the values in force at LOAD_HARNESS. -/
def State.xgCfg (s : State) (p : Nat) : XgCfg := (s.part p).xgc.getD (s.xgRegs p)
def State.pcount (s : State) (p : Nat) : Nat := (s.xgCfg p).pcount
def State.ordinal (s : State) (p : Nat) : Nat := (s.xgCfg p).ordinal
/-- The Bridle node of an ordinal (R311). -/
def State.xgNode (s : State) (p i : Nat) : Nat := (s.xgCfg p).nodes.getD i 0

/-! ### Messages (R302) -/

/-- An exchange message. -/
def State.xgMessage (s : State) (p kind chunks msgId first : Nat) (payload : Bytes) : Bytes :=
  let x := s.part p
  leBytes 8 x.step ++ leBytes 1 (x.attempt % 4) ++ leBytes 1 (x.vote % 4) ++ leBytes 1 kind ++ leBytes 1 0 ++
    leBytes 2 (s.ordinal p) ++ leBytes 2 chunks ++ leBytes 4 msgId ++ leBytes 4 first ++ leBytes 4 payload.length ++
    padTo (x.harness.digest.take 4) 4 ++ payload

def msgStep (m : Bytes) : Nat := fieldAt m 0 8
def msgAttempt (m : Bytes) : Nat := fieldAt m 8 1 % 4
def msgVote (m : Bytes) : Nat := fieldAt m 9 1 % 4
def msgKind (m : Bytes) : Nat := fieldAt m 0xA 1
def msgSrc (m : Bytes) : Nat := fieldAt m 0xC 2
def msgChunks (m : Bytes) : Nat := fieldAt m 0xE 2
def msgId (m : Bytes) : Nat := fieldAt m 0x10 4
def msgLen (m : Bytes) : Nat := fieldAt m 0x18 4

/-- The chunk encodings of a payload (R300): none where a chunk runs past the end. -/
def splitChunks : Nat → Bytes → Option (List Bytes)
  | 0, [] => some []
  | 0, _ => none
  | n + 1, b =>
    let len := match fieldAt b 0 1 with
      | 0 => 4
      | 1 => 4 + ((fieldAt b 2 2 + 1) / 2 * 7 + 3) / 4 * 4
      | 2 => 520
      | _ => 8196
    if b.length < len then none else (splitChunks n (b.drop len)).map (fun l => b.take len :: l)

/-! ### Sending (R303, R378) -/

/-- The fragments of a message for a node, from write sequence `w`. -/
def State.fragments (s : State) (p node tag w : Nat) (m : Bytes) : List Txn :=
  let n := (m.length + 255) / 256
  (List.range n).map (fun i =>
    { op := 4, last := i + 1 == n, src := s.node, dst := node, tag := tag, inc := s.fld F.BRDL_NODE_INC 0 0,
      wseq := (w + i) % 2 ^ 32, addr := 256 * i + 2 ^ 16 * p, data := slice m (256 * i) 256 })

/-- Sends every fragment of a message under one tag. -/
def State.openMessage (s : State) (p node : Nat) (m : Bytes) : State :=
  let w := tget s.brdl.egress node 0
  let fs := s.fragments p node s.freshTag w m
  let s := { s with brdl := { s.brdl with egress := tput s.brdl.egress node ((w + fs.length) % 2 ^ 32) 0 } }
  let b := s.pathTo node
  match fs.getLast? with
  | none => s
  | some lastF =>
    let o : OutTxn := { t := lastF, more := fs.dropLast, for_ := .exchange p (msgId m), part := p,
                        gen := s.fld F.HALL_GEN_GEN p 0, port := b.getD 97, first := s.mono, sentAt := s.mono }
    let s := { s with brdl := { s.brdl with txns := s.brdl.txns ++ [o] } }
    match b with
    | some b => fs.foldl (fun s f => s.sendTxn b f p) s
    | none => s

/-- Receive slot of a message (R303). -/
def State.recvSlot (s : State) (p src id : Nat) : Nat :=
  let c := (s.part p).harness.cur
  src * c.rslots + id % c.rslots

/-- A receive slot is free (R305). -/
def XgSt.slotFree (x : XgSt) (src slot : Nat) : Bool := x.slotsUsed.all (fun u => !(u.1 == src && u.2.1 == slot))

/-- Places a CHUNKS message in its receive slot. -/
def State.placeMessage (s : State) (p : Nat) (m : Bytes) : State :=
  let slot := s.recvSlot p (msgSrc m) (msgId m)
  let s := s.setLard p ((s.part p).harness.cur.recvBase + 16384 * slot) (m.take 16384)
  s.modPart p (fun x => { x with xg := { x.xg with
    chunks := x.xg.chunks ++ [(msgSrc m, msgId m)]
    slotsUsed := x.xg.slotsUsed ++ [(msgSrc m, slot, msgId m)]
    progress := s.mono } })

/-- R303, R331, R354, R381: sends what it can of a partition's messages; its own chunks go to its own receive slots, and
during a replay nothing leaves the device. -/
def State.pumpOutbox (s : State) (p : Nat) : State :=
  (s.part p).xg.outbox.foldl (fun s q =>
    let own := s.ordinal p
    let node := s.xgNode p q.1
    let sent := fun (s : State) => s.modPart p (fun x => { x with xg := { x.xg with outbox := x.xg.outbox.erase q, progress := s.mono } })
    -- the header carries the vote of the moment it leaves (R302)
    let m := q.2.2.take 9 ++ leBytes 1 ((s.part p).vote % 4) ++ q.2.2.drop 10
    if q.1 = own then
      if (s.part p).xg.slotFree own (s.recvSlot p own (msgId q.2.2)) then sent (s.placeMessage p m) else s
    else if (s.part p).replaying then sent s
    else if !s.chartered node 4 then sent (s.lastRefusal p 6 node 0)
    else if s.mayOpen p node 4 then sent (s.openMessage p node m)
    else s) s

/-- R303: queues a message for every other participant, and for this one when it carries chunks. -/
def State.postMessage (s : State) (p job : Nat) (m : Bytes) : State :=
  let dests := (List.range (s.pcount p)).filter (fun i => msgKind m == 0 || i != s.ordinal p)
  s.modPart p (fun x => { x with xg := { x.xg with outbox := x.xg.outbox ++ dests.map (fun i => (i, job, m)) } })

/-! ### Receiving (R304-R306) -/

/-- What the device does with a message (R304): 0 accepts, 1 discards, 2 holds, 3 discards with EXCHANGE_STRAY. An attempt
that has not started yet has not been reached. -/
def State.xgTreat (s : State) (p node : Nat) (m : Bytes) : Nat :=
  let x := s.part p
  let st := msgStep m
  let at_ := msgAttempt m
  let src := msgSrc m
  let here := st == x.step && at_ == x.attempt
  let seen := if msgKind m = 1 then x.xg.closes.any (fun c => c.1 == src) else x.xg.chunks.contains (src, msgId m)
  if slice m 0x1C 4 != padTo (x.harness.digest.take 4) 4 || decide (s.pcount p ≤ src) || s.xgNode p src != node then 3
  else if here && !x.running then 2
  else if here && seen then 1
  else if here then (if msgKind m = 1 || x.xg.slotFree src (s.recvSlot p src (msgId m)) then 0 else 2)
  else if st < x.step || (st == x.step && decide (at_ < x.attempt)) then 1
  else if st == x.step || (st == x.step + 1 && at_ == 0) then 2
  else 3

/-- The PACK job whose message identifiers hold `id`, with its first chunk. -/
def PartSt.packOf (x : PartSt) (id : Nat) : Option CurJob :=
  x.harness.cur.jobs.find? (fun j => j.kind == 6 && decide (j.msgFirst ≤ id) &&
    decide (id < j.msgFirst + (j.chunkCount + j.cpm - 1) / j.cpm))

/-- Valid elements of chunk `c` of a tensor of `n` elements. -/
def chunkValid (n c : Nat) : Nat := min chunkElems (n - chunkElems * c)

/-- Elements of a tensor. -/
def Desc.elems (d : Desc) : Nat := d.rows * d.k

/-- Index of entry `e` of a TOPK encoding (R300). -/
def topkIndex (b : Bytes) (e : Nat) : Nat :=
  let w := fieldAt b (4 + 7 * (e / 2) + 4) 3
  if e % 2 = 0 then w % 4096 else w / 4096

/-- R306: is a chunk encoding malformed, for a job's K and `n` valid elements? -/
def chunkBad (k n : Nat) (b : Bytes) : Bool :=
  match fieldAt b 0 1 with
  | 0 | 2 | 3 => false
  | 1 =>
    let idx := (List.range (fieldAt b 2 2)).map (topkIndex b)
    fieldAt b 2 2 != k || idx.any (fun i => decide (n ≤ i)) || idx.eraseDups.length != idx.length
  | _ => true

/-- R306: is a message malformed? A CLOSE carries no chunks, so its PAYLOAD_LEN is 0. -/
def State.messageBad (s : State) (p : Nat) (m : Bytes) : Bool :=
  let body := m.drop 32
  if msgKind m = 1 then msgLen m != 0 || body != []
  else match splitChunks (msgChunks m) body with
  | none => true
  | some cs =>
    msgLen m != body.length || (match (s.part p).packOf (msgId m) with
      | none => true
      | some j =>
        let n := match s.desc p j.inp with
          | some d => d.elems
          | none => 0
        let c0 := j.chunkFirst + (msgId m - j.msgFirst) * j.cpm
        (List.range cs.length).any (fun i => chunkBad j.k (chunkValid n (c0 + i)) (cs.getD i [])))

/-- R318: in a repeated attempt, the first CHUNKS message that the journal holds for an earlier attempt of the step, that has
not been accepted and whose receive slot is free: it is accepted as a message of this attempt. A CLOSE carries the vote of
its own attempt, whose maximum R309 takes, and comes from outside. (Log 44: DEDUCED.) -/
def State.xgServed (s : State) (p : Nat) : Option Bytes :=
  let x := s.part p
  ((x.long.marks.filter (fun m => m.kind == 4 && m.step == x.step && decide (m.attempt < x.attempt) && m.key1 != 0xFFFFFFFF &&
      !x.xg.chunks.contains (m.key0, m.key1) && x.xg.slotFree m.key0 (s.recvSlot p m.key0 m.key1))).getLast?).map (fun m =>
    let b := s.jrnlPayload p m
    b.take 8 ++ leBytes 1 (x.attempt % 4) ++ leBytes 1 0 ++ b.drop 10)

/-- R304, R306, R309, R313: an accepted message. A VOTE of 3 is treated as SKIP and raises the local vote. -/
def State.xgAccept (s : State) (p : Nat) (m : Bytes) : State :=
  let s := s.jrnl p 4 (msgSrc m) (if msgKind m = 1 then 0xFFFFFFFF else msgId m) 0 m
  let v := min 2 (msgVote m)
  let s := s.modPart p (fun x => { x with xg := { x.xg with maxVote := max x.xg.maxVote v, progress := s.mono } })
  let s := if msgVote m = 3 then s.raiseVote p voteSkip else s
  let s := if s.messageBad p m then
      (s.raiseVote p voteSkip).post Ev.EXCHANGE_MALFORMED 0x25 p (some p)
        (leBytes 2 (msgSrc m) ++ leBytes 2 0 ++ leBytes 4 (msgId m) ++ leBytes 8 (s.part p).step)
    else s
  if msgKind m = 1 then s.modPart p (fun x => { x with xg := { x.xg with closes := x.xg.closes ++ [(msgSrc m, v)] } })
  else s.placeMessage p m

/-- EXCHANGE_STRAY (R529), posted for a partition or none. -/
def State.stray (s : State) (p : Option Nat) (node : Nat) (m : Bytes) : State :=
  s.post Ev.EXCHANGE_STRAY 0x25 (p.getD 0) p (leBytes 2 node ++ leBytes 2 (msgSrc m) ++ leBytes 8 (msgStep m) ++ leBytes 1 (msgAttempt m))

/-- A replay's next exchange message: the first XMSG entry of the attempt in hand that has not been accepted and can be
(R331). -/
def State.replayMessage (s : State) (p : Nat) : Option Bytes :=
  match (s.part p).long.replay with
  | none => none
  | some r =>
    (((r.ents.drop 1).takeWhile (fun e => e.kind != 1)).filter (fun e => e.kind == 4)).map (fun e => e.payload) |>.find?
      (fun m => s.xgTreat p (s.xgNode p (msgSrc m)) m == 0)

/-- R331, R332: during a replay, the message of ordinal `src` with identifier `id` (0xFFFFFFFF: its CLOSE) has no entry. -/
def State.noEntry (s : State) (p src id : Nat) : Bool :=
  match (s.part p).long.replay with
  | some r => src != s.ordinal p && !((r.ents.drop 1).takeWhile (fun e => e.kind != 1)).any
      (fun e => e.kind == 4 && e.key0 == src && e.key1 == id)
  | none => false

/-- XG_MESSAGE_RECEIVE: the oldest assembled message of a partition that need not be held is accepted or discarded; during
a replay the journal's messages take the place of outside ones, and in a repeated attempt those it holds are served first
(R318). -/
def execXgMessageReceive (part t : Nat) (s : State) : Host.Outcome State Fault Refusal :=
  if part < 512 then
    let s := s.toTime t
    if !s.jrnlServed part 16384 then .next s
    else if (s.part part).replaying then
      match s.replayMessage part with
      | some m => .next (s.xgAccept part m)
      | none => .next s
    else match (if (s.part part).active then s.xgServed part else none) with
    | some m => .next (s.xgAccept part m)
    | none =>
      match s.brdl.msgs.find? (fun q => q.1 == part && s.xgTreat part q.2.1 q.2.2 != 2) with
      | none => .next s
      | some q =>
        let s := { s with brdl := { s.brdl with msgs := s.brdl.msgs.erase q } }
        match s.xgTreat part q.2.1 q.2.2 with
        | 0 => .next (s.xgAccept part q.2.2)
        | 3 => .next ((s.incFld F.BRDL_XG_DISCARDS_COUNT part 0).stray (some part) q.2.1 q.2.2)
        | _ => .next (s.incFld F.BRDL_XG_DISCARDS_COUNT part 0)
  else .refused .illFormed

/-- Every other ordinal's CLOSE has been accepted (R309). -/
def State.allClosed (s : State) (p : Nat) : Bool :=
  (List.range (s.pcount p)).all (fun i => i == s.ordinal p || (s.part p).xg.closes.any (fun c => c.1 == i))

/-- R308: a PACK, UNPACK or close of the partition waits on the exchange: for a CLOSE of another ordinal, for a message of
its own to be sent, or for a message its next chunk needs. -/
def State.xgWaits (s : State) (p : Nat) : Bool :=
  let x := s.part p
  x.running && ((x.closed && decide (1 < s.pcount p) && !s.allClosed p) ||
    x.jobs.any (fun j => j.started && (match x.harness.cur.jobs[j.job]? with
      | some r =>
        (r.kind == 6 && x.xg.outbox.any (fun o => o.2.1 == j.job + 1)) ||
          (r.kind == 7 && !j.worked && !(List.range (s.pcount p)).all (fun i =>
            x.xg.chunks.contains (i, r.msgFirst + j.chunks / r.cpm)))
      | none => false)))

/-- EXCHANGE_STALL_TIMEOUT (R308). -/
def execExchangeStallTimeout (part t : Nat) (s : State) : Host.Outcome State Fault Refusal :=
  if part < 512 then
    let s := s.toTime t
    let ms := max 1 (s.xgCfg part).timeout
    if s.xgWaits part && decide ((s.part part).xg.progress + ms * 10 ^ 6 ≤ s.mono) then .next (s.stopPart part St.EXCHANGE_STALL)
    else .next s
  else .refused .illFormed

end Sys2Proof.Machine
end

