-- ==== Sys2Proof/Machine/Boundary.lean ====
section
/-! DEFINITION. Attempts and step boundaries: the start of an attempt (R82, R137, R149, R158, R250, R266, R280, R295, R296,
R305, R343), its close (R298, R309), the final vote and what follows it (R86, R267-R270, R309, R316-R319, R325), variants
(R259-R261), sparing and migration at a boundary (R16, R17, R20, R24, R132, R235, R236, R406). -/

namespace Sys2Proof.Machine
open Sys2Proof

/-! ### Variants (R259-R261) -/

/-- R259: the variant the select word chooses; a harness without an index runs variant 0. -/
def Harness.variantFor (h : Harness) (w : Nat) : Option Nat :=
  if h.variantIx = [] then some 0
  else (h.variantIx.find? (fun e => decide (e.lo ≤ w) && decide (w ≤ e.hi))).map (fun e => e.variant)

/-- Reads the select word and selects the variant; none matches no entry. -/
def State.selectVariant (s : State) (p : Nat) : State × Bool :=
  let h := (s.part p).harness
  let w := leNat (s.lard p h.selectOffset 4)
  match h.variantFor w with
  | some v => (s.modPart p (fun x => { x with variant := v, select := w }), true)
  | none => (s, false)

/-! ### The journal ring at a boundary (R316) -/

/-- R316: JOURNAL_FULL and the hold; enough space lifts the hold. -/
def State.jrnlCheck (s : State) (p : Nat) : State :=
  let big := (s.part p).long.largest
  let free := s.jrnlFree p
  if s.fld F.TACK_JRNL_CFG_EN p 0 = 1 ∧ free < big then
    let s := s.post Ev.JOURNAL_FULL 0x26 p (some p) (leBytes 8 free ++ leBytes 8 big)
    if s.fld F.TACK_JRNL_CFG_FULL_HOLD p 0 = 1 then s.setFld F.TACK_JRNL_STAT_HELD p 0 1 else s
  else s.setFld F.TACK_JRNL_STAT_HELD p 0 0

/-! ### ATTEMPT_START -/

/-- The OPEN entry of the attempt a replay is about to run. -/
def PartSt.replayOpen (x : PartSt) : Option JEnt :=
  match x.long.replay with
  | some r => match r.ents with
    | e :: _ => if e.kind = 1 ∧ e.step ≤ r.to_ ∧ !(r.stopOn && r.diff.isSome) then some e else none
    | [] => none
  | none => none

/-- An attempt of the partition may start: its harness is loaded, a request asks for it and nothing holds the boundary. -/
def State.mayStart (s : State) (p : Nat) : Bool :=
  let x := s.part p
  decide (x.pstate = .live) && x.harn.isSome && x.stopped.isNone && !x.running && decide (x.migrating = 0) &&
    x.tail.isNone && decide (x.moveTo = none) && (x.run.isSome || x.replayOpen.isSome) &&
    decide (s.fld F.TACK_JRNL_STAT_HELD p 0 = 0) && decide (s.fld F.GLB_POWER_STATE_STATE 0 0 = 0) && !s.pwr.off

/-- R202: what the boundary reads from and writes into the cellar can be served: the journal's entry of `n` bytes, and an
automatic checkpoint or restore. -/
def State.boundaryServed (s : State) (p n : Nat) : Bool :=
  s.jrnlServed p n && (decide (s.fld F.TACK_JRNL_CFG_AUTO_CKPT p 0 = 0) || s.cellarServes p)

/-- The quantiser state records. -/
def State.qrecords (s : State) (p : Nat) : List Bytes :=
  (List.range (s.part p).harness.qstateCount).map (fun i => s.lard p ((s.part p).qstateOff i) 128)

/-- The larder words the device zeroes at the start of each attempt, and the ATTEMPT of each statistics record. -/
def State.zeroRecords (s : State) (p : Nat) : State :=
  let x := s.part p
  let h := x.harness
  let s := h.statsIdx.foldl (fun s i => s.setLard p (h.statsBase + 48 * i) (List.replicate 44 0 ++ leBytes 4 x.attempt)) s
  let s := s.setLard p h.tapBase (List.replicate (16 * h.taps.length) 0)
  let s := h.cur.jobs.foldl (fun s j => s.setLard p j.done (List.replicate 8 0)) s
  -- R295: a harness with Currier tables, whose receive area serves one participant or more, has a release counter
  let s := if h.cur.pmax = 0 then s else s.setLard p h.cur.release (List.replicate 8 0)
  let s := match h.voteBase with
    | none => s
    | some b => (List.range h.voteGroups).foldl (fun (s : State) g =>
        let r := b + 256 + 256 * g
        s.setLard p (leNat (s.lard p (r + 0x90) 8)) (List.replicate (8 * leNat (s.lard p (r + 8) 2)) 0)) s
  h.dispatch.foldl (fun s d => s.setLard p d.statsOff (List.replicate 64 0)) s

/-- A core at the start of an attempt: at its entry bundle, everything of an earlier attempt empty. -/
def CoreSt.startAttempt (c : CoreSt) (entry mono : Nat) : CoreSt :=
  { c with
    pc := entry, slotPos := 0, gate := false, loops := [], slots := [], phase := 0, arrivals := [], atBarrier := none, ended := false,
    issues := 0, scalars := 0, need := {}, loads := [], segNs := mono
    arr0 := { c.arr0 with waiting := none, running := [], shadow := none }
    arr1 := { c.arr1 with waiting := none, running := [], shadow := none } }

/-- R313: the payload of an OPEN entry. -/
def State.openPayload (s : State) (p : Nat) : Bytes :=
  let x := s.part p
  padTo x.harness.digest 32 ++ leBytes 4 x.select ++ leBytes 2 x.variant ++ leBytes 2 0 ++
    leBytes 4 (s.reg RG.TACK_FW_ABI_SEL 0 0) ++ leBytes 4 0 ++ leBytes 8 s.tai ++ leBytes 8 0

/-- ATTEMPT_START. -/
def execAttemptStart (part t : Nat) (s : State) : Host.Outcome State Fault Refusal :=
  if part < 512 then
    let s := s.toTime t
    if !s.mayStart part || !s.boundaryServed part 64 then .next s
    else
      let x := s.part part
      let again := decide (0 < x.attempt) || decide (x.finalVote = voteSkip)
      let s := if again && decide (s.fld F.TACK_JRNL_CFG_AUTO_CKPT part 0 = 1) then s.autoRestore part else s
      let s := s.zeroRecords part
      let recs := s.qrecords part
      let s := s.modPart part (fun x =>
        let x := match x.replayOpen with
          | some e => { x with variant := fieldAt e.payload 0x24 2, select := fieldAt e.payload 0x20 4 }
          | none => x
        { x with
          running := true, closed := false, vote := voteCommit, qsnap := recs, efUsed := [], tapPartial := []
          failedArrays := [], failedRooms := [], jobs := [], jobsRun := []
          xg := { progress := s.mono }
          long := { x.long with attemptStart := s.jrnlWrite part } })
      let x := s.part part
      let s := s.setFld F.TACK_HARN_STAT_VARIANT part 0 x.variant
      let s := { s with hall := { s.hall with
          staged := s.hall.staged.filter (fun g => g.part != part)
          applied := s.hall.applied.filter (fun g => g.1 != part) } }
      let s := x.cores.foldl (fun s c =>
        (s.modCore c (fun y => y.startAttempt ((x.hdr c).entry.getD x.variant 0) s.mono)).skipNops part c) s
      .next (s.jrnl part 1 0 0 0 (s.openPayload part))
  else .refused .illFormed

/-! ### ATTEMPT_CLOSE (orders 1-3 of R309) -/

/-- R298: the square root of a pair's exact sum. (Log 31: DEDUCED.) -/
def pairNorm2 (hi lo : Word) : Word :=
  match (f32 hi).add (f32 lo) with
  | .fin neg m e => if neg ∧ m ≠ 0 then nan32 else if m = 0 then 0 else flSqrt m e
  | .inf neg => if neg then nan32 else 0x7F800000
  | .nan => nan32

/-- R298: the median of the most recent norms: NaN sorts last. (Log 31: DEDUCED.) -/
def normMedian (xs : List Word) : Word :=
  let le := fun (a b : Word) => (f32 b).isNan || (!(f32 a).isNan && !(f32 b).lt (f32 a))
  (sortBy le xs).getD ((xs.length - 1) / 2) 0

/-- R298: the norm check of one vote group whose record lies at larder offset `r`. -/
def State.checkGroup (s : State) (p r : Nat) : State :=
  let b := s.lard p r 256
  let base := fieldAt b 0x90 8
  let pair := (List.range (fieldAt b 8 2)).foldl (fun (a : Word × Word) i =>
    let q := s.lard p (base + 8 * i) 8
    let a := pairAdd a.1 a.2 (BitVec.ofNat 32 (fieldAt q 0 4))
    pairAdd a.1 a.2 (BitVec.ofNat 32 (fieldAt q 4 4))) (0, 0)
  let norm := pairNorm2 pair.1 pair.2
  let s := s.setLard p (r + 0xC) (leBytes 4 norm.toNat)
  let count := fieldAt b 6 1
  let n := min count (fieldAt b 4 1)
  let hist := (List.range n).map (fun i => (BitVec.ofNat 32 (fieldAt b (0x10 + 4 * ((fieldAt b 7 1 + 32 - i) % 32)) 4) : Word))
  let mult : Word := BitVec.ofNat 32 (fieldAt b 0 4)
  let absurd := !(f32 mult).isZero && decide (fieldAt b 5 1 ≤ count) && (f32 (fmul mult (normMedian hist))).lt (f32 norm)
  if !(f32 norm).isFin || absurd then s.raiseVote p voteSkip else s

/-- ATTEMPT_CLOSE: every core has reached END_STEP and every job is done. -/
def execAttemptClose (part t : Nat) (s : State) : Host.Outcome State Fault Refusal :=
  if part < 512 then
    let s := s.toTime t
    let x := s.part part
    if x.active && x.cores.all (fun c => (s.core c).ended) && x.jobs.isEmpty then
      let s := match x.harness.voteBase with
        | none => s
        | some b => (List.range x.harness.voteGroups).foldl (fun s g => s.checkGroup part (b + 256 + 256 * g)) s
      let s := if 1 < s.pcount part then s.postMessage part 0 (s.xgMessage part 1 0 0 0 []) else s
      .next ((s.modPart part (fun x => { x with closed := true, xg := { x.xg with progress := s.mono } })).pumpOutbox part)
    else .next s
  else .refused .illFormed

/-! ### The final vote (orders 4-7) -/

/-- R86: a quantiser state record after a final vote; `ef` says its tensor was quantised with EF on. -/
def qstateAfter (b : Bytes) (final : Nat) (ef : Bool) : Bytes :=
  let flags := fieldAt b 2 1
  let b := if final = voteCommit ∧ bitOf flags 1 then
      let head := (fieldAt b 1 1 + 1) % 16
      let cur := slice b 4 4
      let b := leBytes 1 (min (fieldAt b 0 1 + 1) 16) ++ leBytes 1 head ++ b.drop 2
      let b := b.take (8 + 4 * head) ++ cur ++ b.drop (12 + 4 * head)
      if ef then b.take 2 ++ leBytes 1 (withBits flags 0 0 (1 - flags % 2)) ++ b.drop 3 else b
    else b
  let flags := withBits (fieldAt b 2 1) 1 1 0
  let flags := if final = voteReplay then flags else withBits flags 2 2 0
  b.take 2 ++ leBytes 1 flags ++ slice b 3 1 ++ leBytes 4 0 ++ b.drop 8

/-- Order 5 of R309. A state record is rewritten whole, all 128 bytes, so the marks of its lines are cleared (R522).
(Log 149: DESIGN CHOICE.) -/
def State.applyVote (s : State) (p final : Nat) : State :=
  let x := s.part p
  let s := (List.range x.harness.qstateCount).foldl (fun s i =>
    let o := x.qstateOff i
    s.setLard p o (qstateAfter (s.lard p o 128) final (x.efUsed.contains i))) s
  let s := match x.harness.voteBase with
    | some b => if final = voteCommit then (List.range x.harness.voteGroups).foldl (fun (s : State) g =>
        let r := b + 256 + 256 * g
        let head := (leNat (s.lard p (r + 7) 1) + 1) % 32
        let s := s.setLard p (r + 0x10 + 4 * head) (s.lard p (r + 0xC) 4)
        s.setLard p (r + 6) (leBytes 1 (min (leNat (s.lard p (r + 6) 1) + 1) 32) ++ leBytes 1 head)) s else s
    | none => s
  let s := s.modPart p (fun x => x.setPairs (fun _ e =>
    { e with parity := if final = voteCommit ∧ e.written then !e.parity else e.parity, written := false }))
  s.putPairs p

/-- Sums of a tap role (and layer) and whether any tap has it (R267). -/
def State.tapSum (s : State) (p : Nat) (sel : TapEnt → Bool) : Nat :=
  let h := (s.part p).harness
  (List.range h.taps.length).foldl (fun d i =>
    if sel (h.taps.getD i {}) then (d + leNat (s.lard p (h.tapBase + 16 * i) 8)) % 2 ^ 64 else d) 0

/-- R267, R270: the layer digests, in layer order. -/
def State.layerDigests (s : State) (p : Nat) : List Nat :=
  (List.range (s.part p).harness.layers).map (fun n => s.tapSum p (fun t => t.role == 2 && t.layer == n))

/-- R267-R269: the audit record of an attempt. -/
def State.auditRecord (s : State) (p step attempt variant final : Nat) : Bytes :=
  let x := s.part p
  let h := x.harness
  let wd := s.tapSum p (fun t => t.role == 0)
  let idg := s.tapSum p (fun t => t.role == 1)
  let lines := fun i => leNat (s.lard p (h.tapBase + 16 * i + 8) 8)
  let is_ := List.range h.taps.length
  let flags := b2n (is_.any (fun i => decide (lines i < (h.taps.getD i {}).len / 64))) +
    2 * b2n (is_.any (fun i => decide ((h.taps.getD i {}).len / 64 < lines i))) + 4 * b2n (!x.tapPartial.isEmpty) + 8 * b2n h.taps.isEmpty
  leBytes 8 step ++ leBytes 8 wd ++ leBytes 8 idg ++ leBytes 1 final ++ leBytes 1 attempt ++ leBytes 2 flags ++ leBytes 2 variant ++
    leBytes 2 0 ++ sha256 (padTo h.digest 32 ++ leBytes 8 wd ++ leBytes 8 idg)

/-- R317: a GAP entry names the steps whose entries were lost. -/
def State.jrnlGap (s : State) (p : Nat) : State :=
  match (s.part p).long.lost with
  | [] => s
  | a :: rest =>
    let s := s.modPart p (fun x => { x with long := { x.long with lost := [] } })
    s.jrnl p 10 (rest.foldl min a) (rest.foldl max a) 0 []

/-- R332: the differences of a replayed attempt against its CLOSE entry. -/
def closeDiff (e : JEnt) (audit : Bytes) (layers : List Nat) (final : Nat) : Option JDiff :=
  let lay := (List.range layers.length).find? (fun n => fieldAt e.payload (64 + 8 * n) 8 != layers.getD n 0)
  match lay with
  | some n => some ⟨1, e.attempt, n, e.step, fieldAt e.payload (64 + 8 * n) 8, layers.getD n 0⟩
  | none =>
    if slice e.payload 0x20 32 ≠ slice audit 0x20 32 then some ⟨2, e.attempt, 0, e.step, fieldAt e.payload 0x20 8, fieldAt audit 0x20 8⟩
    else if e.key1 ≠ final then some ⟨3, e.attempt, 0, e.step, e.key1, final⟩
    else none

/-- The CLOSE entry of the attempt a replay runs. -/
def PartSt.replayClose (x : PartSt) : Option JEnt :=
  match x.long.replay with
  | some r => ((r.ents.drop 1).takeWhile (fun e => e.kind != 1)).find? (fun e => e.kind == 7)
  | none => none

/-- R331: the PUSH and REMOTE entries up to the next OPEN are applied, and the replay goes on to that OPEN.
(Log 44: DEDUCED.) -/
def State.replayAdvance (s : State) (p : Nat) (consumed : Bool) : State :=
  match (s.part p).long.replay with
  | none => s
  | some r =>
    let here := (r.ents.drop 1).takeWhile (fun e => e.kind != 1)
    let s := here.foldl (fun s e => s.applyArrival p e) s
    s.modPart p (fun x => { x with long := { x.long with replay := x.long.replay.map (fun r =>
      { r with ents := (r.ents.drop 1).dropWhile (fun e => e.kind != 1), done := r.done + b2n consumed }) } })

/-- The request whose steps run: RUN_STEPS, or REPLAY. -/
def PartSt.stepReq (x : PartSt) : Option Nat :=
  match x.long.replay with
  | some g => some g.key
  | none => x.run

/-- The request has consumed a step number (R396); its audit digest is that of R270. -/
def State.stepConsumed (s : State) (p : Nat) : State :=
  match (s.part p).stepReq with
  | none => s
  | some k =>
    match s.req k with
    | none => s
    | some r => s.setReq k (some { r with steps := r.steps + 1, audit := (s.part p).audit })

/-- The run request ends when it has consumed its steps (R394). -/
def State.runEnds (s : State) (p : Nat) : State :=
  match (s.part p).run with
  | none => s
  | some k =>
    match s.req k with
    | none => s
    | some r => if r.arg0 ≤ r.steps then (s.endReq k St.OK).modPart p (fun x => { x with run := none }) else s

/-! ### Sparing (order 8: R16, R20, R24, R132) -/

/-- R132: the failures of a partition's arrays grow one boundary older, at a REPLAY too: R133 calls that boundary a step
boundary for R16 and R24, and R132 counts a tile's step boundaries without an exception. (Log 150: DEDUCED.) -/
def State.ageStrikes (s : State) (p : Nat) : State :=
  let mine := (s.part p).tiles.map s.physOfSlice
  let aged := s.strikes.map (fun e =>
    if mine.contains (e.1 / 8) then (e.1, (e.2.map Nat.succ).filter (fun a => decide (a < 1000))) else e)
  { s with strikes := aged.filter (fun e => e.2 != []) }

/-- R20: every partition that includes a room stops. -/
def State.stopRoom (s : State) (lr status : Nat) : State :=
  s.parts.foldl (fun s e => if e.2.tiles.any (fun t => decide (t / 32 = lr)) then s.stopPart e.1 status else s) s

/-- Spare tiles of a logical room that the migrations of any partition are about to put into use. -/
def State.promised (s : State) (lr : Nat) : List Nat :=
  s.parts.flatMap (fun e => (e.2.subs.filter (fun q => q.1 == lr)).map (fun q => q.2.2))

/-- R16, R20, R24, R507: one tile of the partition that falls due at its step boundary: one not yet retired is retired
(R523), and its logical tile given to a spare by the migration to come, or its room marked SHORT. (Log 48: DEDUCED.) -/
def State.spareOne (s : State) (p tile cause : Nat) : State :=
  let pr := tile / 36
  let lr := s.logRoom pr
  let lt := s.logTile lr (tile % 36)
  let s := { s with condemned := tdel s.condemned tile }
  let s := if s.tileRetired pr (tile % 36) then s else s.retireInService p pr (tile % 36) cause
  if s.hole pr ∨ 0 < tget s.roomRetire pr 0 ∨ s.fld F.GLB_ROOM_MAP_SHORT 0 lr = 1 ∨
      s.parts.any (fun e => e.2.subs.any (fun q => q.1 == lr && q.2.1 == lt)) then s
  else
    match s.spareTiles lr (s.promised lr) with
    | q :: _ => (s.modPart p (fun x => { x with subs := x.subs ++ [(lr, lt, q)] })).closeHeaders pr
    | [] => (s.setFld F.GLB_ROOM_MAP_SHORT 0 lr 1).stopRoom lr St.ROOM_SHORT

/-- Tiles of a partition that fall due at its step boundary, by logical room and tile. -/
def State.dueTiles (s : State) (p : Nat) : List (Nat × Nat) :=
  let lt := fun (t : Nat) => s.logTile (s.logRoom (t / 36)) (t % 36)
  let order := fun (t : Nat) => 32 * s.logRoom (t / 36) + lt t
  sortBy (fun a b => decide (order a.1 ≤ order b.1))
    (s.condemned.filter (fun e => decide (lt e.1 < 32) && (s.part p).tiles.contains (order e.1)))

/-! ### Migration (R235, R236, R406) -/

/-- R225, R235 order 4: the migration copies of a partition enter the hallway with the new GEN, one flit for the contents of
each slice that changes its tile, from the place of the old slice to that of the new. A slice in a room that is a hole sends
and takes none. -/
def State.sendMigration (s : State) (p : Nat) : State :=
  let x := s.part p
  let subs := x.subs.map (fun q => (32 * q.1 + q.2.1, 32 * q.1 + q.2.1))
  let moves := match x.moveTo with
    | some new => List.zip x.tiles new
    | none => []
  (subs ++ moves).foldl (fun s q =>
    if s.hole (s.physRoom (q.1 / 32)) || s.hole (s.physRoom (q.2 / 32)) then s
    else s.addFlit (s.mgmtFlit p (12288 + q.1) (12288 + q.2))) s

/-- R235 orders 3 and 4: the generation advances, staging is discarded and the migration copies start. -/
def State.advanceGen (s : State) (p : Nat) : State :=
  let g := (s.fld F.HALL_GEN_GEN p 0 + 1) % 65536
  let s := (s.setFld F.HALL_GEN_GEN p 0 g).setFld F.HALL_MIGR_SINCE_QUIESCE p 0 (g % 32768)
  let s := { s with hall := { s.hall with staged := s.hall.staged.filter (fun x => x.part != p) } }
  (s.modPart p (fun x => { x with migrating := 2 })).sendMigration p

/-- A migration begins: it quiesces first when the generation is about to pass a multiple of 32,768. -/
def State.startMigration (s : State) (p : Nat) : State :=
  if (s.fld F.HALL_GEN_GEN p 0 + 1) % 32768 = 0 then s.modPart p (fun x => { x with migrating := 1 })
  else s.advanceGen p

/-- Flits of the partition in flight: injected and not yet accepted or dropped. -/
def State.inFlight (s : State) (p : Nat) : Nat := (s.hall.flits.filter (fun f => f.part == p && f.inj && !f.queued)).length

/-- QUIESCE_DONE (R236). -/
def execQuiesceDone (part : Nat) (s : State) : Host.Outcome State Fault Refusal :=
  if part < 512 then
    if (s.part part).migrating = 1 ∧ s.inFlight part = 0 then
      .next ((s.setFld F.HALL_MIGR_QUIESCES part 0 (satN 16 (s.fld F.HALL_MIGR_QUIESCES part 0 + 1))).advanceGen part)
    else .next s
  else .refused .illFormed

/-- Does any unit of a global logical slice (its pantries or its larder slice) hold a mark? -/
def State.sliceMarked (s : State) (sl : Nat) : Bool :=
  s.pantryMark.any (fun u => u / (4 * 2 ^ 16) == sl) || s.larderMark.any (fun u => u / (sliceBytes / 64) == sl)

/-- The contents of slice `a` moved to slice `b`; `a` is left zero (R405, R406). -/
def State.moveSlice (s : State) (a b : Nat) : State :=
  let shift := fun {α : Type} (t : Table α) (n : Nat) =>
    let src := trange t (a * n) n
    let rest := tclear (tclear t (a * n) n) (b * n) n
    src.foldl (fun t e => tins t (e.1 - a * n + b * n) e.2) rest
  let marks := fun (l : List Nat) (n : Nat) =>
    let src := l.filter (fun u => u / n == a)
    (src.map (fun u => u - a * n + b * n)).foldl setAdd (l.filter (fun u => u / n != a && u / n != b))
  { s with
    pantry := shift s.pantry (4 * 2 ^ 21), larder := shift s.larder sliceBytes
    pantryMark := marks s.pantryMark (4 * 2 ^ 16), larderMark := marks s.larderMark (sliceBytes / 64)
    cache := shift s.cache 8192, cores := shift s.cores 4 }

/-- What waits for a migration: the step counts for its request (R17 leaves it uncounted when the partition stops), the
automatic checkpoint (R325), the hold of an FLR (R388), the end of the request, then order 9 of R309, the variant of the
next step (R260), then the journal's space (R316). (Log 46, 47: DEDUCED.) -/
def State.boundaryTail (s : State) (p : Nat) : State :=
  match (s.part p).tail with
  | none => s
  | some final =>
    let s := s.modPart p (fun x => { x with tail := none })
    if (s.part p).stopped.isSome then s
    else
      let s := if final = voteReplay then s else s.stepConsumed p
      let auto := decide (s.fld F.TACK_JRNL_CFG_AUTO_CKPT p 0 = 1) && decide (final = voteCommit)
      let s := if auto then
          match s.writeCheckpoint p none (s.part p).long.ranges with
          | .ok r => r.1
          | .error e => if e.2 = St.CKPT_DATA_UE then e.1.stopPart p e.2 else e.1
        else s
      let s := if (s.part p).flrHold then s.holdFlr p else s
      let s := s.runEnds p
      let s := if (s.part p).run.isSome ∧ final ≠ voteReplay then
          match s.selectVariant p with
          | (s, true) => s
          | (s, false) => s.stopPart p St.NO_VARIANT
        else s
      s.jrnlCheck p

/-- TACK_PART_TILES follows the set a partition holds (R419). -/
def State.setTileRegs (s : State) (p : Nat) (tiles : List Nat) : State :=
  (List.range 96).foldl (fun (s : State) i =>
    s.setReg RG.TACK_PART_TILES p i ((tiles.filter (fun t => t / 32 == i)).foldl (fun w t => w + 2 ^ (t % 32)) 0)) s

/-- MIGRATION_DONE (R17, R235, R406): the copies have run and the maps are updated; contents that cannot be read, because
they are marked or because a read of the migration itself met an uncorrectable error (`moved.2`), stop the partition with
TILE_LOST. -/
def execMigrationDone (moved : Nat × Bool) (s : State) : Host.Outcome State Fault Refusal :=
  let part := moved.1
  if part < 512 then
    let x := s.part part
    if x.migrating ≠ 2 ∨ !s.mgmtDone part ∨ !s.boundaryServed part 64 then .next s
    else
      let lost := moved.2 || (x.subs.map (fun (q : Nat × Nat × Nat) => 32 * q.1 + q.2.1) ++ (if x.moveTo.isSome then x.tiles else [])).any s.sliceMarked
      let s := x.subs.foldl (fun s q => s.mapTile q.1 q.2.1 q.2.2) s
      let s := match x.moveTo with
        | none => s
        | some new =>
          let s := (List.zip x.tiles new).foldl (fun (s : State) (ab : Nat × Nat) => s.moveSlice ab.1 ab.2) s
          (s.modPart part (fun x => { x with tiles := new, moveTo := none })).setTileRegs part new
      let s := s.modPart part (fun x => { x with migrating := 0, subs := [] })
      -- R17: the headers of the retired tiles open
      let s := x.subs.foldl (fun s q => s.closeHeaders (s.physRoom q.1)) s
      let s := if lost then s.stopPart part St.TILE_LOST else s
      .next (s.boundaryTail part)
  else .refused .illFormed

/-! ### FINAL_VOTE -/

/-- R337: an open snapshot of a harness without an update phase holds the boundary. -/
def PartSt.boundaryHeld (x : PartSt) : Bool := x.long.snap.isSome && x.harness.phases.all (fun ph => ph.kind != 6)

/-- Order 6 of R309: step number and attempt, with the counts of R311. -/
def State.advanceStep (s : State) (p final : Nat) : State :=
  let s := if final = voteReplay then s.setFld F.BRDL_XG_COUNTS_REPLAYS p 0 (satN 16 (s.fld F.BRDL_XG_COUNTS_REPLAYS p 0 + 1))
    else if final = voteSkip then s.setFld F.BRDL_XG_COUNTS_SKIPS p 0 (satN 16 (s.fld F.BRDL_XG_COUNTS_SKIPS p 0 + 1)) else s
  let x := s.part p
  let s := if final = voteCommit then s
    else s.post Ev.STEP_VOTE 0x25 p (some p) (leBytes 8 x.step ++ leBytes 1 x.attempt ++ leBytes 1 final)
  s.modPart p (fun x =>
    if final = voteReplay then { x with attempt := x.attempt + 1, finalVote := final }
    else { x with step := x.step + 1, attempt := 0, finalVote := final })

/-- R430, R507: rooms that went dark in service are recorded at the boundary; 8 added to the cause marks them recorded.
(Log 106: DEDUCED.) -/
def State.recordDark (s : State) : State :=
  s.roomRetire.foldl (fun (s : State) e =>
    if e.2 = 4 then { s.recordEvent e.1 63 4 with roomRetire := tput s.roomRetire e.1 12 0 } else s) s

/-- Orders 8 and 9. (Log 48: DEDUCED.) -/
def State.boundarySparing (s : State) (p final : Nat) : State :=
  let s := s.recordDark.ageStrikes p
  let s := (s.dueTiles p).foldl (fun s e => s.spareOne p e.1 e.2) s
  let s := s.modPart p (fun x => { x with tail := some final })
  let x := s.part p
  if (x.subs ≠ [] ∨ x.moveTo.isSome) then s.startMigration p else s.boundaryTail p

/-- FINAL_VOTE (orders 4-9 of R309). (Log 47: DEDUCED.) -/
def execFinalVote (part t : Nat) (s : State) : Host.Outcome State Fault Refusal :=
  if part < 512 then
    let s := (s.toTime t).pumpOutbox part
    let x := s.part part
    if !x.running || !x.closed || x.stopped.isSome || x.boundaryHeld ||
        (decide (1 < s.pcount part) && !x.replaying && !s.allClosed part) || (s.replayMessage part).isSome ||
        !s.boundaryServed part (128 + 8 * x.harness.layers) then .next s
    else
      let top := max x.vote x.xg.maxVote
      let own := if top = voteReplay ∧ 2 ≤ x.attempt then voteSkip else top
      let final := match x.replayClose with
        | some e => e.key1
        | none => own
      -- R332: a CLOSE of another ordinal that the replayed journal lacks
      let s := if (List.range (s.pcount part)).any (fun i => s.noEntry part i 0xFFFFFFFF) then s.diverge part ⟨4, x.attempt, 0, x.step, 0, 0⟩
        else s
      if !(s.part part).running then .next s else
      let audit := s.auditRecord part x.step x.attempt x.variant own
      let layers := s.layerDigests part
      let s := (s.applyVote part final).advanceStep part final
      let s := match x.replayClose with
        | some e => match closeDiff e audit layers own with
          | some d => s.diverge part d
          | none => s
        | none => s
      -- the CLOSE entry names the attempt that has just closed
      let keep := s.part part
      let s := s.modPart part (fun y => { y with step := x.step, attempt := x.attempt })
      let s := s.jrnl part 7 x.vote final 0 (audit ++ layers.flatMap (leBytes 8))
      let s := s.modPart part (fun y => { y with
        step := keep.step, attempt := keep.attempt, running := false, closed := false
        long := { y.long with largest := max y.long.largest (s.jrnlWrite part - y.long.attemptStart) } })
      let s := s.forCores part CoreSt.endAttempt
      let s := s.jrnlGap part
      let s := if final = voteReplay then s else s.modPart part (fun x => { x with audit := slice audit 0x20 32 })
      let s := s.replayAdvance part (final != voteReplay)
      .next (s.boundarySparing part final)
  else .refused .illFormed

end Sys2Proof.Machine
end

