-- ==== Sys2Proof/Machine/Currier.lean ====
section
/-! DEFINITION. The Curriers: their jobs (R278-R287), gradient checks (R296), chunk packing and unpacking (R295, R300-R302,
R307). -/

namespace Sys2Proof.Machine
open Sys2Proof

/-! ### Room sets, starting and finishing (R279-R282) -/

/-- R279: the partition's rooms: logical rooms whose tiles all belong to it, ascending. -/
def PartSt.rooms (x : PartSt) : List Nat :=
  (List.range 96).filter (fun lr => (List.range 32).all (fun t => x.tiles.contains (32 * lr + t)))

/-- Logical rooms of a job's room set. -/
def PartSt.roomSet (x : PartSt) (j : CurJob) : List Nat := (x.rooms.drop j.roomFirst).take j.roomCount

/-- Cores of the room set. -/
def PartSt.heldCores (x : PartSt) (j : CurJob) : List Nat :=
  (x.roomSet j).flatMap (fun lr => (List.range 128).map (fun i => 128 * lr + i))

/-- R282: a job is the oldest of the waiting jobs and every Currier of its room set is free; one of kind 1-4 also finds
the arrays it takes idle. -/
def State.jobStarts (s : State) (p i kind : Nat) : Bool :=
  let x := s.part p
  let j := x.job i
  let busy := (x.jobs.filter (fun q => q.started)).flatMap (fun q => x.roomSet (x.job q.job))
  x.active && decide (j.kind = kind) && ((x.jobs.find? (fun q => !q.started)).map (fun q => q.job)) == some i &&
    (x.roomSet j).all (fun lr => !busy.contains lr) &&
    (decide (4 < kind) || (x.heldCores j).all (fun c => (s.core c).arraysIdle))

/-- Changes the run of job `i`. -/
def PartSt.modJob (x : PartSt) (i : Nat) (f : JobRun → JobRun) : PartSt :=
  { x with jobs := x.jobs.map (fun q => if q.job = i then f q else q) }

/-! ### Operands -/

/-- Reads one element of a narrow tensor anywhere in the partition's storage; the block with any byte in a marked unit is
a POISON block (R521). The last answer says whether the element is poisoned. -/
def State.narrowElem (s : State) (p : Nat) (d : NDesc) (row col : Nat) : Except (Nat × Nat) (State × Num × Bool) :=
  let kb := col / 32
  let i := row * d.kb + kb
  let e := nEBytes d.fmt
  let planes := [(d.eBase + i * e, e), (d.sBase + i, 1)] ++ (if d.riv then [(d.riBase + i, 1), (d.rvBase + 2 * i, 2)] else [])
  match foldE (fun (a : State × List Bytes × Bool) q =>
    match a.1.devRead p .agent q.1 q.2 with
    | .error x => .error x
    | .ok (s, bs, m) => .ok (s, a.2.1 ++ [bs], a.2.2 || m)) (s, [], false) planes with
  | .error x => .error x
  | .ok (s, bs, m) =>
    let b : Blk := ⟨if m then 255 else leNat (bs.getD 1 []), unpackCodes d.fmt (bs.getD 0 []), leNat (bs.getD 2 []), leNat (bs.getD 3 [])⟩
    let k := (d.kb - 1) * 32 + d.ktail
    let s := if m then s.raiseVote p voteReplay else s
    .ok (s, b.value d.fmt (nValid k kb) (col % 32), (b.elem d.fmt (nValid k kb) (col % 32)).isNone)

/-- Reads one element of a wide tensor; a marked one is a canonical NaN (R521), a PAIR is hi + lo (R59). -/
def State.wideElem (s : State) (p : Nat) (d : WDesc) (row col : Nat) : Except (Nat × Nat) (State × Num × Bool) :=
  let w := wideBytes d.fmt
  let o := (row * d.cols + col) * w
  match s.devRead p .agent (d.base + o) w with
  | .error x => .error x
  | .ok (s, bs, m) =>
    let hi := decodeF (wideFmt d.fmt) (leNat bs)
    let lo := if d.fmt = 3 then s.devRead p .agent (d.loBase + o) 4 else .ok (s, [0, 0, 0, 0], false)
    match lo with
    | .error x => .error x
    | .ok (s, ls, ml) =>
      if m || ml then .ok (s.raiseVote p voteReplay, .nan, false)
      else .ok (s, if d.fmt = 3 then hi.add (decodeF fmt32 (leNat ls)) else hi, false)

/-- Logical element `i`, row-major, of a tensor. -/
def State.elem (s : State) (p : Nat) (d : Desc) (i : Nat) : Except (Nat × Nat) (State × Num × Bool) :=
  match d with
  | .narrow n => s.narrowElem p n (i / d.k) (i % d.k)
  | .wide w => s.wideElem p w (i / d.k) (i % d.k)

/-- Logical elements `i` to `i + n - 1`. -/
def State.elems (s : State) (p : Nat) (d : Desc) (i n : Nat) : Except (Nat × Nat) (State × List (Num × Bool)) :=
  foldE (fun (a : State × List (Num × Bool)) k =>
    match a.1.elem p d (i + k) with
    | .error x => .error x
    | .ok (s, v) => .ok (s, a.2 ++ [v])) (s, []) (List.range n)

/-- A matrix by rows. -/
abbrev Mat := List (List Num)

/-- A whole tensor as a matrix. -/
def State.matrix (s : State) (p : Nat) (d : Desc) : Except (Nat × Nat) (State × Mat) :=
  match s.elems p d 0 d.elems with
  | .error x => .error x
  | .ok (s, vs) => .ok (s, (List.range d.rows).map (fun r => ((vs.drop (r * d.k)).take d.k).map Prod.fst))

/-- Planned writes of logical element `i` of a wide tensor, rounded into its format. A PAIR output holds hi, the value rounded
in the mode, and lo, the rest rounded by RNE, as pair_norm leaves them (R60); R286 and R287 do not say how a mode other than
RNE applies to a PAIR. (Log 155: DESIGN CHOICE.) -/
def elemWrites (seed step rnd : Nat) (d : WDesc) (i : Nat) (x : Num) : List (Nat × Bytes) :=
  let w := wideBytes d.fmt
  if d.fmt = 3 then
    let hi := encodeF fmt32 (rndOf rnd) (srBits seed step d.tid i) x
    let lo := match decodeF fmt32 hi with
      | .fin n m e => encodeF fmt32 .rne 0 (x.add (.fin (!n) m e))
      | _ => 0
    let v := pairNorm (BitVec.ofNat 32 hi) (BitVec.ofNat 32 lo)
    [(d.base + 4 * i, leBytes 4 v.1.toNat), (d.loBase + 4 * i, leBytes 4 v.2.toNat)]
  else [(d.base + w * i, leBytes w (encodeF (wideFmt d.fmt) (rndOf rnd) (srBits seed step d.tid i) x))]

/-- Writes elements from logical index `i` of a wide tensor. -/
def State.putElems (s : State) (p : Nat) (d : WDesc) (rnd i : Nat) (xs : List Num) : Except (Nat × Nat) State :=
  let seed := (s.part p).harness.jobSeed
  let step := (s.part p).step
  foldE (fun (s : State) w => s.devWrite p .agent w.1 w.2 false) s
    (joinWrites ((List.range xs.length).flatMap (fun k => elemWrites seed step rnd d (i + k) (xs.getD k .nan))))

/-! ### Exact arithmetic of the pseudocode (R284, R286, R287) -/

def zeroN : Num := .fin false 0 0
/-- The BF16 value RNE gives an exact value. -/
def bfN (x : Num) : Num := bfWiden (bf16Of x)
/-- The FP32 value RNE gives an exact value. -/
def flN (x : Num) : Num := f32 (fl x)

/-- BF16 of the rational num/den * 2^e, den > 0. -/
def bfRat (neg : Bool) (num den : Nat) (e : Int) : Nat :=
  if num = 0 then (if neg then 0x8000 else 0)
  else
    let k := 80 + bitLen den
    let m := num * 2 ^ k / den
    encodeFin fmtBF .rne 0 neg (2 * m + b2n (decide (m * den ≠ num * 2 ^ k))) (e - k - 1)

/-- bf16(x / y). -/
def bfDiv (x y : Num) : Num :=
  match x, y with
  | .nan, _ => .nan
  | _, .nan => .nan
  | .inf _, .inf _ => .nan
  | .inf a, .fin b _ _ => .inf (a != b)
  | .fin a _ _, .inf b => .fin (a != b) 0 0
  | .fin a m e, .fin b n f =>
    if n = 0 then (if m = 0 then .nan else .inf (a != b)) else bfWiden (bfRat (a != b) m n (e - f))

/-- fl(sqrt x). -/
def flSqrtN : Num → Num
  | .fin neg m e => if m = 0 then .fin false 0 0 else if neg then .nan else f32 (flSqrt m e)
  | .inf neg => if neg then .nan else .inf false
  | .nan => .nan

/-- Exact sum of squares of a matrix. -/
def Mat.sumSq (a : Mat) : Num := a.foldl (fun s r => r.foldl (fun s x => s.add (x.mul x)) s) zeroN

/-- Transposition of a matrix of `cols` columns. -/
def Mat.transpose (a : Mat) (cols : Nat) : Mat := (List.range cols).map (fun j => a.map (fun r => r.getD j zeroN))

/-- One cell of R284's product: a MAC with PACC from +0, its output fl(HI + LO). -/
def mmCell (xs ys : List Num) : Num :=
  let hl := (List.zip xs ys).foldl (fun (a : Word × Word) q => pairAdd a.1 a.2 (fl (q.1.mul q.2))) (0, 0)
  f32 (fl (pairVal hl.1 hl.2))

/-- R284: mm(x, y), with y given by columns. -/
def mmT (x yT : Mat) : Mat := x.map (fun r => yT.map (fun c => mmCell r c))

/-- R284: mm(x, y) with y of `cols` columns. -/
def mm (x y : Mat) (cols : Nat) : Mat := mmT x (y.transpose cols)

/-- Element by element over two matrices. -/
def Mat.zip (f : Num → Num → Num) (a b : Mat) : Mat := List.zipWith (List.zipWith f) a b
/-- Element by element. -/
def Mat.each (f : Num → Num) (a : Mat) : Mat := a.map (fun r => r.map f)
/-- The exact combination c * I at size n. -/
def Mat.diag (c : Num) (n : Nat) : Mat := (List.range n).map (fun i => (List.range n).map (fun j => if i = j then c else zeroN))

/-- R286: the procedure on a BF16 matrix of `m` rows and `n` columns with m ≤ n, before the final rounding. -/
def ortho (g : Mat) (n : Nat) (set : CoefSet) : Mat :=
  let s := (flSqrtN g.sumSq).add (f32 set.eps)
  let x0 := if s.isZero then g.each (fun _ => zeroN) else g.each (fun v => bfDiv v s)
  let x := (List.range set.iters).foldl (fun x k =>
    let q := set.coef.getD k (0, 0, 0)
    let a := (mmT x x).each bfN
    let b := Mat.zip (fun u v => bfN (((f32 q.2.1).mul u).add ((f32 q.2.2).mul v))) a (mm a a a.length)
    Mat.zip (fun u v => bfN (((f32 q.1).mul u).add v)) x (mm b x n)) x0
  x.each (fun v => (f32 set.outScale).mul v)

/-- R287: kron_stats, with the product already transposed as its side asks. -/
def kronStats (p f : Mat) (set : CoefSet) : Mat :=
  let beta := f32 set.beta
  let co := (f32 one32).add beta.negate
  Mat.zip (fun a b => flN ((beta.mul a).add (co.mul b))) f p

/-- fl of the fourth root of num/den * 2^e, a positive rational. -/
def flRoot4 (num den : Nat) (e : Int) : Word :=
  let r := (e % 4).toNat
  let k := 160 + bitLen den
  let top := num * 2 ^ (r + 4 * k)
  let q := isqrt (isqrt (top / den))
  flSticky false q ((e - r) / 4 - k) (decide (q * q * (q * q) * den ≠ top))

/-- fl((0.4 t)^(-1/4)) of a non-zero t. -/
def rootScale (t : Num) : Num :=
  match t with
  | .fin neg m e => if neg then .nan else f32 (flRoot4 5 (2 * m) (-e))
  | .inf _ => zeroN
  | .nan => .nan

/-- R287: kron_root of an m x m matrix, before the final rounding. -/
def kronRoot (f : Mat) (m : Nat) (set : CoefSet) : Mat :=
  let s := flSqrtN f.sumSq
  let es := flN ((f32 set.eps).mul s)
  let a := Mat.zip (fun u v => flN (u.add v)) f (Mat.diag es m)
  let t := flSqrtN a.sumSq
  if t.isZero then a.each (fun _ => zeroN)
  else
    let z := rootScale t
    let z4 := (z.mul z).mul (z.mul z)
    let start := (Mat.diag (bfN z) m, a.each (fun v => bfN (z4.mul v)))
    let q1 : Num := .fin false 5 (-2)
    let q2 : Num := .fin true 1 (-2)
    let r := (List.range set.iters).foldl (fun (xm : Mat × Mat) _ =>
      let u := Mat.zip (fun d v => bfN (d.add (q2.mul v))) (Mat.diag q1 m) xm.2
      let x := (mm xm.1 u m).each bfN
      let v := (mm u u m).each bfN
      let v := (mm v v m).each bfN
      (x, (mm v xm.2 m).each bfN)) start
    r.1.each (fun v => (f32 set.outScale).mul v)

/-- R287: kron_apply, before the final rounding. -/
def kronApply (l g r : Mat) (n : Nat) (set : CoefSet) : Mat :=
  (mm ((mm l g n).each bfN) r n).each (fun v => (f32 set.outScale).mul v)

/-! ### Jobs of kinds 1-4 -/

/-- A checked descriptor a job names. -/
def State.jobDesc (s : State) (p i : Nat) : Except (Nat × Nat) Desc :=
  match s.desc p i with
  | some d => .ok d
  | none => .error (St.FORMAT_FAULT, 0)

/-- The wide output descriptor of a job, of the shape given. (Log 26: DEDUCED.) -/
def State.jobOut (s : State) (p i rows cols : Nat) : Except (Nat × Nat) WDesc :=
  match s.desc p i with
  | some (.wide d) => if d.rows = rows ∧ d.cols = cols then .ok d else .error (St.SHAPE_FAULT, 0)
  | _ => .error (St.FORMAT_FAULT, 0)

/-- A matrix a job names. -/
def State.jobMat (s : State) (p i : Nat) : Except (Nat × Nat) (State × Desc × Mat) :=
  match s.jobDesc p i with
  | .error e => .error e
  | .ok d => match s.matrix p d with
    | .error e => .error e
    | .ok (s, m) => .ok (s, d, m)

/-- R287: the matrix a job starts from: the factor AUX of KRON_ROOT, the input IN of every other. -/
def CurJob.source (j : CurJob) : Nat := if j.kind = 3 then j.aux else j.inp

/-- The result of a job of kinds 1-4 with its output descriptor and rounding mode. (Log 49: DEDUCED.) -/
def State.matrixJob (s : State) (p : Nat) (j : CurJob) : Except (Nat × Nat) (State × WDesc × Nat × Mat) :=
  let set := (s.part p).harness.cur.sets.getD j.set {}
  match s.jobMat p j.source with
  | .error e => .error e
  | .ok (s, gd, g) =>
    let m := gd.rows
    let n := gd.k
    let bad : Except (Nat × Nat) (State × WDesc × Nat × Mat) := .error (St.SHAPE_FAULT, 0)
    if j.kind = 1 then
      match s.jobOut p j.out m n with
      | .error e => .error e
      | .ok o =>
        let r := if m ≤ n then ortho g n set else (ortho (g.transpose n) m set).transpose m
        .ok (s, o, j.mode % 4, r)
    else if j.kind = 2 then
      let right := bitOf j.mode 2
      let k := if right then n else m
      match s.jobMat p j.aux, s.jobOut p j.out k k with
      | .error e, _ => .error e
      | _, .error e => .error e
      | .ok (s, fd, f), .ok o =>
        if fd.rows = k ∧ fd.k = k then
          let gt := g.transpose n
          .ok (s, o, 0, kronStats (if right then mmT gt gt else mmT g g) f set)
        else bad
    else if j.kind = 3 then
      match s.jobOut p j.out m m with
      | .error e => .error e
      | .ok o => if n = m then .ok (s, o, 0, kronRoot g m set) else bad
    else
      match s.jobMat p j.aux with
      | .error e => .error e
      | .ok (s, ld, l) => match s.jobMat p j.aux2, s.jobOut p j.out m n with
        | .error e, _ => .error e
        | _, .error e => .error e
        | .ok (s, rd, r), .ok o =>
          if ld.rows = m ∧ ld.k = m ∧ rd.rows = n ∧ rd.k = n then .ok (s, o, j.mode % 4, kronApply l g r n set) else bad

/-- R285: scratch bytes of a job whose input has `m` rows and `n` columns; 0 for kinds 5-7. -/
def CurJob.scratchLen (j : CurJob) (m n : Nat) : Nat :=
  match j.kind with
  | 1 => 2 * m * n + 4 * min m n * min m n
  | 2 => if bitOf j.mode 2 then 4 * n * n else 4 * m * m
  | 3 => 8 * m * m
  | 4 => 2 * m * n
  | _ => 0

/-- Bytes `lo` to `lo + n - 1` of a memory become open values. (Log 23: DESIGN CHOICE.) -/
def State.openCells (s : State) (m : List Host.Cell) (lo n : Nat) : State × List Host.Cell :=
  let fresh := (List.range n).filterMap (fun i =>
    let b := Config.freeByte (s.free + i)
    if b = 0 then none else some (lo + i, b))
  ({ s with free := s.free + n }, m.filter (fun e => decide (e.1 < lo)) ++ fresh ++ m.filter (fun e => decide (lo + n ≤ e.1)))

/-- An array whose accumulators hold open values. -/
def ArrSt.opened (a : ArrSt) (k : Nat) : ArrSt :=
  let word := fun (i : Nat) => (BitVec.ofNat 32 (leNat ((List.range 4).map (fun b => Config.freeByte (k + 4 * i + b)))) : Word)
  let all := fun (o : Nat) => (List.range 4096).filterMap (fun i => if word (o + i) = 0 then none else some (i, word (o + i)))
  { a with hi := all 0, lo := all 4096 }

/-- What a finished job of kinds 1-4 leaves in the places it held: open values in the accumulators and PWIN windows of its
cores and in its scratch. (Log 23: DESIGN CHOICE.) -/
def State.leaveOpen (s : State) (p : Nat) (j : CurJob) (scratch : Nat) : State :=
  let s := ((s.part p).heldCores j).foldl (fun (s : State) c =>
    let k := s.free
    let s := { s with free := s.free + 65536 }
    let s := s.modCore c (fun x => { x with arr0 := x.arr0.opened k, arr1 := x.arr1.opened (k + 32768) })
    let r := s.openCells s.pantry (pantryKey c j.pwin) (2 ^ 19)
    { r.1 with pantry := r.2 }) s
  let r := s.freeBytes scratch
  r.1.setLard p j.scratch r.2

/-- Stitching failures the arrays report during a job, each acted on as R131 and R132 say. (Log 24: DEDUCED.) -/
def State.jobFails (s : State) (p : Nat) (j : CurJob) (fails : List StitchDet) : State :=
  (fails.filter (fun f => ((s.part p).heldCores j).contains f.core && decide (f.arr < 2))).foldl (fun (s : State) f =>
    s.stitchFail p f.core f.arr [{ pos := 0, kind := f.kind, row := f.row, col := f.col }]) s

/-- Shared form of the matrix jobs. (Log 24, 49: DEDUCED.) -/
def opMatrixJob (kind part job : Nat) (fails : List StitchDet) (s : State) : Host.Outcome State Fault Refusal :=
  if part < 512 then
    if s.jobStarts part job kind then
      let j := (s.part part).job job
      let s := s.modPart part (fun x => x.modJob job (fun q => { q with started := true }))
      match s.matrixJob part j with
      | .error e => .next (s.stopPart part e.1)
      | .ok (s1, d, rnd, r) =>
        let (m, n) := match s.desc part j.source with
          | some i => (i.rows, i.k)
          | none => (0, 0)
        let bytes := s1.freeBytes (d.rows * d.cols * wideBytes d.fmt)
        let done := if fails = [] then s1.putElems part d rnd 0 r.flatten else bytes.1.devWrite part .agent d.base bytes.2 false
        match done with
        | .error e => .next (s1.stopPart part e.1)
        | .ok s =>
          let s := (s.jobFails part j fails).leaveOpen part j (j.scratchLen m n)
          .next (s.modPart part (fun x => x.modJob job (fun q => { q with worked := true })))
    else .next s
  else .refused .illFormed

/-- R286: ORTHO. -/
def execCurrierOrtho (part job : Nat) (fails : List StitchDet) (s : State) := opMatrixJob 1 part job fails s
/-- R287: KRON_STATS. -/
def execKronStats (part job : Nat) (fails : List StitchDet) (s : State) := opMatrixJob 2 part job fails s
/-- R287: KRON_ROOT. -/
def execKronRoot (part job : Nat) (fails : List StitchDet) (s : State) := opMatrixJob 3 part job fails s
/-- R287: KRON_APPLY. -/
def execKronApply (part job : Nat) (fails : List StitchDet) (s : State) := opMatrixJob 4 part job fails s

/-! ### Gradient checks and packing (R296, R301) -/

/-- R296: pair_add of an exact square. (Log 25: DEDUCED.) -/
def pairAddSq (hl : Word × Word) (x : Num) : Word × Word :=
  let sq := x.mul x
  let s := fl ((f32 hl.1).add sq)
  if (f32 s).isFin then (s, fl ((f32 hl.2).add (((f32 hl.1).add sq).add (f32 s).negate))) else (s, 0)

/-- R296: one chunk of the check: the running pair and whether anything turns the vote to SKIP. -/
def gradCheck (hl : Word × Word) (xs : List (Num × Bool)) : (Word × Word) × Bool :=
  (xs.foldl (fun a x => pairAddSq a x.1) hl, xs.any (fun x => x.2 || !x.1.isFin))

/-- R296: the partial written into its slot. -/
def State.putPartial (s : State) (p : Nat) (j : CurJob) (hl : Word × Word) : State :=
  match (s.part p).harness.voteBase with
  | none => s
  | some b =>
    let base := leNat (s.lard p (b + 256 + 256 * j.vgroup + 0x90) 8)
    let v := pairNorm hl.1 hl.2
    s.setLard p (base + 8 * j.slot) (leBytes 4 v.1.toNat ++ leBytes 4 v.2.toNat)

/-- Elements of chunk `c` of a tensor with their poison. -/
def State.chunk (s : State) (p : Nat) (d : Desc) (c : Nat) : Except (Nat × Nat) (State × List (Num × Bool)) :=
  s.elems p d (chunkElems * c) (chunkValid d.elems c)

/-- R296: the chunks of a GRADCHECK of tensor `d`: the state after their check, and the pair of the square sum. -/
def State.gradChunks (s : State) (p : Nat) (j : CurJob) (d : Desc) : Except (Nat × Nat) (State × (Word × Word)) :=
  foldE (fun (a : State × (Word × Word)) c =>
    match a.1.chunk p d (j.chunkFirst + c) with
    | .error e => .error e
    | .ok (s, xs) =>
      let r := gradCheck a.2 xs
      .ok (if r.2 then s.raiseVote p voteSkip else s, r.1)) (s, (0, 0)) (List.range j.chunkCount)

/-- GRADCHECK. -/
def execGradcheck (part job : Nat) (s : State) : Host.Outcome State Fault Refusal :=
  if part < 512 then
    if s.jobStarts part job 5 then
      let j := (s.part part).job job
      let s := s.modPart part (fun x => x.modJob job (fun q => { q with started := true }))
      match s.jobDesc part j.inp with
      | .error e => .next (s.stopPart part e.1)
      | .ok d =>
        match s.gradChunks part j d with
        | .error e => .next (s.stopPart part e.1)
        | .ok (s, hl) => .next ((s.putPartial part j hl).modPart part (fun x => x.modJob job (fun q => { q with worked := true })))
    else .next s
  else .refused .illFormed

/-- R301: the residual of a value sent as `d`. (Log 28: DEDUCED.) -/
def packResidual (v d : Num) : Nat :=
  match v.add d.negate with
  | .nan => fmtBF.nanBits
  | .inf neg => if neg then 0xFF7F else 0x7F7F
  | x => match bf16Of x with
    | 0x7F80 => 0x7F7F
    | 0xFF80 => 0xFF7F
    | b => b

/-- R301: magnitudes by which a chunk is ranked; where the rule compares a NaN, its rank is open, the same in every run
(R271). (Log 27: DEDUCED.) -/
def rankMag (i : Nat) (v : Num) : Num := if v.isNan then (f32 (Config.nanRank i)).abs else v.abs

/-- R301: entries of a chunk in rank order, ties by ascending index. (Log 27: DEDUCED.) -/
def rankChunk (vs : List Num) : List Nat :=
  let ms := (List.range vs.length).map (fun i => (i, rankMag i (vs.getD i zeroN)))
  (sortBy (fun (a b : Nat × Num) => !a.2.lt b.2) ms).map Prod.fst

/-- R300: a TOPK encoding of entries (BF16 bits, index); the last group of an odd number of entries is half empty. -/
def topkBytes (es : List (Nat × Nat)) : Bytes :=
  let body := (List.range ((es.length + 1) / 2)).flatMap (fun j =>
    let a := es.getD (2 * j) (0, 0)
    let b := es.getD (2 * j + 1) (0, 0)
    leBytes 2 a.1 ++ leBytes 2 b.1 ++ leBytes 3 (a.2 + 4096 * b.2))
  padMul (leBytes 1 1 ++ leBytes 1 0 ++ leBytes 2 es.length ++ body) 4

/-- R301: the encoding of a chunk of values `vs` and the values it sends. (Log 29: DEDUCED.) -/
def packChunk (mode k : Nat) (vs : List Num) : Bytes × List Num :=
  if vs.all Num.isZero then (leBytes 4 0, vs.map (fun _ => zeroN))
  else if mode = 1 then
    let top := (rankChunk vs).take k
    (topkBytes (top.map (fun i => (bf16Of (vs.getD i zeroN), i))),
      (List.range vs.length).map (fun i => if top.contains i then bfN (vs.getD i zeroN) else zeroN))
  else if mode = 2 then
    let sum := vs.foldl (fun a v => a.add v.abs) zeroN
    let sc := match sum with
      | .fin _ m e => bfRat false m vs.length e
      | .inf _ => 0x7F80
      | .nan => fmtBF.nanBits
    let neg := fun (i : Nat) => (vs.getD i zeroN).lt zeroN
    (leBytes 1 2 ++ leBytes 3 0 ++ leBytes 2 sc ++
        (List.range 512).map (fun b => BitVec.ofNat 8 ((List.range 8).foldl (fun a i => a + b2n (neg (8 * b + i)) * 2 ^ i) 0)) ++ leBytes 2 0,
      (List.range vs.length).map (fun i => if neg i then (bfWiden sc).negate else bfWiden sc))
  else
    (leBytes 1 3 ++ leBytes 3 0 ++ (List.range chunkElems).flatMap (fun i => leBytes 2 (bf16Of (vs.getD i zeroN))), vs.map bfN)

/-- R301: chunk `c`: the state after its check and residual, and its encoding. -/
def State.packOne (s : State) (p : Nat) (j : CurJob) (g r : Desc) (o : WDesc) (hl : Word × Word) (c : Nat) :
    Except (Nat × Nat) (State × (Word × Word) × Bytes) :=
  match s.chunk p g c with
  | .error e => .error e
  | .ok (s, xs) => match s.chunk p r c with
    | .error e => .error e
    | .ok (s, rs) =>
      let chk := gradCheck hl xs
      let s := if chk.2 then s.raiseVote p voteSkip else s
      let vs := (List.zip xs rs).map (fun q => if q.1.1.isFin then flN (q.1.1.add q.2.1) else zeroN)
      let enc := packChunk (j.mode % 4) j.k vs
      match s.putElems p o 0 (chunkElems * c) ((List.zip vs enc.2).map (fun q => bfWiden (packResidual q.1 q.2))) with
      | .error e => .error e
      | .ok s => .ok (s, chk.1, enc.1)

/-- R302: message `m` of a PACK job, of the encodings of its chunks. -/
def State.packMessage (s : State) (p job m : Nat) (j : CurJob) (cs : List Bytes) : State :=
  s.postMessage p (job + 1) (s.xgMessage p 0 cs.length (j.msgFirst + m) (j.chunkFirst + m * j.cpm) cs.flatten)

/-- R301, R302: the tensors of a PACK job: the gradient, the residual it reads and the one it writes. -/
def State.packPlan (s : State) (p : Nat) (j : CurJob) : Except (Nat × Nat) (Desc × Desc × WDesc) :=
  match s.desc p j.inp, s.desc p j.aux, s.desc p j.aux2 with
  | some g, some r, some (.wide o) =>
    if r.fmt = 1 ∧ o.fmt = 1 then
      if r.rows = g.rows ∧ r.k = g.k ∧ o.rows = g.rows ∧ o.cols = g.k then .ok (g, r, o) else .error (St.SHAPE_FAULT, 0)
    else .error (St.FORMAT_FAULT, 0)
  | _, _, _ => .error (St.FORMAT_FAULT, 0)

/-- R301, R302: the chunks of a PACK job: the state with its messages queued, and the pair of the square sum. -/
def State.packChunks (s : State) (p job : Nat) (j : CurJob) (g r : Desc) (o : WDesc) : Except (Nat × Nat) (State × (Word × Word)) :=
  match foldE (fun (a : State × (Word × Word) × List Bytes) c =>
    match a.1.packOne p j g r o a.2.1 (j.chunkFirst + c) with
    | .error e => .error e
    | .ok (s, hl, b) =>
      let cs := a.2.2 ++ [b]
      if (c + 1) % j.cpm = 0 ∨ c + 1 = j.chunkCount then .ok (s.packMessage p job (c / j.cpm) j cs, hl, [])
      else .ok (s, hl, cs)) (s, (0, 0), []) (List.range j.chunkCount) with
  | .error (e : Nat × Nat) => .error e
  | .ok (s, hl, _) => .ok (s, hl)

/-- PACK. -/
def execPack (part job : Nat) (s : State) : Host.Outcome State Fault Refusal :=
  if part < 512 then
    if s.jobStarts part job 6 then
      let j := (s.part part).job job
      let s := s.modPart part (fun x => x.modJob job (fun q => { q with started := true }))
      match s.packPlan part j with
      | .error e => .next (s.stopPart part e.1)
      | .ok (g, r, o) =>
        match s.packChunks part job j g r o with
        | .error e => .next (s.stopPart part e.1)
        | .ok (s, hl) =>
          let s := (s.putPartial part j hl).modPart part (fun x =>
            { x.modJob job (fun q => { q with worked := true }) with xg := { x.xg with progress := s.mono } })
          .next (s.pumpOutbox part)
    else .next s
  else .refused .illFormed

/-! ### Unpacking (R295, R307) -/

/-- UNPACK: the job takes its Curriers. -/
def execUnpack (part job : Nat) (s : State) : Host.Outcome State Fault Refusal :=
  if part < 512 then
    if s.jobStarts part job 7 then
      .next (s.modPart part (fun x =>
        { x.modJob job (fun q => { q with started := true }) with xg := { x.xg with progress := s.mono } }))
    else .next s
  else .refused .illFormed

/-- R300: element `i` of a chunk encoding. -/
def chunkElem (b : Bytes) (i : Nat) : Num :=
  match fieldAt b 0 1 with
  | 0 => zeroN
  | 1 => match (List.range (fieldAt b 2 2)).find? (fun e => topkIndex b e == i) with
    | some e => bfWiden (fieldAt b (4 + 7 * (e / 2) + 2 * (e % 2)) 2)
    | none => zeroN
  | 2 => if bitOf (fieldAt b (6 + i / 8) 1) (i % 8) then (bfWiden (fieldAt b 4 2)).negate else bfWiden (fieldAt b 4 2)
  | _ => bfWiden (fieldAt b (4 + 2 * i) 2)

/-- The decoding of chunk number `k` of the message of ordinal `src` in its receive slot; what a malformed, unreadable or
missing message decodes to is open, a function of the bytes found. (Log 30: DESIGN CHOICE.) -/
def State.decodeChunk (s : State) (p src id k K n : Nat) : State × List Num :=
  let off := (s.part p).harness.cur.recvBase + 16384 * s.recvSlot p src id
  let open_ := fun (m : Bytes) => (List.range n).map (fun i => f32 (Config.openChunk m i))
  if !(s.part p).xg.chunks.contains (src, id) then (s, open_ [])
  else match s.devRead p .agent (larderAddr off) 16384 with
  | .error _ => (s, open_ [])
  | .ok (s, m, marked) =>
    let s := if marked then s.raiseVote p voteReplay else s
    match splitChunks (msgChunks m) ((m.drop 32).take (msgLen m)) with
    | none => (s, open_ m)
    | some cs =>
      let b := cs.getD k []
      (s, if marked || b.isEmpty || chunkBad K n b then open_ m else (List.range n).map (chunkElem b))

/-- R307: the summed chunk. -/
def State.sumChunk (s : State) (p id k K n : Nat) : State × List Word :=
  (List.range (s.pcount p)).foldl (fun (a : State × List Word) src =>
    let r := a.1.decodeChunk p src id k K n
    (r.1, List.zipWith (fun x y => fl ((f32 x).add y)) a.2 r.2)) (s, List.replicate n 0)

/-- The next chunk of an UNPACK job can be decoded: every ordinal's message is accepted, or is an arrival that a replayed
journal lacks (R332), and a staging slot is free. -/
def State.chunkReady (s : State) (p : Nat) (j : CurJob) (chunks : Nat) : Bool :=
  let x := s.part p
  let id := j.msgFirst + chunks / j.cpm
  let c := x.harness.cur
  (List.range (s.pcount p)).all (fun i => x.xg.chunks.contains (i, id) || s.noEntry p i id) &&
    (!bitOf j.mode 3 || decide (x.xg.staged + 1 ≤ leNat (s.lard p c.release 8) + c.stageSlots))

/-- UNPACK_CHUNK_DECODE. (Log 30: DESIGN CHOICE.) -/
def execUnpackChunkDecode (part job : Nat) (s : State) : Host.Outcome State Fault Refusal :=
  if part < 512 then
    let x := s.part part
    let j := x.job job
    match x.jobs.find? (fun q => q.job == job && q.started && !q.worked) with
    | none => .next s
    | some q =>
      if x.active && decide (j.kind = 7) && s.chunkReady part j q.chunks then
        let id := j.msgFirst + q.chunks / j.cpm
        let c := j.chunkFirst + q.chunks
        let s := if (List.range (s.pcount part)).any (fun i => s.noEntry part i id) then s.diverge part ⟨4, x.attempt, 0, x.step, 0, 0⟩
          else s
        let pack := x.packOf id
        let elems := match pack with
          | some pj => match s.desc part pj.inp with
            | some d => d.elems
            | none => 0
          | none => 0
        let n := chunkValid elems c
        let r := s.sumChunk part id (q.chunks % j.cpm) (pack.getD {}).k n
        let scale := ((x.harness.cur.sets.getD j.set {}).outScale)
        let vals := r.2.map (fun v => fmul v scale)
        let s := if vals.any (fun v => !(f32 v).isFin) then r.1.raiseVote part voteSkip else r.1
        let stage := bitOf j.mode 3
        let put : Except (Nat × Nat) State :=
          if stage then .ok (s.setLard part (x.harness.cur.stageBase + 16384 * (x.xg.staged % max 1 x.harness.cur.stageSlots))
            (padTo (vals.flatMap (fun v => leBytes 4 v.toNat)) 16384))
          else match s.desc part j.out with
            | some (.wide o) =>
              if o.rows * o.cols < chunkElems * c + n then .error (St.SHAPE_FAULT, 0)
              else s.putElems part o 0 (chunkElems * c) (vals.map f32)
            | _ => .error (St.FORMAT_FAULT, 0)
        match put with
        | .error e => .next (s.stopPart part e.1)
        | .ok s =>
          let last := (q.chunks + 1) % j.cpm = 0 ∨ q.chunks + 1 = j.chunkCount
          let s := s.modPart part (fun x =>
            { x.modJob job (fun q => { q with chunks := q.chunks + 1, worked := q.chunks + 1 == j.chunkCount }) with
              xg := { x.xg with
                staged := x.xg.staged + b2n stage, progress := s.mono
                slotsUsed := if last then x.xg.slotsUsed.filter (fun u => u.2.2 != id) else x.xg.slotsUsed } })
          .next (s.pumpOutbox part)
      else .next s
  else .refused .illFormed

/-- CURRIER_JOB_DONE (R280): the job's work is over, and a PACK's messages have gone out; 1 is written to its done word and
its Curriers are free. -/
def execCurrierJobDone (part job : Nat) (s : State) : Host.Outcome State Fault Refusal :=
  if part < 512 then
    let s := s.pumpOutbox part
    let x := s.part part
    if x.active && x.jobs.any (fun q => q.job == job && q.worked) && x.xg.outbox.all (fun o => o.2.1 != job + 1) then
      let s := s.setLard part (x.job job).done (leBytes 8 1)
      .next (s.modPart part (fun x => { x with jobs := x.jobs.filter (fun q => q.job != job) }))
    else .next s
  else .refused .illFormed

end Sys2Proof.Machine
end

