-- ==== Sys2Proof/Machine/Image.lean ====
section
/-! DEFINITION. The harness image: header, sections and tables (R240-R246, R252-R259, R265, R273, R288-R292, R297, R340,
R341) and the structure checks of order 3 of R248. -/

namespace Sys2Proof.Machine
open Sys2Proof

/-- The status `st` when `bad` holds. -/
def refuseIf (st : Nat) (bad : Bool) : Option Nat := if bad then some st else none

/-- The first refusal of a list of checks. -/
def firstOf (l : List (Option Nat)) : Option Nat := l.findSome? id

/-- The first refusal over a range of indices. -/
def firstUpTo (n : Nat) (f : Nat → Option Nat) : Option Nat := (List.range n).findSome? f

/-- Checks of one section: where the field stands that decides each, and what the check answers. -/
abbrev Checks := List (Nat × Option Nat)

/-- A check at an offset. -/
def checkAt (off st : Nat) (bad : Bool) : Nat × Option Nat := (off, refuseIf st bad)

/-- Checks of a part that begins at offset `base`. -/
def Checks.shift (base : Nat) (l : Checks) : Checks := l.map (fun c => (base + c.1, c.2))

/-- R248: within a section the fault at the lowest offset decides; of several at one offset, the first of the list.
(Log 32: DESIGN CHOICE.) -/
def Checks.first (l : Checks) : Option Nat :=
  (l.foldl (fun (m : Option (Nat × Nat)) c => match c.2, m with
    | none, _ => m
    | some f, none => some (c.1, f)
    | some f, some q => if c.1 < q.1 then some (c.1, f) else m) none).map Prod.snd

def allZero (b : Bytes) : Bool := b.all (fun x => x == 0)

/-! ### Header and section table (R241, R242) -/

/-- A section table entry. -/
structure Sect where
  typ : Nat := 0
  variant : Nat := 0xFFFF
  item : Nat := 0
  off : Nat := 0
  size : Nat := 0
  dest : Nat := 0
  deriving DecidableEq, Repr

namespace Img
def abi (b : Bytes) : Nat := fieldAt b 4 2
def hdrSize (b : Bytes) : Nat := if abi b = 2 then 192 else 256
def size (b : Bytes) : Nat := fieldAt b 8 8
def flags (b : Bytes) : Nat := fieldAt b 0x18 4
def tileCount (b : Bytes) : Nat := fieldAt b 0x28 4
def sectionCount (b : Bytes) : Nat := fieldAt b 0x2C 2
def variantCount (b : Bytes) : Nat := fieldAt b 0x2E 2
def phaseCount (b : Bytes) : Nat := fieldAt b 0x30 2
def layerCount (b : Bytes) : Nat := fieldAt b 0x32 2
def stackOn (b : Bytes) : Bool := bitOf (flags b) 3
def custSig (b : Bytes) : Bool := bitOf (flags b) 4
def trailer (b : Bytes) : Bytes := slice b (size b) 192

/-- Entry `i` of the section table. -/
def sect (b : Bytes) (i : Nat) : Sect :=
  let e := slice b (hdrSize b + 32 * i) 32
  ⟨fieldAt e 0 2, fieldAt e 2 2, fieldAt e 4 4, fieldAt e 8 8, fieldAt e 16 8, fieldAt e 24 8⟩

def sects (b : Bytes) : List Sect := (List.range (sectionCount b)).map (sect b)

/-- R257, R570: reduction entries lie before the first byte of any of their source lists. -/
def redCountFrom (b : Bytes) : Nat → Nat → Nat → Nat
  | 0, n, _ => n
  | fuel + 1, n, end_ => if 24 * (n + 1) ≤ end_ then redCountFrom b fuel (n + 1) (min end_ (fieldAt b (24 * n + 4) 4)) else n

/-- The number of entries of a REDUCTIONS section. -/
def redCount (b : Bytes) : Nat := redCountFrom b (b.length / 24 + 1) 0 b.length

/-- The first section of a type. -/
def find (b : Bytes) (typ : Nat) : Option Sect := (sects b).find? (fun x => x.typ == typ)

/-- Bytes of a section. -/
def body (b : Bytes) (x : Sect) : Bytes := slice b x.off x.size

/-- Bytes of the first section of a type, none when the image has none. -/
def table (b : Bytes) (typ : Nat) : Bytes := match find b typ with
  | some x => body b x
  | none => []

/-- Entries of `n` bytes of a table. -/
def count (b : Bytes) (typ n : Nat) : Nat := (table b typ).length / n
end Img

/-- R243: sections whose DEST places them. -/
def sectHasDest (typ : Nat) : Bool := decide (0xC ≤ typ) && decide (typ ≤ 0xF)

/-- R241: a header field outside its range or a reserved byte that is not 0. -/
def headerBad (b : Bytes) (len : Nat) : Bool :=
  let L := fieldAt b 0x34 2
  fieldAt b 6 2 != Img.hdrSize b || Img.size b % 256 != 0 || Img.size b + 192 != len || decide (32 ≤ Img.flags b) ||
    !(decide (1 ≤ Img.tileCount b) && decide (Img.tileCount b ≤ 3072)) ||
    !(decide (3 ≤ Img.sectionCount b) && decide (Img.sectionCount b ≤ 16384)) ||
    !(decide (1 ≤ Img.variantCount b) && decide (Img.variantCount b ≤ 16)) || decide (256 < Img.phaseCount b) ||
    decide (1024 < Img.layerCount b) || fieldAt b 0x38 2 % 16 != 0 || decide (L < fieldAt b 0x38 2) ||
    !(decide (10 ≤ fieldAt b 0x3A 1) && decide (fieldAt b 0x3A 1 ≤ 24)) || fieldAt b 0x3B 1 != 0 ||
    decide (0x8000 ≤ fieldAt b 0x3C 2) || decide (0x8000 ≤ fieldAt b 0x3E 2) || decide (0x8000 ≤ fieldAt b 0x40 2) ||
    (!Img.stackOn b && fieldAt b 0x40 2 != 0) || fieldAt b 0x42 6 != 0 ||
    [0x48, 0x50, 0x58, 0x60, 0x68, 0x70].any (fun o => fieldAt b o 8 % 256 != 0) ||
    !allZero (slice b 0x80 (Img.hdrSize b - 0x80))

/-- R242, R243, R246: sections of wrong type, number, place or form. -/
def sectionsBad (b : Bytes) : Bool :=
  let ss := Img.sects b
  let n := fun (t : Nat) => (ss.filter (fun x => x.typ == t)).length
  let progs := (ss.filter (fun x => x.typ == 1)).map (fun x => x.item)
  let cores := 4 * Img.tileCount b
  let table := Img.hdrSize b + 32 * Img.sectionCount b
  let spans := (0, table) :: ss.map (fun x => (x.off, x.size))
  ss.any (fun x => decide (x.typ = 0) || decide (0xF < x.typ) || x.variant != 0xFFFF || (x.typ != 1 && x.item != 0) ||
      (!sectHasDest x.typ && x.dest != 0) || x.size == 0 || x.off % 256 != 0 || decide (Img.size b < x.off + x.size)) ||
    progs.length != cores || !(List.range cores).all (fun i => progs.contains i) ||
    [2, 9, 11].any (fun t => n t != 1) || [3, 4, 5, 6, 7, 8, 10, 12, 13, 14].any (fun t => decide (1 < n t)) ||
    (Img.table b 11).length != 32 * Img.sectionCount b ||
    (List.range spans.length).any (fun i => (List.range i).any (fun j =>
      overlaps (spans.getD i (0, 0)).1 (spans.getD i (0, 0)).2 (spans.getD j (0, 0)).1 (spans.getD j (0, 0)).2))

/-- R244: reserved bytes of the trailer, and a customer signature where none is declared. -/
def trailerBad (b : Bytes) : Bool :=
  let t := Img.trailer b
  !allZero (slice t 8 56) || (!Img.custSig b && (fieldAt t 4 4 != 0 || !allZero (slice t 0x80 64)))

/-- R273: features absent from ABI 2. (Log 35: DEDUCED.) -/
def abi2Bad (b : Bytes) : Bool :=
  Img.abi b == 2 && (Img.variantCount b != 1 || Img.custSig b || [7, 10, 12].any (fun t => (Img.find b t).isSome))

/-- Order 3 of R248. -/
def State.imageForm (s : State) (p : Nat) (b : Bytes) (len : Nat) : Option Nat :=
  let tiles := (s.part p).tiles
  let shared := s.fld F.HALL_CFG_SHARED 0 0 = 1
  let whole := decide (Img.tileCount b % 32 = 0) && decide (Img.tileCount b ≤ 1024) &&
    tiles.all (fun t => (List.range 32).all (fun i => tiles.contains (t / 32 * 32 + i)))
  firstOf [
    refuseIf St.IMAGE_FAULT (slice b 0 4 != [0x54, 0x4E, 0x48, 0x53]),
    refuseIf St.ABI_UNSUPPORTED (Img.abi b != 2 && Img.abi b != 3),
    refuseIf St.IMAGE_FAULT (headerBad b len || sectionsBad b || trailerBad b),
    refuseIf St.OP_FAULT (abi2Bad b),
    refuseIf St.FW_ABI_LOW (decide (s.fld F.TACK_FW_ABI_SEL_ABI 0 0 < fieldAt b 0x1C 4)),
    refuseIf St.FOOTPRINT_MISMATCH (Img.tileCount b != tiles.length || (Img.abi b == 2 && !whole)),
    refuseIf St.MODE_MISMATCH ((decide shared && !bitOf (Img.flags b) 1) || (!decide shared && !bitOf (Img.flags b) 2) ||
      (Img.stackOn b && Img.abi b != 2))]

/-! ### Signatures and digests (orders 4 and 5) -/

/-- Bytes of eight consecutive key registers. -/
def State.keyBytes (s : State) (r : Reg) (inst k : Nat) : Bytes :=
  (List.range 8).flatMap (fun w => leBytes 4 (s.reg r inst (8 * k + w)))

/-- R244: the harness digest. -/
def Img.digest (b : Bytes) : Bytes := sha256 (b.take (Img.size b))

/-- R244, R276, R418: the signatures of an image. -/
def State.sigBad (s : State) (p : Nat) (b : Bytes) : Bool :=
  let t := Img.trailer b
  let d := Img.digest b
  let k := fieldAt t 0 4
  let c := fieldAt t 4 4
  !(decide (k < 16) && bitOf (s.fld F.TACK_HKEY_VALID_VALID 0 0) k && edVerify (s.keyBytes RG.TACK_HKEY 0 k) d (slice t 0x40 64)) ||
    (Img.custSig b && !(decide (c < 4) && bitOf (s.fld F.TACK_CKEY_VALID_VALID p 0) c &&
      edVerify (s.keyBytes RG.TACK_CKEY p c) d (slice t 0x80 64)))

/-- R245: a section digest that differs. -/
def digestBad (b : Bytes) : Bool :=
  let t := Img.table b 11
  (List.range (Img.sectionCount b)).any (fun i =>
    let x := Img.sect b i
    slice t (32 * i) 32 != (if x.typ = 11 then List.replicate 32 0 else sha256 (Img.body b x)))

/-! ### The tables the device holds -/

def decodeHdr (b : Bytes) : ProgHdr :=
  ⟨fieldAt b 0 4, fieldAt b 4 4, fieldAt b 8 4, fieldAt b 12 4, (List.range 16).map (fun v => fieldAt b (16 + 4 * v) 4)⟩

/-- The PROGRAM section of a partition core. -/
def Img.prog (b : Bytes) (i : Nat) : Bytes :=
  match (Img.sects b).find? (fun x => x.typ == 1 && x.item == i) with
  | some x => Img.body b x
  | none => []

/-- R252: a knock table entry. -/
def decodeKnock (b : Bytes) : KnockEnt :=
  let w := fieldAt b 0 8
  ⟨bitsOf w 4 0, bitOf w 5, bitsOf w 15 8, bitsOf w 31 16⟩

/-- R255: a phase table entry. -/
def decodePhase (b : Bytes) : PhaseEnt := ⟨fieldAt b 0 1, fieldAt b 2 1, fieldAt b 3 1, fieldAt b 4 4, fieldAt b 8 4⟩

/-- A list of partition core indices of 2 B. -/
def coreList (b : Bytes) (off n : Nat) : List Nat := (List.range n).map (fun i => fieldAt b (off + 2 * i) 2)

/-- R257: a reduction entry. -/
def decodeRed (t e : Bytes) : RedEnt := ⟨fieldAt e 0 2, fieldAt e 8 8, fieldAt e 16 4, coreList t (fieldAt e 4 4) (fieldAt e 2 2)⟩

/-- R265: a tap. -/
def decodeTap (b : Bytes) : TapEnt :=
  ⟨fieldAt b 0 1, fieldAt b 1 1, fieldAt b 2 1, fieldAt b 4 2, fieldAt b 8 8, fieldAt b 16 8, fieldAt b 24 8⟩

/-- R279: a job record. -/
def decodeJob (b : Bytes) : CurJob :=
  { kind := fieldAt b 0 1, mode := fieldAt b 1 1, group := fieldAt b 2 1, arrival := fieldAt b 4 2, set := fieldAt b 6 2
    roomFirst := fieldAt b 8 2, roomCount := fieldAt b 10 2, inp := fieldAt b 12 2, out := fieldAt b 14 2
    aux := fieldAt b 16 2, aux2 := fieldAt b 18 2, vgroup := fieldAt b 20 2, slot := fieldAt b 22 2
    chunkFirst := fieldAt b 24 4, chunkCount := fieldAt b 28 4, k := fieldAt b 32 2, cpm := fieldAt b 34 2
    msgFirst := fieldAt b 36 4, done := fieldAt b 40 8, scratch := fieldAt b 48 8, pwin := fieldAt b 56 4 }

/-- R289: a coefficient set. -/
def decodeSet (b : Bytes) : CoefSet :=
  let w := fun (o : Nat) => (BitVec.ofNat 32 (fieldAt b o 4) : Word)
  ⟨fieldAt b 0 1, fieldAt b 1 1, w 4, w 8, w 12, (List.range 16).map (fun i => (w (16 + 12 * i), w (20 + 12 * i), w (24 + 12 * i)))⟩

/-- R292: a pair table entry. -/
def decodePair (b : Bytes) : PairEnt := ⟨fieldAt b 0 8, fieldAt b 8 8, fieldAt b 16 8, bitOf (fieldAt b 24 1) 0, false⟩

/-- A larder offset of a device address of space 0x2. -/
def lardOff (addr : Nat) : Nat := addr % 2 ^ 60

/-- R288: the Currier tables. -/
def Img.currier (b : Bytes) : CurrierTab :=
  match Img.find b 12 with
  | none => {}
  | some x =>
    let t := Img.body b x
    { jobs := (List.range (fieldAt t 0 2)).map (fun i => decodeJob (slice t (fieldAt t 8 4 + 64 * i) 64))
      sets := (List.range (fieldAt t 2 2)).map (fun i => decodeSet (slice t (fieldAt t 12 4 + 256 * i) 256))
      pairs := (List.range (fieldAt t 4 2)).map (fun i => decodePair (slice t (fieldAt t 16 4 + 32 * i) 32))
      pairBase := lardOff x.dest + fieldAt t 16 4, recvBase := fieldAt t 0x18 8, rslots := fieldAt t 0x20 2
      pmax := fieldAt t 0x22 2, stageSlots := fieldAt t 0x24 4, stageBase := fieldAt t 0x28 8, release := fieldAt t 0x30 8 }

/-- R341: a route record. -/
structure Route where
  layer : Nat := 0
  variant : Nat := 0
  experts : Nat := 2
  topk : Nat := 1
  flags : Nat := 0
  tokens : Nat := 1
  cap : Nat := 1
  slotTab : Nat := 0
  retTab : Nat := 0
  gate : Nat := 0
  combine : Nat := 0
  rowBytes : Nat := 0
  mask : Nat := 0
  stats : Nat := 0
  deriving DecidableEq, Repr

def decodeRoute (b : Bytes) : Route :=
  ⟨fieldAt b 0 2, fieldAt b 2 2, fieldAt b 4 2, fieldAt b 6 1, fieldAt b 7 1, fieldAt b 8 4, fieldAt b 12 4, fieldAt b 0x10 8,
    fieldAt b 0x18 8, fieldAt b 0x20 8, fieldAt b 0x28 8, fieldAt b 0x30 4, fieldAt b 0x38 8, fieldAt b 0x40 8⟩

/-- The routes of the DISPATCH section. -/
def Img.routes (b : Bytes) : List Route :=
  let t := Img.table b 13
  (List.range (fieldAt t 0 2)).map (fun i => decodeRoute (slice t (fieldAt t 4 4 + 96 * i) 96))

/-- Bundle `i` of a PROGRAM section, and its records. -/
def progBundle (pb : Bytes) (i : Nat) : Bytes := slice pb (128 + 32 * i) 32
def progRecord (pb : Bytes) (off n : Nat) : Bytes := slice pb (128 + fieldAt pb 4 4 + off) n
def progLen (pb : Bytes) : Nat := fieldAt pb 4 4 / 32

/-- R82: statistics records a program names by the STATS field of its array records. -/
def progStats (pb : Bytes) : List Nat :=
  (List.range (progLen pb)).flatMap (fun i =>
    ([2, 3].filter (fun pos => !slotNop (progBundle pb i) pos)).map (fun pos =>
      (decodeArr (progRecord pb (48 * bitsOf (slotWord (progBundle pb i) pos) 23 8) 48)).stats))

/-- R82: the statistics records of a harness. -/
def Img.stats (b : Bytes) : List Nat :=
  let q := Img.table b 3
  let named := (List.range (q.length / 32)).map (fun i => fieldAt q (32 * i + 12) 4) ++
    (List.range (4 * Img.tileCount b)).flatMap (fun i => progStats (Img.prog b i))
  (named.filter (fun i => i != 0xFFFFFFFF)).foldl setAdd []

/-- The harness of an image. -/
def Img.harness (b : Bytes) : Harness :=
  let ent := fun (typ n : Nat) => (List.range (Img.count b typ n)).map (fun i => slice (Img.table b typ) (n * i) n)
  let bar := Img.table b 5
  { abi := Img.abi b, version := fieldAt b 0x10 8, ordered := bitOf (Img.flags b) 0, sharedOk := bitOf (Img.flags b) 1
    exclusiveOk := bitOf (Img.flags b) 2, stackView := Img.stackOn b, minFwAbi := fieldAt b 0x1C 4, jobSeed := fieldAt b 0x20 8
    variants := Img.variantCount b, phaseCount := Img.phaseCount b, layers := Img.layerCount b
    localPages := fieldAt b 0x34 2, cachePages := fieldAt b 0x36 2, stagePages := fieldAt b 0x38 2
    timelogLog2 := fieldAt b 0x3A 1, cacheBaseGib := fieldAt b 0x3C 2, cacheLimitGib := fieldAt b 0x3E 2
    stackBaseGib := fieldAt b 0x40 2, descBase := fieldAt b 0x48 8, qcfgBase := fieldAt b 0x50 8
    qstateBase := fieldAt b 0x58 8, statsBase := fieldAt b 0x60 8, timelogBase := fieldAt b 0x68 8
    tapBase := fieldAt b 0x70 8, selectOffset := fieldAt b 0x78 8, digest := Img.digest b
    progs := (List.range (4 * Img.tileCount b)).map (fun i => decodeHdr (Img.prog b i))
    barriers := if bar = [] then [] else
      (List.range 256).map (fun g => coreList bar (fieldAt bar (8 * g) 4) (fieldAt bar (8 * g + 4) 2))
    knocks := (ent 6 8).map decodeKnock, phases := (ent 7 16).map decodePhase
    reductions := (List.range (redCount (Img.table b 8))).map (fun i => decodeRed (Img.table b 8) (slice (Img.table b 8) (24 * i) 24))
    variantIx := (ent 9 12).map (fun e => ⟨fieldAt e 0 4, fieldAt e 4 4, fieldAt e 8 2⟩)
    taps := (ent 10 32).map decodeTap
    descCount := Img.count b 2 48, qcfgCount := Img.count b 3 32, qstateCount := Img.count b 4 128
    statsIdx := Img.stats b, cur := Img.currier b
    voteBase := (Img.find b 14).map (fun x => lardOff x.dest), voteGroups := fieldAt (Img.table b 14) 0 2
    dispatch := (Img.routes b).map (fun r => ⟨r.stats, 64⟩) }

end Sys2Proof.Machine
end

