-- ==== Sys2Proof/Machine/LoadCheck.lean ====
section
/-! DEFINITION. The content and placement checks of order 6 of R248: programs (R141-R153, R157, R161, R182, R246, R571),
tables (R45, R69, R70, R99, R252-R259, R265, R570), Currier tables (R279-R292, R302), vote limits (R297), routes (R342)
and placements. -/

namespace Sys2Proof.Machine
open Sys2Proof

/-! ### Places of the partition under the new harness -/

/-- R175, R403: `n` bytes at a larder offset lie within the partition's larder. -/
def Harness.inLarder (h : Harness) (tiles off n : Nat) : Bool :=
  decide (off + n ≤ tiles * ((3072 - h.cachePages) * 4096)) && decide (off < 2 ^ 36)

/-- A larder placement. -/
def Harness.placeBad (h : Harness) (tiles off n : Nat) : Bool := !h.inLarder tiles off n

/-! ### Programs -/

/-- R149, R153: bundles issued along a path: those of its first segment, whether it meets a SAFEPOINT or END_STEP, the
longest segment closed after that, those of its last segment, whether END_STEP ended it. -/
structure PathSum where
  first : Nat := 0
  closed : Bool := false
  mx : Nat := 0
  last : Nat := 0
  ended : Bool := false
  deriving DecidableEq, Repr

/-- Two paths one after the other. -/
def PathSum.append (a b : PathSum) : PathSum :=
  if a.ended then a
  else match a.closed, b.closed with
    | false, false => { first := a.first + b.first }
    | false, true => { b with first := a.first + b.first }
    | true, false => { a with last := a.last + b.first }
    | true, true => { b with first := a.first, mx := max a.mx (max b.mx (a.last + b.first)) }

/-- A path issued `n` times. -/
def PathSum.times (a : PathSum) (n : Nat) : PathSum :=
  if n ≤ 1 ∨ a.ended then a
  else if a.closed then { a with mx := max a.mx (a.last + a.first) }
  else { first := a.first * n }

/-- The longest segment. -/
def PathSum.worst (a : PathSum) : Nat := max (max a.first a.mx) a.last

/-- One bundle: control operations SAFEPOINT and END_STEP close a segment. -/
def bundlePath (pb : Bytes) (i : Nat) : PathSum :=
  let op := slotWord (progBundle pb i) 4 % 16
  { first := 1, closed := op == 3 || op == 8, ended := op == 8 }

/-- The LOOP of bundle `i`: its target and count. -/
def loopAt (pb : Bytes) (i : Nat) : Option (Nat × Nat) :=
  let w := slotWord (progBundle pb i) 4
  if w % 16 = 6 then some (bitsOf w 31 8, bitsOf w 55 32) else none

/-- Loops of a program: target, LOOP bundle, count. -/
def progLoops (pb : Bytes) : List (Nat × Nat × Nat) :=
  (List.range (progLen pb)).filterMap (fun i => (loopAt pb i).map (fun l => (l.1, i, l.2)))

/-- The path of bundles `lo` to `hi` of a program, each loop wholly inside run its count of times and a loop entered
inside its body run once less from its target. `fuel` bounds the nesting. -/
def pathOf (pb : Bytes) : Nat → Nat → Nat → PathSum
  | 0, _, _ => {}
  | fuel + 1, lo, hi =>
    let body := (List.range (hi + 1 - lo)).foldl (fun (st : List (Nat × PathSum)) k =>
      let i := lo + k
      -- loops whose target is `i` and which end later open here, the outermost first
      let opens := ((progLoops pb).filter (fun l => l.1 == i && decide (l.2.1 ≤ hi) && !(l.1 == lo && l.2.1 == hi))).reverse
      let st := opens.foldl (fun st l => (l.2.1, {}) :: st) st
      let add := fun (st : List (Nat × PathSum)) (p : PathSum) => match st with
        | [] => [(hi + 1, p)]
        | (e, q) :: rest => (e, q.append p) :: rest
      let st := add st (bundlePath pb i)
      match loopAt pb i with
      | none => st
      | some (t, n) =>
        if t = lo ∧ i = hi then st
        else match st with
          | (e, q) :: rest => if e = i then add rest (q.times n) else
              -- entered inside the loop's body
              if 2 ≤ n ∧ t < lo then add st ((pathOf pb fuel t i).times (n - 1)) else st
          | [] => st) [(hi + 1, {})]
    -- frames left open belong to a path that has ended
    body.foldl (fun p f => f.2.append p) {}

/-- The path from an entry bundle to the end of the program. -/
def entryPath (pb : Bytes) (entry : Nat) : PathSum :=
  let n := progLen pb
  if n ≤ entry then {} else pathOf pb 6 entry (n - 1)

/-- R149: the loop of LOOP bundle `i` crosses one that ends before it, or makes loops nest more than four deep. -/
def loopBad (pb : Bytes) (i : Nat) : Bool :=
  let ls := (progLoops pb).filter (fun l => decide (l.2.1 ≤ i))
  ls.any (fun b => b.2.1 == i && (decide (b.2.1 < b.1) ||
      ls.any (fun a => decide (a.2.1 < i) && decide (b.1 ≤ a.2.1) && decide (a.1 < b.1)))) ||
    ls.any (fun a => decide (4 < (ls.filter (fun b => decide (b.1 ≤ a.1) && decide (a.2.1 ≤ b.2.1))).length))

/-- What the checks of a program need of the image. -/
structure LoadCtx where
  img : Bytes
  h : Harness
  tiles : Nat
  descs : List (Option Desc)
  routes : List Route

/-- R571, R45, R99: a descriptor index; FORMAT_FAULT when it names no entry. -/
def LoadCtx.desc (x : LoadCtx) (i : Nat) : Option Desc := x.descs.getD i none

/-- R273: a format ABI 2 lacks. (Log 35: DEDUCED.) -/
def LoadCtx.noFmt (x : LoadCtx) (f : Nat) : Bool := x.h.abi == 2 && !([0, 1, 2, 8, 9].contains f)

/-- R104: the shapes. -/
def shapeOk (narrow quart : Bool) (m n : Nat) : Bool :=
  if narrow then
    if quart then decide (m = 32) && decide (n = 32)
    else [(64, 64), (32, 64), (64, 32), (32, 32), (16, 64), (64, 16)].contains (m, n)
  else !quart && decide (n = 32 ∨ n = 64)

/-- R101-R105, R571: the checks of an array operation record, each at the offset of the field that decides it. R105 takes
the first fault found and gives no order within a record: a check of several fields stands at the last of them, and at one
offset OP_FAULT comes before FORMAT_FAULT and that before SHAPE_FAULT. A NOP names its descriptors too. (Log 32: DESIGN
CHOICE.) -/
def LoadCtx.arrChecks (x : LoadCtx) (b : Bytes) : Checks :=
  let r := decodeArr b
  let da := x.desc r.aDesc
  let db := x.desc r.bDesc
  let dc := x.desc r.cDesc
  let riv := fun (d : Option Desc) => match d with
    | some (.narrow n) => n.riv
    | _ => false
  let narrow := fun (d : Option Desc) => match d with
    | some q => isNarrow q.fmt
    | none => false
  let pairs := match da, db, dc with
    | some a, some b, some c => pairingOk r.op a.fmt b.fmt c.fmt
    | _, _, _ => true
  let ks := ([da, db].filter narrow).filterMap (fun d => d.map Desc.k)
  let top := r.k0 + r.nk
  let old := x.h.abi == 2
  let runs := r.op != 0
  [ checkAt 0 St.OP_FAULT (decide (16 ≤ fieldAt b 0 1) || decide (8 < r.op) || (old && (r.op == 2 || r.op == 7 || r.op == 8))),
    checkAt 1 St.OP_FAULT (r.cinit == 3 || (r.xref && r.op != 1) || (r.neg && r.op != 1 && r.op != 2) ||
      (!r.pacc && r.op == 2) || (r.pacc && r.op != 1 && r.op != 2) || (old && (r.xref || r.pacc))),
    checkAt 3 St.OP_FAULT (decide (4 ≤ fieldAt b 3 1)),
    checkAt 3 St.FORMAT_FAULT (r.rnd == 3),
    checkAt 4 St.OP_FAULT (decide (3 ≤ r.op) && riv da),
    checkAt 4 St.FORMAT_FAULT da.isNone,
    checkAt 4 St.SHAPE_FAULT (runs && da.isSome && !shapeOk (narrow da) r.quart r.m r.n),
    checkAt 6 St.OP_FAULT (decide (3 ≤ r.op) && riv db),
    checkAt 6 St.FORMAT_FAULT db.isNone,
    checkAt 8 St.OP_FAULT (r.cinit == 2 && narrow dc),
    checkAt 8 St.FORMAT_FAULT (dc.isNone || (runs && !pairs)),
    checkAt 0xA St.SHAPE_FAULT (runs && (decide (r.nk = 0) || decide (8192 < r.nk))),
    checkAt 0xC St.SHAPE_FAULT (runs && ks != [] && (r.k0 % 32 != 0 || (top % 32 != 0 && !ks.contains top))),
    checkAt 0x20 St.FORMAT_FAULT (r.store && narrow dc && decide (x.h.qcfgCount ≤ r.qcfg)),
    checkAt 0x28 St.OP_FAULT (fieldAt b 40 8 != 0)]

/-- The offset of byte `off` of the record region within a PROGRAM section. -/
def recAt (pb : Bytes) (off : Nat) : Nat := 128 + fieldAt pb 4 4 + off

/-- R141: an array slot and its record. -/
def LoadCtx.arrSlot (x : LoadCtx) (pb : Bytes) (base w : Nat) : Checks :=
  let v := w % 2 = 1
  let o := 48 * bitsOf w 23 8
  let bad := decide (bitsOf w 7 1 ≠ 0) || decide (bitsOf w 31 24 ≠ 0) || (decide (¬v) && w != 0) ||
    (decide v && decide (fieldAt pb 12 4 < o + 48))
  checkAt base St.OP_FAULT bad :: (if v ∧ !bad then (x.arrChecks (progRecord pb o 48)).shift (recAt pb o) else [])

/-- R146, R571: the checks of a vector operation record. -/
def LoadCtx.vecChecks (x : LoadCtx) (b : Bytes) : Checks :=
  let r := decodeVRec b
  let src := fun (d : Desc) => if r.rop = 2 then isNarrow d.fmt else isWide d.fmt
  let dst := fun (d : Desc) => if r.rop = 1 then isNarrow d.fmt else if r.rop = 2 then isWide d.fmt else decide (d.fmt ≤ 2)
  let bad := fun (d : Option Desc) (ok : Desc → Bool) => match d with
    | some q => !ok q
    | none => true
  [ checkAt 0 St.OP_FAULT (decide (r.rop = 0) || decide (3 < r.rop)),
    checkAt 1 St.FORMAT_FAULT (decide (4 ≤ r.rnd) || (r.rop == 3 && r.rnd == 3)),
    checkAt 2 St.FORMAT_FAULT (bad (x.desc r.src) src),
    checkAt 4 St.FORMAT_FAULT (bad (x.desc r.dst) dst),
    checkAt 6 St.FORMAT_FAULT (fieldAt b 6 2 != 0),
    checkAt 0x14 St.FORMAT_FAULT (r.rop == 1 && decide (x.h.qcfgCount ≤ r.qcfg)),
    checkAt 0x18 St.FORMAT_FAULT (!allZero (slice b 24 8))]

/-- R177: the atomics with an 8 B form. -/
def wideAtomic (vop : Nat) : Bool := [0x20, 0x22, 0x23, 0x24, 0x25, 0x28].contains vop

/-- R143, R144, R145, R146, R178, R182: a vector slot and its record; a field of the slot stands at its first byte. -/
def LoadCtx.vecSlot (x : LoadCtx) (pb : Bytes) (base w : Nat) : Checks :=
  let v := decodeV w
  let direct := v.vop == 1 || v.vop == 2
  let atomic := decide (0x20 ≤ v.vop) && decide (v.vop ≤ 0x28)
  let short := v.vop == 0x18 && decide (fieldAt pb 12 4 < 32 * v.imm + 32)
  Checks.shift base [
    checkAt 0 St.OP_FAULT (!(decide (v.vop ≤ 0x18) || atomic)),
    checkAt 0 St.ATOMIC_ORDER (x.h.ordered && (v.vop == 0x21 || v.vop == 0x28)),
    checkAt 3 St.FORMAT_FAULT (direct && decide (2 < v.fmt)),
    checkAt 4 St.OP_FAULT (bitsOf w 34 34 != 0 || short || (atomic && (decide (16 ≤ v.imm) || (bitOf v.imm 0 && !wideAtomic v.vop)))),
    checkAt 4 St.FORMAT_FAULT (v.vop == 2 && decide (2 ≤ v.rnd)),
    checkAt 4 St.ADDR_FAULT (direct && (v.imm % 32 != 0 || decide (2 ^ 21 < v.imm + 64 * wideBytes v.fmt))),
    checkAt 4 St.ATOMIC_ORDER (x.h.ordered && atomic && bitOf v.imm 1),
    checkAt 7 St.OP_FAULT (bitsOf w 63 56 != 0)] ++
  (if v.vop = 0x18 ∧ !short then (x.vecChecks (progRecord pb (32 * v.imm) 32)).shift (recAt pb (32 * v.imm)) else [])

/-- Does some row `j < rows` of `[base + j * stride, + len)` meet `[lo, hi)`? -/
def rowsMeet (base : Nat) (stride : Int) (rows len lo hi : Nat) : Bool :=
  let (b, s) : Int × Nat := if stride < 0 then ((base : Int) + (rows - 1 : Nat) * stride, stride.natAbs) else (base, stride.natAbs)
  let below : Int := (lo : Int) - len - b
  let j : Nat := if s = 0 ∨ below < 0 then 0 else (below / (s : Int) + 1).toNat
  decide (lo < hi) && decide (j < rows) && decide (b + j * s < (hi : Int)) && decide ((lo : Int) < b + j * s + len)

/-- R161, R342: the checks of a copy descriptor. (Log 32: DESIGN CHOICE.) -/
def LoadCtx.copyChecks (x : LoadCtx) (b : Bytes) : Checks :=
  let d := decodeCopy b
  let idx := d.kind == 2 || d.kind == 3 || d.kind == 4
  let esz := if d.rfmt = 1 then 2 else 4
  let el := d.kind == 2 || d.kind == 3
  let red := d.kind == 5
  let meets := red && x.routes.any (fun r => rowsMeet (lardOff d.dst) d.dstStride d.rows (reduceLen d.rfmt d.len)
    r.combine (r.combine + r.topk * r.tokens * r.rowBytes))
  [ checkAt 0 St.FORMAT_FAULT (decide (5 < d.kind)),
    checkAt 1 St.FORMAT_FAULT (decide (2 ≤ fieldAt b 1 1) || (!red && d.rfmt == 1)),
    checkAt 2 St.FORMAT_FAULT (!red && d.redTag != 0),
    checkAt 4 St.FORMAT_FAULT (if el then d.len != 0 else d.len == 0 || (red && d.len % esz != 0)),
    checkAt 8 St.FORMAT_FAULT (red && d.src % esz != 0),
    checkAt 0x10 St.FORMAT_FAULT (red && (spaceOf d.dst != 2 || d.dst % 4 != 0)),
    checkAt 0x18 St.FORMAT_FAULT (d.rows == 0 || (d.kind == 0 && d.rows != 1)),
    checkAt 0x1C St.FORMAT_FAULT (if el then !([1, 2, 4, 8, 16, 32].contains d.esize) else d.esize != 0),
    checkAt 0x1E St.FORMAT_FAULT (fieldAt b 0x1E 2 != 0),
    checkAt 0x20 St.FORMAT_FAULT (red && d.srcStride % (esz : Int) != 0),
    checkAt 0x28 St.FORMAT_FAULT (red && d.dstStride % 4 != 0),
    checkAt 0x28 St.COMBINE_ORDER meets,
    checkAt 0x30 St.FORMAT_FAULT (idx && (spaceOf d.table != 2 || d.table % (if d.kind = 4 then 8 else 4) != 0)),
    checkAt 0x38 St.FORMAT_FAULT (fieldAt b 0x38 8 != 0)]

/-- R157: a copy slot and its descriptor. -/
def LoadCtx.copySlot (x : LoadCtx) (pb : Bytes) (base w : Nat) : Checks :=
  let o := 64 * bitsOf w 31 16
  let bad := match w % 4 with
    | 0 => w != 0
    | 1 => decide (47 < bitsOf w 7 2) || bitsOf w 15 8 != 0 || bitsOf w 63 32 != 0 || decide (fieldAt pb 12 4 < o + 64)
    | 2 => bitsOf w 15 2 != 0
    | _ => true
  checkAt base St.OP_FAULT bad :: (if w % 4 = 1 ∧ !bad then (x.copyChecks (progRecord pb o 64)).shift (recAt pb o) else [])

/-- R148, R149, R243, R255, R256, R273: the control slot of bundle `i` of the program of partition core `c`. A PHASE needs its
entry in the PHASES section, which ABI 2 has not. (Log 17: DESIGN CHOICE.) -/
def LoadCtx.ctlSlot (x : LoadCtx) (c i base w : Nat) : Checks :=
  let top := fun (k : Nat) => decide (w / 2 ^ k ≠ 0)
  let members := x.h.barriers.getD (bitsOf w 15 8) []
  let bad := match w % 16 with
    | 0 => w != 0
    | 1 => top 6 || bitsOf w 5 4 == 3
    | 2 => top 16 || w / 128 % 2 != 0 || decide (3 < bitsOf w 6 4) || !members.contains c
    | 3 => top 21
    | 4 => top 20 || decide (x.h.knocks.length ≤ bitsOf w 19 4)
    | 5 => top 12 || decide (min x.h.phaseCount x.h.phases.length ≤ bitsOf w 11 4)
    | 6 => top 56 || bitsOf w 7 4 != 0 || decide (i < bitsOf w 31 8) || bitsOf w 55 32 == 0
    | 7 => top 9
    | 8 => top 4
    | _ => true
  [checkAt base St.OP_FAULT bad]

/-- R246, R149: the checks of the program header of a PROGRAM section. -/
def LoadCtx.hdrChecks (x : LoadCtx) (pb : Bytes) : Checks :=
  let p := decodeHdr pb
  [ checkAt 0 St.FORMAT_FAULT (p.instrBase % 256 != 0),
    checkAt 4 St.FORMAT_FAULT (p.instrLen % 32 != 0 || p.instrLen == 0 || decide (2 ^ 21 < p.instrBase + p.instrLen)),
    checkAt 8 St.FORMAT_FAULT (p.recBase % 256 != 0),
    checkAt 12 St.FORMAT_FAULT (p.recLen % 32 != 0 || decide (2 ^ 21 < p.recBase + p.recLen) ||
      overlaps p.instrBase p.instrLen p.recBase p.recLen || pb.length != 128 + p.instrLen + p.recLen)] ++
  (List.range 16).map (fun v => if v < x.h.variants then checkAt (16 + 4 * v) St.OP_FAULT (decide (progLen pb ≤ p.entry.getD v 0))
    else checkAt (16 + 4 * v) St.FORMAT_FAULT (p.entry.getD v 0 != 0)) ++
  [checkAt 0x50 St.FORMAT_FAULT (!allZero (slice pb 0x50 48))]

/-- The checks of bundle `i` of a PROGRAM section and of the records it names. -/
def LoadCtx.bundleChecks (x : LoadCtx) (c : Nat) (pb : Bytes) (i : Nat) : Checks :=
  let b := progBundle pb i
  let o := 128 + 32 * i
  x.arrSlot pb o (slotWord b 2) ++ x.arrSlot pb (o + 4) (slotWord b 3) ++ x.vecSlot pb (o + 8) (slotWord b 1) ++
    x.copySlot pb (o + 16) (slotWord b 0) ++ x.ctlSlot c i (o + 24) (slotWord b 4) ++
    [checkAt (o + 24) St.OP_FAULT (loopBad pb i)]

/-- A PROGRAM section: its header, its bundles, its paths (which end with the instruction region) and the records its bundles
name, by offset. (Log 32: DESIGN CHOICE.) -/
def LoadCtx.progFault (x : LoadCtx) (c : Nat) (pb : Bytes) : Option Nat :=
  match (x.hdrChecks pb).first with
  | some f => some f
  | none =>
    let paths := (List.range x.h.variants).map (fun v => entryPath pb ((decodeHdr pb).entry.getD v 0))
    let end_ := 127 + 32 * progLen pb
    Checks.first ((List.range (progLen pb)).flatMap (x.bundleChecks c pb) ++
      [checkAt end_ St.OP_FAULT (paths.any (fun p => !p.ended)),
       checkAt end_ St.SEGMENT_TOO_LONG (paths.any (fun p => decide (262144 < p.worst)))])

/-! ### Tables -/

/-- R45, R99, R273: an entry of the DESCRIPTORS section. -/
def LoadCtx.descFault (x : LoadCtx) (e : Bytes) : Option Nat :=
  if allZero e then none
  else match parseDesc e with
    | some d => refuseIf St.FORMAT_FAULT (x.noFmt d.fmt)
    | none => some St.FORMAT_FAULT

/-- R256: the BARRIERS section. -/
def LoadCtx.barrierFault (x : LoadCtx) (t : Bytes) : Option Nat :=
  if t.length < 2048 then some St.FORMAT_FAULT
  else firstUpTo 256 (fun g =>
    let o := fieldAt t (8 * g) 4
    let n := fieldAt t (8 * g + 4) 2
    let l := coreList t o n
    refuseIf St.FORMAT_FAULT (fieldAt t (8 * g + 6) 2 != 0 || (n != 0 && decide (t.length < o + 2 * n)) ||
      l.any (fun c => decide (4 * x.tiles ≤ c)) || (List.range (n - 1)).any (fun i => decide (l.getD (i + 1) 0 ≤ l.getD i 0))))

/-- R252: the KNOCKS section. -/
def knockFault (e : Bytes) : Option Nat :=
  let w := fieldAt e 0 8
  refuseIf St.FORMAT_FAULT (decide (25 < bitsOf w 4 0) || bitsOf w 7 6 != 0 || bitsOf w 31 16 == 0 || bitsOf w 63 32 != 0)

/-- R255: the PHASES section. -/
def phaseFault (e : Bytes) : Option Nat :=
  let p := decodePhase e
  refuseIf St.FORMAT_FAULT (decide (7 < p.kind) || decide (4 < p.opMin) || decide (4 < p.opMax) || decide (p.opMax < p.opMin) ||
    fieldAt e 1 1 != 0 || fieldAt e 12 4 != 0)

/-- R257: entry `i` of the REDUCTIONS section. (Log 34: DEDUCED.) -/
def LoadCtx.redFault (x : LoadCtx) (t : Bytes) (i : Nat) : Option Nat :=
  let r := x.h.reductions.getD i {}
  let off := fieldAt t (24 * i + 4) 4
  let same := (List.range i).any (fun j =>
    let q := x.h.reductions.getD j {}
    q.tag == r.tag && overlaps q.dst (64 * q.lines) r.dst (64 * r.lines))
  refuseIf St.FORMAT_FAULT (r.dst % 64 != 0 || r.lines == 0 || r.srcs == [] || decide (t.length < off + 2 * r.srcs.length) ||
    x.h.placeBad x.tiles r.dst (64 * r.lines) || r.srcs.any (fun c => decide (4 * x.tiles ≤ c)) ||
    (List.range (r.srcs.length - 1)).any (fun k => decide (r.srcs.getD (k + 1) 0 ≤ r.srcs.getD k 0)) ||
    fieldAt t (24 * i + 20) 4 != 0 || same)

/-- R258: staging space of every slice. -/
def LoadCtx.stagingShort (x : LoadCtx) : Bool :=
  (List.range x.tiles).any (fun j =>
    let need := x.h.reductions.foldl (fun n r =>
      n + r.srcs.length * 72 * ((List.range r.lines).filter (fun l =>
        match larderPlace (r.dst + 64 * l) x.tiles x.h.localPages x.h.cachePages with
        | some q => q.1 == j
        | none => false)).length) 0
    decide (x.h.stagePages * 4096 < need))

/-- R259: an entry of the VARIANT_INDEX section. -/
def LoadCtx.variantFault (x : LoadCtx) (e : Bytes) : Option Nat :=
  refuseIf St.FORMAT_FAULT (decide (fieldAt e 4 4 < fieldAt e 0 4) || decide (x.h.variants ≤ fieldAt e 8 2) || fieldAt e 10 2 != 0)

/-- R265: tap `i`. (Log 33: DEDUCED.) -/
def LoadCtx.tapFault (x : LoadCtx) (t : Bytes) (i : Nat) : Option Nat :=
  let a := x.h.taps.getD i {}
  let clash := (List.range i).any (fun j =>
    let b := x.h.taps.getD j {}
    a.role == b.role && (a.role != 2 || a.layer == b.layer) && overlaps a.digestAddr a.len b.digestAddr b.len)
  refuseIf St.FORMAT_FAULT (a.base % 64 != 0 || a.len % 64 != 0 || a.digestAddr % 64 != 0 || a.len == 0 ||
    !([2, 3, 5].contains (spaceOf a.base)) || decide (x.h.phaseCount ≤ a.phase) ||
    (a.role == 2 && decide (x.h.layers ≤ a.layer)) || decide (2 < a.role) || decide (1 < a.dir) ||
    fieldAt t (32 * i + 3) 1 != 0 || fieldAt t (32 * i + 6) 2 != 0 || clash)

/-- R570: a table of `n`-byte entries, `lo` to `hi` of them. -/
def countBad (t : Bytes) (n lo hi : Nat) : Bool :=
  t.length % n != 0 || decide (t.length / n < lo) || decide (hi < t.length / n)

/-- Each entry of a table of `n`-byte entries. -/
def eachEntry (t : Bytes) (n : Nat) (f : Bytes → Option Nat) : Option Nat :=
  firstUpTo (t.length / n) (fun i => f (slice t (n * i) n))

/-! ### Currier tables (R279-R292, R302) -/

/-- R289: a coefficient set. -/
def setFault (b : Bytes) : Option Nat :=
  let c := decodeSet b
  let word := fun (w : Word) => f32 w
  let eps := match word c.eps with
    | .fin neg m _ => !neg || decide (m = 0)
    | _ => false
  let beta := match word c.beta with
    | .fin neg m _ => (!neg || decide (m = 0)) && (word c.beta).lt (f32 one32)
    | _ => false
  let used := if c.kind = 1 then c.iters else 0
  refuseIf St.FORMAT_FAULT (decide (c.kind = 0) || decide (3 < c.kind) || fieldAt b 2 2 != 0 || !allZero (slice b 0xD0 48) ||
    (if c.kind = 3 then c.iters != 0 else decide (c.iters = 0) || decide (16 < c.iters)) || !eps || !(word c.outScale).isFin ||
    (if c.kind = 2 then !beta else c.beta != 0) || !allZero (slice b (16 + 12 * used) (192 - 12 * used)))

/-- R300, R302: the largest message of a PACK job. -/
def CurJob.maxMessage (j : CurJob) : Nat :=
  let chunk := match j.mode % 4 with
    | 1 => (4 + j.k / 2 * 7 + 3) / 4 * 4
    | 2 => 520
    | _ => 8196
  32 + chunk * min j.cpm j.chunkCount

/-- Messages of a PACK job. -/
def CurJob.messages (j : CurJob) : Nat := (j.chunkCount + j.cpm - 1) / j.cpm

/-- R279-R290, R302, R571: the checks of job `i` of the Currier tables of partition `px`. All four descriptor indices must
name an entry, whatever the job's kind uses. (Log 32: DESIGN CHOICE.) -/
def LoadCtx.jobChecks (x : LoadCtx) (px : PartSt) (groups : List Nat) (b : Bytes) (i : Nat) : Checks :=
  let c := x.h.cur
  let j := c.jobs.getD i {}
  let earlier := (List.range i).map (fun k => c.jobs.getD k {})
  let others := ((List.range c.jobs.length).filter (fun k => k != i)).map (fun k => c.jobs.getD k {})
  let setKind := match j.kind with
    | 1 => 1
    | 2 => 2
    | 3 => 2
    | 4 => 2
    | 7 => 3
    | _ => 0
  let setBad := setKind != 0 && (match c.sets[j.set]? with
    | some q => q.kind != setKind
    | none => true)
  let matrix := decide (1 ≤ j.kind) && decide (j.kind ≤ 4)
  let voted := j.kind == 5 || j.kind == 6
  let pwinBad := matrix && (j.pwin % 256 != 0 || decide (2 ^ 21 < j.pwin + 2 ^ 19) || (px.heldCores j).any (fun k =>
    let p := x.h.progs.getD (px.indexOf k) {}
    overlaps j.pwin (2 ^ 19) p.instrBase p.instrLen || overlaps j.pwin (2 ^ 19) p.recBase p.recLen))
  let (m, n) := match x.desc j.source with
    | some d => (d.rows, d.k)
    | none => (0, 0)
  let mirror := fun (q : CurJob) => q.kind == 6 && q.chunkFirst == j.chunkFirst && q.chunkCount == j.chunkCount &&
    q.cpm == j.cpm && q.msgFirst == j.msgFirst
  [ checkAt 0 St.FORMAT_FAULT (j.kind == 0 || decide (7 < j.kind)),
    checkAt 1 St.FORMAT_FAULT (decide (16 ≤ j.mode) || ((j.kind == 1 || j.kind == 4) && j.mode % 4 == 3) ||
      (j.kind == 6 && j.mode % 4 == 0) || (j.kind == 7 && bitOf j.mode 3 && c.stageSlots == 0)),
    checkAt 3 St.FORMAT_FAULT (fieldAt b 3 1 != 0),
    checkAt 4 St.FORMAT_FAULT (j.arrival == 0),
    checkAt 4 St.CURRIER_UNAVAILABLE (earlier.any (fun q => q.group == j.group && q.arrival == j.arrival)),
    checkAt 6 St.FORMAT_FAULT setBad,
    checkAt 0xA St.FORMAT_FAULT (j.roomCount == 0),
    checkAt 0xA St.CURRIER_UNAVAILABLE (decide (px.rooms.length < j.roomFirst + j.roomCount)),
    checkAt 0xC St.FORMAT_FAULT (x.desc j.inp).isNone,
    checkAt 0xE St.FORMAT_FAULT (x.desc j.out).isNone,
    checkAt 0x10 St.FORMAT_FAULT (x.desc j.aux).isNone,
    checkAt 0x12 St.FORMAT_FAULT (x.desc j.aux2).isNone,
    checkAt 0x14 St.FORMAT_FAULT (voted && (x.h.voteBase.isNone || decide (x.h.voteGroups ≤ j.vgroup))),
    checkAt 0x16 St.FORMAT_FAULT (voted && decide (groups.getD j.vgroup 0 ≤ j.slot)),
    checkAt 0x1C St.FORMAT_FAULT (decide (5 ≤ j.kind) && j.chunkCount == 0),
    checkAt 0x20 St.FORMAT_FAULT (j.kind == 6 && j.mode % 4 == 1 && (j.k % 2 != 0 || j.k == 0 || decide (1024 < j.k))),
    checkAt 0x22 St.FORMAT_FAULT ((decide (6 ≤ j.kind) && j.cpm == 0) || (j.kind == 6 && decide (16384 < j.maxMessage))),
    checkAt 0x24 St.FORMAT_FAULT (j.kind == 6 && earlier.any (fun q => q.kind == 6 &&
      overlaps q.msgFirst q.messages j.msgFirst j.messages)),
    checkAt 0x24 St.FORMAT_FAULT (j.kind == 7 && (others.filter mirror).length != 1),
    checkAt 0x28 St.FORMAT_FAULT (x.h.placeBad x.tiles j.done 8),
    checkAt 0x30 St.CURRIER_SCRATCH (matrix && x.h.placeBad x.tiles j.scratch (j.scratchLen m n)),
    checkAt 0x38 St.FORMAT_FAULT pwinBad,
    checkAt 0x3C St.FORMAT_FAULT (fieldAt b 0x3C 4 != 0)]

/-- R292: pair `i`. -/
def LoadCtx.pairFault (x : LoadCtx) (cap : Nat) (b : Bytes) (i : Nat) : Option Nat :=
  let ps := x.h.cur.pairs
  let e := ps.getD i {}
  let lo := x.h.cacheBaseGib * gib
  let n := (x.h.cacheLimitGib - x.h.cacheBaseGib) * gib
  let bufs := (List.range i).flatMap (fun k => [((ps.getD k {}).aBase, (ps.getD k {}).len), ((ps.getD k {}).bBase, (ps.getD k {}).len)])
  let bad := fun (base : Nat) => decide (cap < base + e.len) || overlaps base e.len lo n || base % 256 != 0 ||
    bufs.any (fun q => overlaps base e.len q.1 q.2)
  refuseIf St.FORMAT_FAULT (bad e.aBase || bad e.bBase || overlaps e.aBase e.len e.bBase e.len || e.len % 256 != 0 || e.len == 0 ||
    decide (4 ≤ fieldAt b 0x18 1) || !allZero (slice b 0x19 7))

/-- R288, R290, R309: the checks of the header of the CURRIER_TABLES section. -/
def LoadCtx.currierHead (x : LoadCtx) (pcount : Nat) (t : Bytes) : Checks :=
  let c := x.h.cur
  let fits := fun (off count n : Nat) => decide (t.length < fieldAt t off 4 + n * fieldAt t count 2)
  [ checkAt 0 St.FORMAT_FAULT (decide (t.length < 64) || decide (4096 < fieldAt t 0 2)),
    checkAt 2 St.FORMAT_FAULT (decide (256 < fieldAt t 2 2)),
    checkAt 4 St.FORMAT_FAULT (decide (4096 < fieldAt t 4 2)),
    checkAt 6 St.FORMAT_FAULT (fieldAt t 6 2 != 0),
    checkAt 8 St.FORMAT_FAULT (fits 8 0 64),
    checkAt 0xC St.FORMAT_FAULT (fits 0xC 2 256),
    checkAt 0x10 St.FORMAT_FAULT (fits 0x10 4 32),
    checkAt 0x14 St.FORMAT_FAULT (fieldAt t 0x14 4 != 0),
    checkAt 0x20 St.FORMAT_FAULT (c.rslots == 0 || decide (256 < c.rslots)),
    checkAt 0x22 St.FORMAT_FAULT (c.pmax == 0 || decide (1024 < c.pmax) ||
      x.h.placeBad x.tiles c.recvBase (16384 * c.pmax * c.rslots)),
    checkAt 0x22 St.EXCHANGE_SIZE (decide (c.pmax < pcount)),
    checkAt 0x28 St.FORMAT_FAULT (x.h.placeBad x.tiles c.stageBase (16384 * c.stageSlots)),
    checkAt 0x30 St.FORMAT_FAULT (x.h.placeBad x.tiles c.release 8),
    checkAt 0x38 St.FORMAT_FAULT (fieldAt t 0x38 8 != 0)]

/-- R288-R292: the CURRIER_TABLES section: its header, then the sets, the pairs and the jobs where its offsets place them. -/
def LoadCtx.currierFault (x : LoadCtx) (px : PartSt) (groups : List Nat) (cap pcount : Nat) (t : Bytes) : Option Nat :=
  match (x.currierHead pcount t).first with
  | some f => some f
  | none => Checks.first (
      (List.range (fieldAt t 2 2)).map (fun i => let o := fieldAt t 12 4 + 256 * i; (o, setFault (slice t o 256))) ++
      (List.range (fieldAt t 4 2)).map (fun i => let o := fieldAt t 16 4 + 32 * i; (o, x.pairFault cap (slice t o 32) i)) ++
      (List.range (fieldAt t 0 2)).flatMap (fun i =>
        let o := fieldAt t 8 4 + 64 * i
        (x.jobChecks px groups (slice t o 64) i).shift o))

/-- R297: the VOTE_LIMITS section. (Log 33: DEDUCED.) -/
def LoadCtx.voteFault (x : LoadCtx) (t : Bytes) : Option Nat :=
  let n := fieldAt t 0 2
  if t.length < 256 + 256 * n ∨ n = 0 ∨ 4096 < n ∨ !allZero (slice t 2 254) then some St.FORMAT_FAULT
  else firstUpTo n (fun g =>
    let b := slice t (256 + 256 * g) 256
    let w := fun (o : Nat) => fieldAt b o 1
    Checks.first [
      checkAt 4 St.FORMAT_FAULT (decide (w 4 = 0) || decide (32 < w 4) || decide (w 5 = 0) || decide (32 < w 5) || decide (32 < w 6) ||
        decide (31 < w 7) || fieldAt b 8 2 == 0 || fieldAt b 10 2 != 0),
      checkAt 0x90 St.ADDR_FAULT (x.h.placeBad x.tiles (fieldAt b 0x90 8) (8 * fieldAt b 8 2)),
      checkAt 0x98 St.FORMAT_FAULT (!allZero (slice b 0x98 104))])

/-- R340-R342: the DISPATCH section. -/
def LoadCtx.dispatchFault (x : LoadCtx) (t : Bytes) : Option Nat :=
  let n := fieldAt t 0 2
  let off := fieldAt t 4 4
  let lm := fieldAt t 8 8
  let spans := fun (r : Route) => [(r.slotTab, r.experts * r.cap * 8), (r.retTab, r.topk * r.tokens * 8),
    (r.gate, r.topk * r.tokens * 4), (r.stats, 64)]
  if t.length < 64 ∨ n = 0 ∨ 16384 < n ∨ off % 32 ≠ 0 ∨ t.length < off + 96 * n ∨ fieldAt t 2 2 ≠ 0 ∨ !allZero (slice t 16 48) ∨
      lm % 64 ≠ 0 ∨ x.h.placeBad x.tiles lm 128 then some St.FORMAT_FAULT
  else firstUpTo n (fun i =>
    let b := slice t (off + 96 * i) 96
    let r := x.routes.getD i {}
    let places := spans r ++ [(r.combine, r.topk * r.tokens * r.rowBytes)] ++
      (if bitOf r.flags 0 then [(r.mask, (r.tokens + 7) / 8)] else [])
    let offs := [r.slotTab, r.retTab, r.gate, r.combine, r.stats] ++ (if bitOf r.flags 0 then [r.mask] else [])
    let clash := (List.range i).any (fun k =>
      let q := x.routes.getD k {}
      q.variant == r.variant && (spans q).any (fun u => (spans r).any (fun v => overlaps u.1 u.2 v.1 v.2)))
    refuseIf St.FORMAT_FAULT (decide (1023 < r.layer) || decide (x.h.variants ≤ r.variant) || decide (r.experts < 2) ||
      decide (512 < r.experts) || decide (r.topk = 0) || decide (8 < r.topk) || decide (r.experts < r.topk) ||
      decide (4 ≤ r.flags) || r.tokens == 0 || r.cap == 0 || r.rowBytes % 64 != 0 || decide (0xFFFFFFFE < r.experts * r.cap) ||
      fieldAt b 0x34 4 != 0 || !allZero (slice b 0x48 24) || offs.any (fun o => o % 64 != 0) ||
      places.any (fun q => x.h.placeBad x.tiles q.1 q.2) || clash))

/-! ### The order of the checks -/

/-- Placement of the tables the header names, with their whole extents. -/
def LoadCtx.basesBad (x : LoadCtx) : Bool :=
  let h := x.h
  let bad := fun (o n : Nat) => x.h.placeBad x.tiles o n
  bad h.descBase (48 * h.descCount) || (h.qcfgCount != 0 && bad h.qcfgBase (32 * h.qcfgCount)) ||
    (h.qstateCount != 0 && bad h.qstateBase (128 * h.qstateCount)) || h.statsIdx.any (fun i => bad (h.statsBase + 48 * i) 48) ||
    bad h.timelogBase (64 + 16 * 2 ^ h.timelogLog2) || (h.taps != [] && bad h.tapBase (16 * h.taps.length)) || bad h.selectOffset 4

/-- R205, R198, R174, R183, R227, R311, R339: what the header and the registers decide, before any section.
(Log 32: DEDUCED.) -/
def State.headerFault (s : State) (p : Nat) (x : LoadCtx) : Option Nat :=
  let h := x.h
  let xg := s.xgRegs p
  let cap := s.cellCap p
  let area := fun (b n : Fld) => (s.fld b p 0 * gib, s.fld n p 0 * gib)
  let j := area F.TACK_JRNL_AREA_BASE_GIB F.TACK_JRNL_AREA_SIZE_GIB
  let k := area F.TACK_CKPT_AREA_BASE_GIB F.TACK_CKPT_AREA_SIZE_GIB
  let taken := (h.cacheBaseGib * gib, (h.cacheLimitGib - h.cacheBaseGib) * gib) ::
    (if h.stackView then [(h.stackBaseGib * gib, 512 * gib)] else []) ++
    h.cur.pairs.flatMap (fun e => [(e.aBase, e.len), (e.bBase, e.len)])
  let badArea := fun (a : Nat × Nat) => decide (0 < a.2) && (decide (cap < a.1 + a.2) || taken.any (fun q => overlaps a.1 a.2 q.1 q.2))
  firstOf [
    refuseIf St.FORMAT_FAULT (h.localPages % 16 != 0 || h.cachePages % 16 != 0 || decide (3072 < h.localPages + h.cachePages)),
    refuseIf St.FORMAT_FAULT (decide (h.cacheLimitGib < h.cacheBaseGib) ||
      (decide (h.cacheBaseGib < h.cacheLimitGib) && (decide (s.cellLen p < h.cacheLimitGib * gib) || h.cachePages == 0))),
    refuseIf St.STACK_VIEW_RANGE (h.stackView && decide (cap < h.stackBaseGib * gib + 512 * gib)),
    refuseIf St.ADDR_FAULT x.basesBad,
    refuseIf St.HALL_NO_SLOTS (s.sharedMode && (s.ownLanes p).isEmpty),
    refuseIf St.EXCHANGE_SIZE (decide (xg.pcount = 0) || decide (1024 < xg.pcount) || decide (xg.pcount ≤ xg.ordinal)),
    refuseIf St.JOURNAL_RANGE (badArea j || badArea k || overlaps j.1 j.2 k.1 k.2)]

/-- An INIT_DATA section: every byte within the partition's spaces and outside every program region. -/
def State.initFault (s : State) (p : Nat) (q : Sect) : Option Nat :=
  let x := s.part p
  let one := fun (addr : Nat) => (pieces addr q.size).any (fun pc =>
    match s.resolve p .agent pc.1 pc.2 with
    | .ok (.pantry k) => x.inProgram (k / 2 ^ 21) (k % 2 ^ 21) pc.2
    | .ok _ => false
    | .error _ => true)
  let bad := match spaceOf q.dest with
    | 0 => decide (2 ^ 21 < q.dest + q.size) || x.cores.any (fun c => x.inProgram c q.dest q.size)
    | 1 => one q.dest
    | 2 => one q.dest
    | 3 => one q.dest
    | _ => true
  refuseIf St.ADDR_FAULT bad

/-- A section placed at DEST in the larder. -/
def LoadCtx.destBad (x : LoadCtx) (q : Sect) : Bool := spaceOf q.dest != 2 || x.h.placeBad x.tiles (lardOff q.dest) q.size

/-- The checks of one section; `s` already holds the new harness for the partition's address translation. -/
def State.sectFault (s : State) (p : Nat) (x : LoadCtx) (q : Sect) : Option Nat :=
  let t := Img.body x.img q
  let each := fun (n lo hi : Nat) (f : Bytes → Option Nat) =>
    firstOf [refuseIf St.FORMAT_FAULT (countBad t n lo hi), eachEntry t n f]
  let groups := (List.range x.h.voteGroups).map (fun g => fieldAt (Img.table x.img 14) (256 + 256 * g + 8) 2)
  match q.typ with
  | 1 => x.progFault q.item t
  | 2 => each 48 0 (2 ^ 64) x.descFault
  | 3 => each 32 0 (2 ^ 64) (fun e => refuseIf St.FORMAT_FAULT (qcfgBad e || decide (x.h.qstateCount ≤ fieldAt e 8 4)))
  | 4 => each 128 0 (2 ^ 64) (fun e => refuseIf St.FORMAT_FAULT (qstateBad e))
  | 5 => x.barrierFault t
  | 6 => each 8 0 (2 ^ 64) knockFault
  | 7 => each 16 0 256 phaseFault
  | 8 => firstOf [refuseIf St.FORMAT_FAULT (t.length % 24 != 0),
      firstUpTo x.h.reductions.length (x.redFault t), refuseIf St.STAGING_SHORT x.stagingShort]
  | 9 => each 12 1 64 x.variantFault
  | 10 => firstOf [refuseIf St.FORMAT_FAULT (countBad t 32 1 256), firstUpTo (t.length / 32) (x.tapFault t)]
  | 12 => firstOf [refuseIf St.ADDR_FAULT (x.destBad q),
      x.currierFault (s.part p) groups (s.cellCap p) (s.xgRegs p).pcount t]
  | 13 => firstOf [refuseIf St.ADDR_FAULT (x.destBad q), x.dispatchFault t]
  | 14 => firstOf [refuseIf St.ADDR_FAULT (x.destBad q), x.voteFault t]
  | 15 => s.initFault p q
  | _ => none

/-- Order 6 of R248: the header's own checks, then every section in table order. (Log 32: DEDUCED.) -/
def State.contentFault (s : State) (p : Nat) (b : Bytes) : Option Nat :=
  let h := Img.harness b
  let d := Img.table b 2
  let descs := (List.range h.descCount).map (fun i =>
    let e := slice d (48 * i) 48
    if allZero e then none else parseDesc e)
  let x : LoadCtx := ⟨b, h, (s.part p).tiles.length, descs, Img.routes b⟩
  let s := s.modPart p (fun y => { y with harn := some h })
  match s.headerFault p x with
  | some f => some f
  | none => (Img.sects b).findSome? (s.sectFault p x)

end Sys2Proof.Machine
end

