-- ==== Sys2Proof/Machine/Load.lean ====
section
/-! DEFINITION. LOAD_HARNESS: its order (R248), unloading (R186, R249), placement (R243, R246, R343) and the state it leaves
(R205, R206, R250, R275, R316, R317, R333, R450). -/

namespace Sys2Proof.Machine
open Sys2Proof

/-- R410: the data bursts of a request: 4 KiB each, in shared mode one slot of 256 B. LOAD_HARNESS reads its image twice; of the
requests of long runs only the parameter record is counted. (Log 157: DESIGN CHOICE.) -/
def State.burstsDue (s : State) (fn : Nat) (q : Req) : Nat :=
  let size := if s.sharedMode then 256 else 4096
  let of := fun (addr n : Nat) =>
    if spaceOf addr ≠ 5 then 0
    else match s.resolve fn .agent addr (max 1 n) with
      | .ok _ => (n + size - 1) / size
      | .error _ => 0
  match q.op with
  | 1 => 2 * of q.arg0 q.len
  | 3 => of q.arg0 q.len + of q.arg1 q.len
  | 4 => of q.arg0 64
  | 5 => of q.arg0 64
  | 6 => of q.arg0 64
  | 7 => of q.arg0 64
  | 8 => if fn = 512 then 1 else of q.arg1 q.len
  | _ => 0

/-- The request in progress on ring `r` of function `fn`, when its opcode is `op`, its work has not ended, and the arbiter has
granted its data bursts (R410). -/
def State.opReq (s : State) (fn r op : Nat) : Option Req :=
  match s.req (ringKey fn r) with
  | some q => if q.op = op ∧ q.status.isNone ∧ s.burstsDue fn q ≤ q.bursts then some q else none
  | none => none

/-- R389: an access of the request on a ring to a host window waits from now on. -/
def State.hostWait (s : State) (key : Nat) : State :=
  match s.req key with
  | some q => s.setReq key (some { q with hostSince := q.hostSince.orElse (fun _ => some s.mono) })
  | none => s

/-- R395: a step of the partition runs, from the start of a RUN_STEPS request, or of a REPLAY, to its completion. -/
def PartSt.stepRuns (x : PartSt) : Bool := x.run.isSome || x.replaying || x.running

/-- R449: the lead partition of a physical room: the one with most of its tiles, the lower number on a tie. -/
def State.leadPart (s : State) (pr : Nat) : Option Nat :=
  let lr := s.logRoom pr
  let n := fun (e : Nat × PartSt) => (e.2.tiles.filter (fun t => t / 32 == lr)).length
  (s.parts.foldl (fun (best : Option (Nat × Nat)) e =>
    if n e = 0 then best
    else match best with
      | none => some (e.1, n e)
      | some b => if b.2 < n e then some (e.1, n e) else best) none).map Prod.fst

/-- R450: the starting history of every room the partition leads. -/
def State.reinPlan (s : State) (p : Nat) : State :=
  let x := s.part p
  let plan := fun (n : Nat) => match x.harness.phases[n]? with
    | some e => if x.harness.abi = 2 then (85 : Rat) else min 85 ((e.planW * 32 : Nat) / ((max 1 x.tiles.length : Nat) : Rat))
    | none => 85
  let rooms := (List.range 100).filter (fun pr => s.logRoom pr != 0xFF && s.leadPart pr == some p)
  { s with rein := { s.rein with hist := rooms.foldl (fun t pr =>
      (List.range 256).foldl (fun t n => tput t (256 * pr + n) (plan n) 85) t) s.rein.hist } }

/-- Registers that read 0 while the partition holds no harness (R205, R206, R275). -/
def State.clearHarnessRegs (s : State) (p : Nat) : State :=
  let s := [RG.LARD_LAYOUT, RG.LARD_SLICES, RG.LARD_CACHE_WIN, RG.CELL_STACK_BASE, RG.TACK_HARN_STAT,
    RG.TACK_HARN_VERSION_LO, RG.TACK_HARN_VERSION_HI, RG.TACK_HARN_SEED_LO, RG.TACK_HARN_SEED_HI].foldl
      (fun (s : State) r => s.setReg r p 0 0) s
  let s := (List.range 8).foldl (fun (s : State) w => s.setReg RG.TACK_HARN_DIGEST p w 0) s
  s.setFld F.CELL_PART_CFG_STACK_VIEW p 0 0

/-- The registers a load sets. -/
def State.setHarnessRegs (s : State) (p : Nat) : State :=
  let x := s.part p
  let h := x.harness
  let s := (s.setFld F.LARD_LAYOUT_LOCAL_PAGES p 0 h.localPages).setFld F.LARD_LAYOUT_CACHE_PAGES p 0 h.cachePages
  let s := s.setFld F.LARD_SLICES_COUNT p 0 x.tiles.length
  let s := (s.setFld F.LARD_CACHE_WIN_BASE_GIB p 0 h.cacheBaseGib).setFld F.LARD_CACHE_WIN_LIMIT_GIB p 0 h.cacheLimitGib
  let s := (s.setFld F.CELL_PART_CFG_STACK_VIEW p 0 (b2n h.stackView)).setFld F.CELL_STACK_BASE_BASE_GIB p 0 h.stackBaseGib
  let s := ((s.setFld F.TACK_HARN_STAT_LOADED p 0 1).setFld F.TACK_HARN_STAT_ABI p 0 h.abi).setFld F.TACK_HARN_STAT_ORDERED p 0 (b2n h.ordered)
  let s := s.setReg64 RG.TACK_HARN_VERSION_LO RG.TACK_HARN_VERSION_HI p 0 h.version
  let s := (List.range 8).foldl (fun (s : State) w => s.setReg RG.TACK_HARN_DIGEST p w (fieldAt h.digest (4 * w) 4)) s
  s.setReg64 RG.TACK_HARN_SEED_LO RG.TACK_HARN_SEED_HI p 0 h.jobSeed

/-- Order 7 of R248: the previous harness leaves, its cache written back. -/
def State.unload (s : State) (p : Nat) : State :=
  let s := (s.flushCache p).forCores p CoreSt.endAttempt
  (s.clearHarnessRegs p).modPart p (fun x => { x with harn := none, xgc := none, running := false, closed := false })

/-- R246: a program placed in the pantry of its core. -/
def State.placeProgram (s : State) (p i : Nat) (pb : Bytes) : State :=
  let c := (s.part p).coreAt i
  let h := decodeHdr pb
  let s := s.writeLoc p (.pantry (pantryKey c h.instrBase)) (slice pb 128 h.instrLen) false
  s.writeLoc p (.pantry (pantryKey c h.recBase)) (slice pb (128 + h.instrLen) h.recLen) false

/-- INIT_DATA: bytes copied to a device address, in space 0x0 into every core of the partition. -/
def State.placeInit (s : State) (p dest : Nat) (bs : Bytes) : State :=
  if spaceOf dest = 0 then
    (s.part p).cores.foldl (fun (s : State) c => s.writeLoc p (.pantry (pantryKey c dest)) bs false) s
  else
    (pieces dest bs.length).foldl (fun (s : State) pc =>
      match s.resolve p .agent pc.1 pc.2 with
      | .ok l => s.writeLoc p l (slice bs (pc.1 - dest) pc.2) false
      | .error _ => s) s

/-- Order 8: the second pass places a section, its bytes taken from the image as read then. -/
def State.placeSect (s : State) (p : Nat) (img : Bytes) (q : Sect) : State :=
  let t := Img.body img q
  let h := (s.part p).harness
  match q.typ with
  | 1 => s.placeProgram p q.item t
  | 2 => s.setLard p h.descBase t
  | 3 => s.setLard p h.qcfgBase t
  | 4 => s.setLard p h.qstateBase t
  | 12 => s.setLard p (lardOff q.dest) t
  | 13 => s.setLard p (lardOff q.dest) t
  | 14 => s.setLard p (lardOff q.dest) t
  | 15 => s.placeInit p q.dest t
  | _ => s

/-- R343: the template of a route. -/
def State.routeTemplate (s : State) (p : Nat) (r : Route) : State :=
  let table := fun (s : State) (base outer inner : Nat) => (List.range outer).foldl (fun (s : State) a =>
    s.setLard p (base + 8 * a * inner) ((List.range inner).flatMap (fun b => leBytes 4 0xFFFFFFFF ++ leBytes 4 b))) s
  let s := table (table s r.slotTab r.experts r.cap) r.retTab r.topk r.tokens
  (s.setLard p r.gate (List.replicate (r.topk * r.tokens * 4) 0)).setLard p r.stats (List.replicate 64 0)

/-- R249: after a refusal at order 8 the pantries and the larder of the partition, and the cellar bytes INIT_DATA names,
hold open values. (Log 38: DESIGN CHOICE.) -/
def State.openPart (s : State) (p : Nat) (img : Bytes) : State :=
  let s := (s.part p).tiles.foldl (fun (s : State) t =>
    let r := s.openCells s.pantry (t * 2 ^ 23) (2 ^ 23)
    let s := { r.1 with pantry := r.2 }
    let r := s.openCells s.larder (t * sliceBytes) sliceBytes
    { r.1 with larder := r.2 }) s
  ((Img.sects img).filter (fun q => q.typ == 15 && spaceOf q.dest == 3)).foldl (fun (s : State) q =>
    let r := s.freeBytes q.size
    r.1.placeInit p q.dest r.2) s

/-- R250, R316, R317, R333: the partition as a completed load leaves it. (Log 37: DEDUCED.) -/
def PartSt.loaded (x : PartSt) (h : Harness) : PartSt :=
  { x with
    harn := some h, step := 0, attempt := 0, variant := 0, vote := 0, finalVote := 0, running := false, closed := false
    qsnap := [], efUsed := [], select := 0, stopped := none, flrHold := false, tapPartial := [], failedArrays := []
    failedRooms := [], jobs := [], jobsRun := [], xg := {}, tail := none, audit := []
    long := { x.long with seq := 0, marks := [], largest := 0, attemptStart := 0, lost := [], ranges := none, replay := none } }

/-- Orders 7-9 of R248 on a checked image `img`, read again as `img2`: the state and the status. (Log 37: DEDUCED.) -/
def State.placeImage (s : State) (p : Nat) (img img2 : Bytes) : State × Nat :=
  let h := Img.harness img
  let s := s.unload p
  if sha256 (img2.take (Img.size img)) ≠ h.digest then
    (((s.modPart p (fun x => { x with harn := some h })).openPart p img).modPart p (fun x => { x with harn := none }), St.DIGEST_MISMATCH)
  else
    let c := s.xgRegs p
    let s := s.modPart p (fun x => { x.loaded h with xgc := some c })
    let s := (Img.sects img).foldl (fun (s : State) q => s.placeSect p img2 q) s
    let s := (Img.routes img2).foldl (fun (s : State) r => s.routeTemplate p r) s
    let s := (s.loadResets p).setHarnessRegs p
    let s := ((s.setReg RG.TACK_JRNL_WRITE_LO p 0 0).setReg RG.TACK_JRNL_WRITE_HI p 0 0).setReg RG.TACK_JRNL_STAT p 0 0
    ((s.setReg RG.BRDL_XG_COUNTS p 0 0).reinPlan p, St.OK)

/-- The status a load is refused with at orders 1-6, none when it may go on. (Log 36: DEDUCED.) -/
def State.loadRefusal (s : State) (p : Nat) (addr len : Nat) (img : Bytes) : Option Nat :=
  let x := s.part p
  let out := x.tiles.any (fun t => s.fld F.GLB_ROOM_MAP_OUT_OF_SERVICE 0 (t / 32) == 1)
  let src := spaceOf addr == 5 && (match s.resolve p .agent addr (max 1 len) with
    | .ok _ => true
    | .error _ => false)
  if x.stepRuns then some St.PARTITION_BUSY
  else if out then some St.GEOMETRY_SHORT
  else if !src then some St.ADDR_FAULT
  else match s.imageForm p img len with
    | some f => some f
    | none =>
      if s.sigBad p img then some St.SIG_FAULT
      else if digestBad img then some St.DIGEST_MISMATCH
      else s.contentFault p img

/-- LOAD_HARNESS: the request on ring `ring` of partition `part`; `img` and `img2` are the bytes the two passes read from the
host window. It waits while a snapshot is open (R337) or the port link is down (R389). (Log 36: DEDUCED.) -/
def execLoadHarness (part ring : Nat) (img img2 : Bytes) (t : Nat) (s : State) : Host.Outcome State Fault Refusal :=
  if part < 512 ∧ ring < 128 then
    let s := s.toTime t
    match s.opReq part ring 1 with
    | none => .next s
    | some r =>
      if !s.portServes part then .next (s.hostWait (ringKey part ring))
      else if (s.part part).long.snap.isSome || !s.flushServed part then .next s
      else
        let im := (padTo img r.len).take r.len
        let res := match s.loadRefusal part r.arg0 r.len im with
          | some st => (s, st)
          | none => s.placeImage part im ((padTo img2 r.len).take r.len)
        .next (res.1.endReq (ringKey part ring) res.2)
  else .refused .illFormed

end Sys2Proof.Machine
end

