-- ==== Sys2Proof/Machine/LongRun.lean ====
section
/-! DEFINITION. Requests that run, move or keep a partition's work: RUN_STEPS (R261, R395), COPY (R394), SNAPSHOT (R336-R338),
CHECKPOINT (R324), RESTORE (R328, R329) and REPLAY (R330-R332). -/

namespace Sys2Proof.Machine
open Sys2Proof

/-! ### RUN_STEPS -/

/-- RUN_STEPS: the request starts when no other runs; the select word chooses the first variant. (Log 39: DEDUCED.) -/
def execRunSteps (part ring t : Nat) (s : State) : Host.Outcome State Fault Refusal :=
  if part < 512 ∧ ring < 128 then
    let s := s.toTime t
    let key := ringKey part ring
    let x := s.part part
    match s.opReq part ring 2 with
    | none => .next s
    | some r =>
      if r.started then .next s
      else match x.stopped with
        | some st => .next (s.endReq key st)
        | none =>
          if x.harn.isNone then .next (s.endReq key St.PARTITION_BUSY)
          else if r.arg0 = 0 then .next (s.endReq key St.OP_FAULT)
          else if x.stepRuns then .next s
          else match s.selectVariant part with
            | (_, false) => .next (s.endReq key St.NO_VARIANT)
            | (s, true) =>
              let s := s.setReq key (some { r with started := true })
              .next (s.modPart part (fun x => { x with run := some key }))
  else .refused .illFormed

/-! ### COPY -/

/-- R394: the ends of a COPY. -/
def copyEndsOk (src dst : Nat) : Bool :=
  let inner := fun (a : Nat) => spaceOf a == 1 || spaceOf a == 2 || spaceOf a == 3
  (spaceOf src == 5 && inner dst) || (inner src && spaceOf dst == 5)

/-- HOST_COPY: `read.1` holds the bytes read from the host when the source is a host window, `read.2` is a storage error that
the copy meets (R518). (Log 40: DEDUCED.) -/
def execHostCopy (part ring : Nat) (read : Bytes × Option (Nat × Nat)) (t : Nat) (s : State) : Host.Outcome State Fault Refusal :=
  if part < 512 ∧ ring < 128 then
    let s := s.toTime t
    let key := ringKey part ring
    match s.opReq part ring 3 with
    | none => .next s
    | some r =>
      if r.len = 0 then .next (s.endReq key St.OP_FAULT)
      else if !copyEndsOk r.arg0 r.arg1 then .next (s.endReq key St.ADDR_FAULT)
      else if !s.portServes part then .next (s.hostWait key)
      else if spaceOf r.arg0 = 5 then
        match s.resolve part .agent r.arg0 r.len with
        | .error e => .next (s.endReq key e)
        | .ok _ =>
          if !s.rangeFree part .agent r.arg1 r.len true || !s.jrnlServed part r.len then .next s else
          let s := s.rangeErrors part .agent r.arg0 0 r.arg1 read.2
          let bs := (padTo read.1 r.len).take r.len
          match s.hostPut part r.arg1 bs false with
          | .error e => .next (s.endReq key e)
          | .ok s => .next ((s.jrnl part 5 r.seq 0 r.arg1 bs).endReq key St.OK)
      else
        match s.resolve part .agent r.arg1 r.len with
        | .error e => .next (s.endReq key e)
        | .ok _ =>
          if !s.rangeFree part .agent r.arg0 r.len false then .next s else
          let s := s.rangeErrors part .agent r.arg0 r.len r.arg1 read.2
          let res := foldE (fun (a : State × Bool) pc =>
            match a.1.devRead part .agent pc.1 pc.2 with
            | .error e => .error e
            | .ok (s, bs, m) =>
              if m then .ok (s, true)
              else match s.devWrite part .agent (r.arg1 + (pc.1 - r.arg0)) bs false with
                | .error e => .error e
                | .ok s => .ok (s, a.2)) (s, false) (pieces r.arg0 r.len)
          match res with
          | .error (e : Nat × Nat) => .next (s.endReq key e.1)
          | .ok (s, m) => .next (s.endReq key (if m then St.DATA_UE else St.OK))
  else .refused .illFormed

/-! ### Parameter records (R320) -/

/-- The parameter record of a request: larder bytes, or `ext` when it lies in host memory. (Log 41: DEDUCED.) -/
def State.longParam (s : State) (p addr : Nat) (ext : Bytes) : Except Nat LongParam :=
  let bytes : Except Nat Bytes :=
    if addr % 64 ≠ 0 then .error St.ADDR_FAULT
    else match s.resolve p .agent addr 64 with
      | .error e => .error e
      | .ok _ =>
        if spaceOf addr = 2 then
          match s.devRead p .agent addr 64 with
          | .ok (_, b, m) => if m then .error St.DATA_UE else .ok b
          | .error e => .error e.1
        else if spaceOf addr = 5 then .ok ((padTo ext 64).take 64)
        else .error St.ADDR_FAULT
  match bytes with
  | .error e => .error e
  | .ok b =>
    let q := decodeLongParam b
    if 64 ≤ q.flags ∨ fieldAt b 6 2 ≠ 0 ∨ fieldAt b 0x38 8 ≠ 0 ∨ 16 < q.rangeCount then .error St.OP_FAULT else .ok q

/-- R320, R321: the ranges a record lists, checked: multiples of 256, in spaces 0x0-0x2, and in space 0x3 when `views`.
(Log 41: DEDUCED.) -/
def State.longRanges (s : State) (p : Nat) (q : LongParam) (views : Bool) : Except Nat (Option (List (Nat × Nat))) :=
  match s.listedRanges p q with
  | none => .ok none
  | some l =>
    if l.any (fun r => r.1 % 256 != 0 || r.2 % 256 != 0 || decide ((if views then 3 else 2) < spaceOf r.1)) then .error St.ADDR_FAULT
    else .ok (some l)

/-- A partition may begin a CHECKPOINT, RESTORE, REPLAY or SNAPSHOT (R320). -/
def PartSt.longOk (x : PartSt) : Bool := x.harn.isSome && !x.stepRuns

/-- A request waits for the host port it needs (R389, R409). -/
def State.hostWaits (s : State) (p : Nat) (addrs : List Nat) : Bool := addrs.any (fun a => spaceOf a == 5) && !s.portServes p

/-! ### SNAPSHOT (R336-R338) -/

/-- The end of a snapshot. -/
def State.endSnapshot (s : State) (p : Nat) (g : SnapRun) (status : Nat) : State :=
  let s := s.modPart p (fun x => { x with long := { x.long with snap := none } })
  let s := (s.setBulk g.key none).setFld F.TACK_SNAP_STAT_LAST_STATUS p 0 status
  (s.post Ev.SNAPSHOT_DONE 0x26 p (some p) (leBytes 2 status ++ leBytes 6 0 ++ leBytes 8 g.step)).endReq g.key status

/-- SNAPSHOT. (Log 42: DEDUCED.) -/
def execSnapshot (part ring : Nat) (ext : Bytes) (t : Nat) (s : State) : Host.Outcome State Fault Refusal :=
  if part < 512 ∧ ring < 128 then
    let s := s.toTime t
    let key := ringKey part ring
    let x := s.part part
    match s.opReq part ring 4 with
    | none => .next s
    | some r =>
      if r.started then .next s
      else if !x.longOk then .next (s.endReq key St.PARTITION_BUSY)
      else if s.hostWaits part [r.arg0] then .next (s.hostWait key)
      else match s.longParam part r.arg0 ext with
        | .error e => .next (s.endReq key e)
        | .ok q =>
          if x.long.snap.isSome then .next (s.endReq key St.SNAPSHOT_BUSY)
          else if s.hostWaits part [q.addr] then .next (s.hostWait key)
          else match s.longRanges part q true with
            | .error e => .next (s.endReq key e)
            | .ok ranges =>
              let segs := x.rangeSegs ranges
              let len := (segs.map (fun seg => ((seg.map (fun q => q.2)).foldl (· + ·) 0 + 255) / 256 * 256)).foldl (· + ·) 0
              if q.limit < len + 64 then .next (s.endReq key St.CKPT_SPACE)
              else if spaceOf q.addr ≠ 4 ∧ spaceOf q.addr ≠ 5 then .next (s.endReq key St.ADDR_FAULT)
              else
                let g : SnapRun := { key := key, dest := q.addr, step := x.step, ranges := ranges.getD [], len := len }
                let s := s.setReq key (some { r with started := true })
                let s := s.modPart part (fun x => { x with long := { x.long with snap := some g } })
                match s.readRanges part segs with
                | .error e => .next (s.endSnapshot part g (if e = St.CKPT_DATA_UE then St.DATA_UE else e))
                | .ok body =>
                  let d := lineDigest 0 body
                  let trailer := [0x54, 0x4E, 0x53, 0x4E] ++ leBytes 4 0 ++ leBytes 8 x.step ++ leBytes 8 body.length ++ leBytes 8 d ++
                    sha256 (padTo x.harness.digest 32 ++ leBytes 8 x.step ++ leBytes 8 d)
                  .next (s.startBulk key part q.addr (body ++ trailer))
  else .refused .illFormed

/-- SNAPSHOT_DONE: the destination has acknowledged the trailer, or a fault has ended the stream. -/
def execSnapshotDone (part t : Nat) (s : State) : Host.Outcome State Fault Refusal :=
  if part < 512 then
    let s := s.toTime t
    match (s.part part).long.snap with
    | none => .next s
    | some g =>
      match s.bulk g.key with
      | none => .next s
      | some b => if b.ended then .next (s.endSnapshot part g (b.fault.getD St.OK)) else .next s
  else .refused .illFormed

/-! ### CHECKPOINT (R324) -/

/-- CHECKPOINT: orders 1-6; the request with EXPORT ends with a later CHECKPOINT command, once its stream is acknowledged.
(Log 43: DEDUCED.) -/
def execCheckpoint (part ring : Nat) (ext : Bytes) (t : Nat) (s : State) : Host.Outcome State Fault Refusal :=
  if part < 512 ∧ ring < 128 then
    let s := s.toTime t
    let key := ringKey part ring
    let x := s.part part
    match s.opReq part ring 5 with
    | none => .next s
    | some r =>
      if r.started then
        match s.bulk key with
        | some b => if b.ended then .next ((s.setBulk key none).endReq key (b.fault.getD St.OK)) else .next s
        | none => .next s
      else if !s.flushServed part then .next s
      else if !x.longOk then .next ((s.flushCache part).endReq key St.PARTITION_BUSY)
      else if s.hostWaits part [r.arg0] then .next (s.hostWait key)
      else match s.longParam part r.arg0 ext with
        | .error e => .next ((s.flushCache part).endReq key e)
        | .ok q =>
          if q.export_ && s.hostWaits part [q.addr] then .next (s.hostWait key)
          else if s.fld F.TACK_CKPT_AREA_SIZE_GIB part 0 ≠ 0 ∧ !s.cellarServes part then .next s
          else match s.longRanges part q false with
            | .error e => .next ((s.flushCache part).endReq key e)
            | .ok ranges =>
              -- R186: the cache is written back before the request completes, whatever its status
              let s := (s.flushCache part).modPart part (fun x => { x with long := { x.long with ranges := ranges } })
              match s.writeCheckpoint part q.slot ranges with
              | .error e => .next (e.1.endReq key e.2)
              | .ok (s, body) =>
                if !q.export_ then .next (s.endReq key St.OK)
                else
                  let img := s.exportImage part q.pairs ranges body
                  if q.limit < img.length then .next (s.endReq key St.CKPT_SPACE)
                  else if spaceOf q.addr ≠ 4 ∧ spaceOf q.addr ≠ 5 then .next (s.endReq key St.ADDR_FAULT)
                  else
                    let s := (s.setReq key (some { r with started := true })).startBulk key part q.addr img
                    match s.bulk key with
                    | some b => if b.ended then .next ((s.setBulk key none).endReq key (b.fault.getD St.OK)) else .next s
                    | none => .next s
  else .refused .illFormed

/-! ### RESTORE (R328, R329) -/

/-- R328: RESTORE without IMPORT. -/
def State.restoreSlot (s : State) (p : Nat) (q : LongParam) : State × Nat :=
  match s.chooseSlot p (match q.slot with
    | some i => [i]
    | none => s.validSlots p) with
  | (s, .error st) => (s, st)
  | (s, .ok (i, hdr, cs, body)) => ((s.repairCopies p i hdr body cs).applyImage p i hdr body, St.OK)

/-- R329: RESTORE with IMPORT of the image `img`. -/
def State.restoreImport (s : State) (p : Nat) (img : Bytes) : State × Nat :=
  let x := s.part p
  let hdr := img.take 4096
  let n := fieldAt hdr 0x38 8
  let body := slice img 4096 n
  let h := halfLen n
  let d := fun (i : Nat) => fieldAt hdr (0x40 + 8 * i) 8
  let pairs := bitOf (fieldAt hdr 7 1) 0
  let fresh := [0, 1].any (fun i => (match s.judgeSlot p i with
    | some j => fieldAt j.1 8 8 == fieldAt hdr 8 8
    | none => false) && !(x.ckSlot i).stale)
  if slice hdr 0x10 32 ≠ padTo x.harness.digest 32 then (s, St.HARNESS_MISMATCH)
  else if !ckptIntact hdr 0xFF || body.length != n || lineDigest 0 (body.take h) != d 0 || lineDigest h (body.drop h) != d 1 then
    (s, St.CKPT_DIGEST)
  else if !pairs && !fresh then (s, St.CKPT_STALE)
  else
    let segs := x.rangeSegs (ckptRanges hdr)
    let len := (segs.map (fun seg => ((seg.map (fun q => q.2)).foldl (· + ·) 0 + 255) / 256 * 256)).foldl (· + ·) 0
    let s := s.applyImage p 0xFF hdr body
    if pairs then
      ((x.harness.cur.pairs.mapIdx (fun i e => (i, e))).foldl (fun (a : State × Nat) q =>
        let base := if ckptParity hdr q.1 then q.2.bBase else q.2.aBase
        ((pieces base q.2.len).foldl (fun (s : State) pc =>
          s.writeLoc p (.cellar (s.cellBase p + pc.1)) (slice body (a.2 + (pc.1 - base)) pc.2) false) a.1, a.2 + q.2.len)) (s, len)).1 |>
        fun s => (s, St.OK)
    else (s, St.OK)

/-- RESTORE: `img` holds the image read from ADDR for an IMPORT. -/
def execRestore (part ring : Nat) (ext img : Bytes) (t : Nat) (s : State) : Host.Outcome State Fault Refusal :=
  if part < 512 ∧ ring < 128 then
    let s := s.toTime t
    let key := ringKey part ring
    let x := s.part part
    match s.opReq part ring 6 with
    | none => .next s
    | some r =>
      if x.harn.isSome && x.long.snap.isSome then .next s
      else if !x.longOk then .next (s.endReq key St.PARTITION_BUSY)
      else if s.hostWaits part [r.arg0] then .next (s.hostWait key)
      else match s.longParam part r.arg0 ext with
        | .error e => .next (s.endReq key e)
        | .ok q =>
          if !s.cellarServes part then .next s
          else if q.import_ then
            if s.hostWaits part [q.addr] then .next (s.hostWait key)
            else if spaceOf q.addr ≠ 4 ∧ spaceOf q.addr ≠ 5 then .next (s.endReq key St.ADDR_FAULT)
            else
              let res := s.restoreImport part (img.take q.limit)
              .next (res.1.endReq key res.2)
          else
            let res := s.restoreSlot part q
            .next (res.1.endReq key res.2)
  else .refused .illFormed

/-! ### REPLAY (R330-R332) -/

/-- Entries of a journal given as bytes: each is found at a multiple of 64 by its length and CRC. -/
def parseJournal : Nat → Bytes → List JEnt
  | 0, _ => []
  | fuel + 1, b =>
    if b.length < 64 then []
    else
      let n := fieldAt b 0 4
      let e := b.take n
      let ok := decide (64 ≤ n) && n % 64 == 0 && e.length == n && decide (fieldAt b 4 1 ≤ 10) && decide (64 + fieldAt b 0x30 4 ≤ n) &&
        crc32 (e.take 0x34 ++ leBytes 4 0 ++ e.drop 0x38) == fieldAt b 0x34 4
      if ok then
        ⟨fieldAt b 4 1, fieldAt b 5 1 % 4, fieldAt b 8 8, fieldAt b 16 8, fieldAt b 24 8, fieldAt b 32 8, fieldAt b 40 8,
          slice e 64 (fieldAt b 0x30 4)⟩ :: parseJournal fuel (b.drop n)
      else parseJournal fuel (b.drop 64)

/-- The partition's own journal: every entry not yet overwritten. -/
def State.ownJournal (s : State) (p : Nat) : List JEnt :=
  (s.part p).long.marks.map (fun m => ⟨m.kind, m.attempt, m.step, m.seq, m.key0, m.key1, m.addr, s.jrnlPayload p m⟩)

/-- R331: entries superseded by a RESTORE are left out, as is the RESTORE itself. -/
def liveEntries (es : List JEnt) : List JEnt :=
  es.foldl (fun acc e =>
    if e.kind = 9 then acc.takeWhile (fun q => !(q.kind == 1 && decide (e.key1 ≤ q.step)))
    else if e.kind = 0 then acc else acc ++ [e]) []

/-- The entries of steps `a` to `b`, from the first OPEN of step `a` to the last before an OPEN beyond `b`.
(Log 45: DEDUCED.) -/
def rangeEntries (a b : Nat) (es : List JEnt) : List JEnt :=
  (es.dropWhile (fun e => !(e.kind == 1 && e.step == a))).takeWhile (fun e => !(e.kind == 1 && decide (b < e.step)))

/-- Is every step of the range recorded by complete attempts, in unbroken sequence, the last of each consuming its step?
(Log 45: DEDUCED.) -/
def entriesComplete (a b : Nat) (all es : List JEnt) : Bool :=
  let opens := es.filter (fun e => e.kind == 1)
  let closes := es.filter (fun e => e.kind == 7)
  let seqs := (all.filter (fun e => match es.head?, closes.getLast? with
    | some f, some l => decide (f.seq ≤ e.seq) && decide (e.seq ≤ l.seq)
    | _, _ => false)).map (fun e => e.seq)
  (List.range (b + 1 - a)).all (fun i => closes.any (fun e => e.step == a + i && e.key1 != voteReplay)) &&
    opens.length == closes.length && (List.zip opens closes).all (fun q => q.1.step == q.2.step && q.1.attempt == q.2.attempt) &&
    (match seqs with
      | [] => false
      | f :: _ => (List.range seqs.length).all (fun i => seqs.getD i 0 == f + i))

/-- R182, R330: a loaded program contains FADD, CAS or a returning atomic. -/
def State.hasOrderAtomics (s : State) (p : Nat) : Bool :=
  let x := s.part p
  x.cores.any (fun c =>
    let h := x.hdr c
    let code := memRead s.pantry (pantryKey c h.instrBase) h.instrLen
    (List.range (h.instrLen / 32)).any (fun i =>
      let v := decodeV (slotWord (slice code (32 * i) 32) 1)
      v.vop == 0x21 || v.vop == 0x28 || (decide (0x20 ≤ v.vop) && decide (v.vop ≤ 0x28) && bitOf v.imm 1)))

/-- R332: the result record. -/
def replayRecord (status : Nat) (r : ReplayRun) : Bytes :=
  let d := r.diff.getD ⟨0, 0, 0, 0, 0, 0⟩
  leBytes 2 status ++ leBytes 1 d.kind ++ leBytes 1 d.attempt ++ leBytes 2 d.layer ++ leBytes 2 0 ++ leBytes 8 d.step ++
    leBytes 8 r.done ++ leBytes 8 d.was ++ leBytes 8 d.now ++ List.replicate 24 0

/-- The status a REPLAY of the entries `all` is refused with. -/
def State.replayRefusal (s : State) (p : Nat) (q : LongParam) (all es : List JEnt) : Option Nat :=
  let x := s.part p
  let gap := all.any (fun e => e.kind == 10 && decide (e.key0 ≤ q.toStep) && decide (q.fromStep ≤ e.key1))
  firstOf [
    refuseIf St.REPLAY_RANGE (x.step != q.fromStep || decide (q.toStep < q.fromStep)),
    refuseIf St.HARNESS_MISMATCH (es.any (fun e => e.kind == 1 && e.payload.take 32 != padTo x.harness.digest 32)),
    refuseIf St.JOURNAL_GAP (gap || !entriesComplete q.fromStep q.toStep all es),
    refuseIf St.ATOMIC_ORDER (s.hasOrderAtomics p)]

/-- The replay's end: its result record, and the request completes (R332, R394). (Log 44: DEDUCED.) -/
def State.endReplay (s : State) (p : Nat) (r : ReplayRun) (status req : Nat) : State :=
  let st := match s.devWrite p .agent r.result (replayRecord status r) false with
    | .ok s => s
    | .error _ => s
  let ok := match s.devWrite p .agent r.result (replayRecord status r) false with
    | .ok _ => req
    | .error e => e.1
  (st.modPart p (fun x => { x with long := { x.long with replay := none } })).endReq r.key ok

/-- REPLAY: the first command starts the request, `ext` and `jbytes` the record and the journal read from outside; a later
one ends it when every attempt has run, at a difference with STOP_ON_DIVERGE, or when the partition has stopped. -/
def execReplay (part ring : Nat) (ext jbytes : Bytes) (t : Nat) (s : State) : Host.Outcome State Fault Refusal :=
  if part < 512 ∧ ring < 128 then
    let s := s.toTime t
    let key := ringKey part ring
    let x := s.part part
    match s.opReq part ring 7 with
    | none => .next s
    | some r =>
      if r.started then
        match x.long.replay with
        | none => .next s
        | some g =>
          if s.hostWaits part [g.result] then .next (s.hostWait key)
          else match x.stopped with
            | some st => .next (s.endReplay part g 2 st)
            | none =>
              if x.running || (x.replayOpen.isSome && !(g.stopOn && g.diff.isSome)) || x.tail.isSome || decide (x.migrating ≠ 0) then .next s
              else .next (s.endReplay part g (if g.diff.isSome then 1 else 0) St.OK)
      else if !x.longOk then .next (s.endReq key St.PARTITION_BUSY)
      else match x.stopped with
        | some st => .next (s.endReq key st)
        | none =>
          if s.hostWaits part [r.arg0] then .next (s.hostWait key)
          else match s.longParam part r.arg0 ext with
            | .error e => .next (s.endReq key e)
            | .ok q =>
              if q.addr ≠ 0 ∧ s.hostWaits part [q.addr] then .next (s.hostWait key)
              else if q.addr ≠ 0 ∧ spaceOf q.addr ≠ 4 ∧ spaceOf q.addr ≠ 5 then .next (s.endReq key St.ADDR_FAULT)
              else
                let raw := if q.addr = 0 then s.ownJournal part else parseJournal (jbytes.length / 64) (jbytes.take q.limit)
                let all := sortBy (fun (a b : JEnt) => decide (a.seq ≤ b.seq)) raw
                let live := liveEntries all
                let es := rangeEntries q.fromStep q.toStep live
                match s.replayRefusal part q all es with
                | some st => .next (s.endReq key st)
                | none =>
                  -- entries that landed between the CLOSE before the range and its first OPEN
                  let early := ((live.takeWhile (fun e => !(e.kind == 1 && e.step == q.fromStep))).reverse.takeWhile
                    (fun e => e.kind != 7)).reverse
                  let s := early.foldl (fun (s : State) e => s.applyArrival part e) s
                  let g : ReplayRun := { key := key, to_ := q.toStep, result := q.result, stopOn := q.stopOn, ents := es }
                  let s := s.setReq key (some { r with started := true })
                  .next (s.modPart part (fun x => { x with long := { x.long with replay := some g } }))
  else .refused .illFormed

end Sys2Proof.Machine
end

