-- ==== Sys2Proof/Machine/Link.lean ====
section
/-! DEFINITION. The link layer of a Bridle port as its peer meets it: packets as bytes (R355), reception (R357),
acknowledgements (R358), retrains (R359), reissue on another path (R353, R368) and training and cable supply (R350,
R567). -/

namespace Sys2Proof.Machine
open Sys2Proof

/-! ### Packets as bytes (R355) -/

/-- The header of a packet with its CRC taken as 0. -/
def LPkt.header (k : LPkt) : Bytes :=
  leBytes 1 k.typ ++ leBytes 1 k.vc ++ leBytes 2 (k.seq % 4096) ++
    leBytes 2 (match k.ack with
      | some a => a % 4096 + 0x8000
      | none => 0) ++ leBytes 2 k.payload.length ++
    leBytes 4 (k.credit.1 % 1024 + 2 ^ 10 * (k.credit.2.1 % 1024) + 2 ^ 20 * (k.credit.2.2 % 1024))

/-- R355: the bytes of a packet, its CRC-32 over header and payload. -/
def LPkt.encode (k : LPkt) : Bytes :=
  k.header ++ leBytes 4 (crc32 (k.header ++ leBytes 4 0 ++ k.payload)) ++ k.payload

/-- The CRC of a received packet holds. -/
def crcHolds (b : Bytes) : Bool := fieldAt b 12 4 == crc32 (b.take 12 ++ leBytes 4 0 ++ b.drop 16)

/-- A received packet. (Log 59: DEDUCED.) -/
def LPkt.decode (b : Bytes) : LPkt :=
  let c := fieldAt b 8 4
  { typ := fieldAt b 0 1, vc := fieldAt b 1 1, seq := fieldAt b 2 2 % 4096,
    ack := if bitOf (fieldAt b 4 2) 15 then some (fieldAt b 4 2 % 4096) else none,
    credit := (bitsOf c 9 0, bitsOf c 19 10, bitsOf c 29 20), payload := (b.drop 16).take (fieldAt b 6 2) }

/-! ### Retrains and paths -/

/-- The port is up. -/
def State.linkRuns (s : State) (b : Nat) : Bool := s.fld F.BRDL_PORT_STAT_STATE b 0 == 2

/-- R358, R359: the port retrains, out of service for 30 µs. (Log 56: DEDUCED.) -/
def State.retrain (s : State) (b : Nat) : State :=
  let s := (s.setFld F.BRDL_PORT_STAT_STATE b 0 3).incFld F.BRDL_PORT_RETRAINS_COUNT b 0
  (s.modPort b (fun x => { x with retrainAt := some s.mono, timeouts := 0 })).post Ev.LINK_RETRAIN 0x31 b none (leBytes 1 b)

/-- Sends every unacknowledged packet again, in order, with the acknowledgement of the moment. (Log 53: DEDUCED.) -/
def State.resendAll (s : State) (b : Nat) : State :=
  let x := s.port b
  let again := x.replay.map (fun k => { k with ack := some ((x.e + 4095) % 4096) })
  let n := s.fld F.BRDL_PORT_REPLAYS_COUNT b 0 + again.length
  (s.setPort b { x with replay := again, out := x.out ++ again, unacked := if again.isEmpty then x.unacked else 0,
                        quietSince := s.mono }).setFld F.BRDL_PORT_REPLAYS_COUNT b 0 (sat32 n)

/-- Sends whatever is waiting on a port. -/
def State.pumpPort (s : State) (b : Nat) : State := s.pump b ((s.port b).waiting.length)

/-- R358: the oldest unacknowledged sequence. -/
def BPort.oldest (x : BPort) : Nat := match x.replay with
  | k :: _ => k.seq
  | [] => x.next

/-- R358: how many packets an acknowledgement of `a` frees; none is a protocol error. (Log 55: DEDUCED.) -/
def BPort.ackCount (x : BPort) (a : Nat) : Option Nat :=
  let n := (a + 4096 + 1 - x.oldest) % 4096
  if n ≤ (x.next + 4096 - x.oldest) % 4096 then some n else none

/-- R358: an acknowledgement of `a`; for a NAK every later packet is sent again. -/
def State.takeAck (s : State) (b a : Nat) (nak : Bool) : State :=
  match (s.port b).ackCount a with
  | none => s.retrain b
  | some n =>
    let s := s.modPort b (fun x => { x with replay := x.replay.drop n, quietSince := s.mono,
                                            timeouts := if n = 0 then x.timeouts else 0 })
    (if nak then s.resendAll b else s).pumpPort b

/-- Credits returned by a packet. (Log 52: DEDUCED.) -/
def State.takeCredit (s : State) (b : Nat) (k : LPkt) : State :=
  s.modPort b (fun x => { x with cred := (x.cred.1 + k.credit.1, x.cred.2.1 + k.credit.2.1, x.cred.2.2 + k.credit.2.2) })

/-- The acknowledgement a packet of any type carries. (Log 52: DEDUCED.) -/
def State.takeCarried (s : State) (b : Nat) (k : LPkt) : State := match k.ack with
  | some a => s.takeAck b a false
  | none => s.pumpPort b

/-- R357: a discarded packet; one NAK of E - 1 for each gap. -/
def State.nakGap (s : State) (b : Nat) : State :=
  if (s.port b).naked then s else (s.modPort b (fun x => { x with naked := true })).emit b { typ := 3 }

/-- R368: the port for the next attempt of a transaction to node `n` last sent on port `b`: the paths of R353 in
rotation, dead ones passed over while another is alive. (Log 57: DEDUCED.) -/
def State.nextPath (s : State) (n b : Nat) : Option Nat :=
  if n = s.node then some loopPort
  else
    let ring := [0, 24, 48, 72].map (fun d => (n % 96 + d) % 96)
    let alive := (s.paths n).filter (fun h => s.fld F.BRDL_PORT_STAT_DEAD h 0 == 0)
    let use := if alive.isEmpty then s.paths n else alive
    let i := if ring.contains b then ring.idxOf b + 1 else 0
    ((ring.drop i) ++ (ring.take i)).find? (fun h => use.contains h)

/-- Replaces the outstanding transaction with a tag. -/
def State.modTxn (s : State) (tag : Nat) (f : OutTxn → OutTxn) : State :=
  { s with brdl := { s.brdl with txns := s.brdl.txns.map (fun o => if o.t.tag = tag then f o else o) } }

/-- Sends a transaction, with its earlier fragments, on its port. -/
def State.sendOut (s : State) (o : OutTxn) : State :=
  if o.port = 97 then s else (o.more ++ [o.t]).foldl (fun s t => s.sendTxn o.port t o.part) s

/-- R368: the transaction is sent again at once on the next path, ATTEMPT increased by 1. (Log 57: DEDUCED.) -/
def State.reissue (s : State) (o : OutTxn) : State :=
  let up := fun (t : Txn) => { t with attempt := (t.attempt + 1) % 32 }
  let held := o.held + (match o.heldAt with
    | some h => s.mono - h
    | none => 0)
  let o' := { o with t := up o.t, more := o.more.map up, port := (s.nextPath o.t.dst o.port).getD 97, sentAt := s.mono,
                     held := held, heldAt := none }
  (s.modTxn o.t.tag (fun _ => o')).sendOut o'

/-- R359, R368: the port goes down; it loses its replay buffer and its transactions are reissued on other paths. -/
def State.portDown (s : State) (b : Nat) : State :=
  let s := s.setFld F.BRDL_PORT_STAT_STATE b 0 0
  let s := s.modPort b (fun x => { x with replay := [], waiting := [], retrainAt := none, unacked := 0, owe := (0, 0, 0),
                                          naked := false, timeouts := 0 })
  (s.brdl.txns.filter (fun o => o.port == b && !o.fenced)).foldl (fun s o => s.reissue o) s

/-! ### Reception -/

/-- R361: an operation the device accepts. (Log 54: DEDUCED.) -/
def knownOp (op : Nat) : Bool := (decide (1 ≤ op) && decide (op ≤ 12)) || [0x81, 0x82, 0x83, 0x84, 0x85, 0x89, 0x8A, 0x8B].contains op

/-- LINK_PACKET_RECEIVE (R351, R355, R357): a packet arrives on a port that is up, with `marked` of its codewords marked
uncorrectable. A numbered packet is accepted, discarded as a duplicate or answered with a NAK; so is one whose CRC
fails. (Log 54: DEDUCED.) -/
def execLinkPacketReceive (port : Nat) (pkt : Bytes) (marked : Nat) (t : Nat) (s : State) : Host.Outcome State Fault Refusal :=
  if port < 96 then
    let s := s.toTime t
    if !s.linkRuns port then .next s
    else
      let s := s.setFld F.BRDL_PORT_FEC_UNCORR_COUNT port 0 (sat32 (s.fld F.BRDL_PORT_FEC_UNCORR_COUNT port 0 + marked))
      let k := LPkt.decode pkt
      let x := s.port port
      if marked ≠ 0 ∨ !crcHolds pkt then .next (s.nakGap port)
      else if k.typ ≠ 1 ∧ k.typ ≠ 4 then .next s
      else if k.seq = x.e then
        let keep := k.typ == 1 && knownOp (fieldAt k.payload 0 1)
        let s := s.modPort port (fun x =>
          { x with
            e := (x.e + 1) % 4096
            naked := false
            unacked := x.unacked + 1
            rx := if keep then x.rx ++ [(k.vc, k.payload)] else x.rx
            owe := if keep then x.owe else vcAdd x.owe k.vc k.units })
        let s := (s.takeCredit port k).takeCarried port k
        .next (if 64 ≤ (s.port port).unacked ∧ s.linkRuns port then s.emit port { typ := 2 } else s)
      else if serialLt k.seq x.e 12 then .next ((s.emit port { typ := 2 }).takeCarried port k)
      else .next ((s.nakGap port).takeCarried port k)
  else .refused .illFormed

/-- Shared form of the unnumbered packets: `act` on a sound packet of a type. -/
def opUnnumbered (typ port : Nat) (pkt : Bytes) (t : Nat) (act : State → LPkt → State) (s : State) :
    Host.Outcome State Fault Refusal :=
  if port < 96 then
    let s := s.toTime t
    let k := LPkt.decode pkt
    if s.linkRuns port && crcHolds pkt && k.typ == typ then .next (act (s.takeCredit port k) k) else .next s
  else .refused .illFormed

/-- LINK_ACK (R358). -/
def execLinkAck (port : Nat) (pkt : Bytes) (t : Nat) (s : State) : Host.Outcome State Fault Refusal :=
  opUnnumbered 2 port pkt t (fun s k => s.takeCarried port k) s

/-- LINK_NAK (R358). -/
def execLinkNak (port : Nat) (pkt : Bytes) (t : Nat) (s : State) : Host.Outcome State Fault Refusal :=
  opUnnumbered 3 port pkt t (fun s k => match k.ack with
    | some a => s.takeAck port a true
    | none => s.pumpPort port) s

/-- LINK_CREDIT (R355). -/
def execLinkCredit (port : Nat) (pkt : Bytes) (t : Nat) (s : State) : Host.Outcome State Fault Refusal :=
  opUnnumbered 0 port pkt t (fun s k => s.takeCarried port k) s

/-- LINK_ACK_DELAY_EXPIRY (R357): accepted packets are acknowledged, and freed buffers returned in a CREDIT packet where
nothing is to be acknowledged. (Log 55: DEDUCED.) -/
def execLinkAckDelayExpiry (port t : Nat) (s : State) : Host.Outcome State Fault Refusal :=
  if port < 96 then
    let s := s.toTime t
    let x := s.port port
    if !s.linkRuns port then .next s
    else if 0 < x.unacked then .next (s.emit port { typ := 2 })
    else if x.owe ≠ (0, 0, 0) then .next (s.emit port { typ := 0 })
    else .next s
  else .refused .illFormed

/-- LINK_REPLAY_TIMEOUT (R359): no acknowledgement for 10 µs while packets are held. -/
def execLinkReplayTimeout (port t : Nat) (s : State) : Host.Outcome State Fault Refusal :=
  if port < 96 then
    let s := s.toTime t
    let x := s.port port
    if s.linkRuns port && !x.replay.isEmpty && decide (x.quietSince + 10000 ≤ s.mono) then
      let s := (s.modPort port (fun x => { x with timeouts := x.timeouts + 1 })).resendAll port
      .next (if 4 ≤ x.timeouts + 1 then s.retrain port else s)
    else .next s
  else .refused .illFormed

/-- LINK_RETRAIN_COMPLETE (R359, R368): after at least 30 µs the retrain ends with the peer's E; packets before it are
freed, the others sent again, and a dead path returns to service. (Log 56: DEDUCED.) -/
def execLinkRetrainComplete (port peerE t : Nat) (s : State) : Host.Outcome State Fault Refusal :=
  if port < 96 ∧ peerE < 4096 then
    let s := s.toTime t
    match (s.port port).retrainAt with
    | some r =>
      if s.fld F.BRDL_PORT_STAT_STATE port 0 = 3 ∧ r + 30000 ≤ s.mono ∧ s.mono < r + 2000000 then
        match (s.port port).ackCount ((peerE + 4095) % 4096) with
        | none => .next (s.retrain port)
        | some n =>
          let s := (s.setFld F.BRDL_PORT_STAT_STATE port 0 2).setFld F.BRDL_PORT_STAT_DEAD port 0 0
          let s := s.modPort port (fun x => { x with replay := x.replay.drop n, retrainAt := none, timeouts := 0,
                                                     pathTimeouts := 0, naked := false })
          .next ((s.resendAll port).pumpPort port)
      else .next s
    | none => .next s
  else .refused .illFormed

/-- LINK_DOWN (R359): a retrain has not completed within 2 ms. -/
def execLinkDown (port t : Nat) (s : State) : Host.Outcome State Fault Refusal :=
  if port < 96 then
    let s := s.toTime t
    match (s.port port).retrainAt with
    | some r =>
      if s.fld F.BRDL_PORT_STAT_STATE port 0 = 3 ∧ r + 2000000 ≤ s.mono then
        .next ((s.portDown port).post Ev.LINK_DOWN 0x31 port none (leBytes 1 port))
      else .next s
    | none => .next s
  else .refused .illFormed

/-! ### Training -/

/-- A port that is held down: disabled (R537), its cable's supply off (R567), its side without power (R423), without a
reference (R441), or the device dark (R548). (Log 74: DEDUCED.) -/
def State.portHeld (s : State) (b : Nat) : Bool :=
  !bitOf (s.creg 0x31 b RG.BLK_CTRL) 0 || s.brdl.supplyOff.contains (b / 4) || s.sideDown (b / 24) ||
    s.fld F.CLK_REF_STAT_BRIDLE_NOREF 0 0 == 1 || (s.fld F.GLB_POWER_STATE_STATE 0 0 == 2 && s.fld F.TACK_BRINGUP_WAKE 0 0 == 0)

/-- R567: the supply of a connector is switched off, and its four ports are down. (Log 58: DEDUCED.) -/
def State.supplyOff (s : State) (conn : Nat) : State :=
  (List.range 4).foldl (fun s i => s.portDown (4 * conn + i)) { s with brdl := { s.brdl with supplyOff := setAdd s.brdl.supplyOff conn } }

/-- R350, R567: a port that is not held down trains on its cable and comes up: `medium` is 0 for passive copper, 1 for an
active cable or optical module, anything else what the port cannot use, on which it goes on training; `mw` the power class the cable declares in mW. The
link starts with nothing sent and nothing received, and full credits. (Log 51: DEDUCED.) -/
def State.trainPort (s : State) (port medium mw : Nat) : State :=
  if s.portHeld port || s.portLive port then s
  else if 3000 < mw then s.supplyOff (port / 4)
  else if 2 ≤ medium then s.setFld F.BRDL_PORT_STAT_STATE port 0 1
  else
    let s := (s.setFld F.BRDL_PORT_STAT_STATE port 0 2).setFld F.BRDL_PORT_STAT_CR4 port 0 (if medium = 0 then 1 else 0)
    let s := s.modPort port (fun x => { rx := x.rx, out := x.out })
    { s with brdl := { s.brdl with firstUp := some (s.brdl.firstUp.getD s.mono) } }

/-- PORT_LINK_UP. -/
def execPortLinkUp (port medium mw t : Nat) (s : State) : Host.Outcome State Fault Refusal :=
  if port < 96 then .next ((s.toTime t).trainPort port medium mw) else .refused .illFormed

/-- CABLE_SUPPLY_OVERLOAD (R567): a connector's cable has drawn more than 3.0 W for 10 ms. (Log 58: DEDUCED.) -/
def execCableSupplyOverload (conn t : Nat) (s : State) : Host.Outcome State Fault Refusal :=
  if conn < 24 then
    .next ((s.toTime t).supplyOff conn)
  else .refused .illFormed

end Sys2Proof.Machine
end

