-- ==== Sys2Proof/Machine/Bridle.lean ====
section
/-! DEFINITION. Bridle transactions as they arrive: requests resolved through regions (R370, R371, R375, R376), the
ingress applier (R366), ownership (R372-R374), fences (R377), exchange fragments (R378), responses (R362, R363, R367,
R369), the timeouts of outstanding transactions (R362, R368) and the start delay (R365). -/

namespace Sys2Proof.Machine
open Sys2Proof

/-! ### Arrivals -/

/-- Class of an arrived payload: requests, responses and management do not block each other (R355). -/
def rxClass (q : Nat × Bytes) : Nat := vcOf (fieldAt q.2 0 1)

/-- The oldest arrived transaction of the class of `op` at a port (96 the loopback), when it is an `op`. -/
def State.arrived (s : State) (port op : Nat) : Option Txn :=
  match (s.port port).rx.find? (fun q => rxClass q == vcOf op) with
  | some q => if fieldAt q.2 0 1 = op then some (Txn.decode q.2) else none
  | none => none

/-- The response operation of a request (R361). -/
def rspOp (op : Nat) : Nat := if 5 ≤ op ∧ op ≤ 8 then 0x85 else op + 0x80

/-- Sends a response: by the port of the request, or by a path to its node where that port is down. (Log 60: DEDUCED.) -/
def State.reply (s : State) (port : Nat) (t : Txn) (status : Nat) (data : Bytes) (own : Nat) : State :=
  let r : Txn := { op := rspOp t.op, status := status, attempt := t.attempt, src := s.node, dst := t.src, tag := t.tag,
                   inc := s.fld F.BRDL_NODE_INC 0 0, addr := t.addr, data := data }
  let b := if s.portUp port then some port else s.pathTo t.src
  match b with
  | some b => s.sendTxn b r own
  | none => s

/-- R549: a wake from retain begins; REQ returns to 00. -/
def State.autoWake (s : State) : State :=
  if s.fld F.GLB_POWER_STATE_STATE 0 0 = 1 ∧ s.fld F.GLB_POWER_STATE_CHANGING 0 0 = 0 then
    { ((s.setFld F.GLB_POWER_STATE_CHANGING 0 0 1).setFld F.GLB_POWER_STATE_REQ 0 0 0) with
      pwr := { s.pwr with change := some (0, s.mono) } }
  else s

/-- R549: in retain a request is answered HELD and wakes the device. (Log 71: DEDUCED.) -/
def State.asleep (s : State) : Bool := s.fld F.GLB_POWER_STATE_STATE 0 0 != 0

/-- CHARTER_REFUSE (R381, R529). (Log 75: DEDUCED.) -/
def State.charterRefuse (s : State) (port : Nat) (t : Txn) : State :=
  s.post Ev.CHARTER_REFUSE 0x32 0 none (leBytes 2 t.src ++ leBytes 1 t.op ++ leBytes 1 port)

/-! ### Regions (R370, R371, R376) -/

/-- The lowest-numbered valid region that holds `n` bytes at a Bridle offset. (Log 63: DEDUCED.) -/
def State.regionOf (s : State) (off n : Nat) : Option Nat :=
  (List.range 1024).find? (fun r => s.fld F.BRDL_RGN_CTRL_VALID r 0 == 1 &&
    decide (65536 * s.fld F.BRDL_RGN_BASE_BASE r 0 ≤ off) &&
    decide (off + n ≤ 65536 * (s.fld F.BRDL_RGN_BASE_BASE r 0 + s.fld F.BRDL_RGN_LEN_LEN r 0)))

/-- R370: the first row of the table that applies: a refusing status, or the region. (Log 61, 63: DEDUCED.) -/
def State.judge (s : State) (t : Txn) (off n : Nat) : Except Nat Nat :=
  let atomic := decide (5 ≤ t.op) && decide (t.op ≤ 8)
  if !s.chartered t.src t.op then .error 6
  else match s.regionOf off n with
  | none => .error 2
  | some r =>
    if t.op = 1 then
      if s.fld F.BRDL_RGN_CTRL_READ r 0 = 1 ∧ s.fld F.BRDL_RGN_READERS_RD_LO r 0 ≤ t.src ∧
          t.src ≤ s.fld F.BRDL_RGN_READERS_RD_HI r 0 then .ok r
      else .error 3
    else if s.fld F.BRDL_RGN_CTRL_WRITE r 0 = 0 then .error 3
    else if s.fld F.BRDL_RGN_CTRL_OWNED r 0 = 0 ∨ s.fld F.BRDL_RGN_OWNER_NODE r 0 ≠ t.src then .error 4
    else if atomic ∧ s.fld F.BRDL_RGN_CTRL_MAINT r 0 = 0 then .error 5
    else .ok r

/-- The device address, in the target partition, of an offset in a region. (Log 62: DEDUCED.) -/
def State.regionAddr (s : State) (r off : Nat) : Nat :=
  (if s.fld F.BRDL_RGN_CTRL_SPACE r 0 = 0 then 2 else 3) * 2 ^ 60 +
    65536 * s.fld F.BRDL_RGN_TARGET_TARGET r 0 + (off - 65536 * s.fld F.BRDL_RGN_BASE_BASE r 0)

/-- The controllers behind an access can serve it now. -/
def State.regionFree (s : State) (p addr n : Nat) : Bool :=
  (piecesBy addr n).all (fun q => match s.regionLoc p q.1 q.2 with
    | some (.cellar nat) => s.cellarFree p nat q.2
    | some (.cached nat) => s.lineServed p (nat / 256) false
    | _ => true)

/-- The access of a transaction has to wait for a controller or for journal space. -/
def State.ctrlWaits (s : State) (t : Txn) : Bool :=
  if decide (t.op ≤ 2) || (decide (5 ≤ t.op) && decide (t.op ≤ 8)) then
    let n := if t.op ≤ 2 then 128 else 8
    let off := t.addr % 2 ^ 44 / n * n
    match s.judge t off n with
    | .ok r =>
      let p := s.fld F.BRDL_RGN_CTRL_PART r 0
      !s.regionFree p (s.regionAddr r off) n || (t.op == 2 && !s.jrnlServed p 128)
    | .error _ => false
  else false

/-! ### The turn of a destination partition (R380) -/

/-- The partition an arriving READ, WRITE or atomic is for; none where no region holds it. -/
def State.ingressPart (s : State) (t : Txn) : Option Nat :=
  if decide (t.op ≤ 2) || (decide (5 ≤ t.op) && decide (t.op ≤ 8)) then
    let n := if t.op ≤ 2 then 128 else 8
    (s.regionOf (t.addr % 2 ^ 44 / n * n) n).map (fun r => s.fld F.BRDL_RGN_CTRL_PART r 0)
  else none

/-- Destination partitions of the requests that could be served now at home port `h` (R353). -/
def State.ingressParts (s : State) (h : Nat) : List Nat :=
  (List.range 97).filterMap (fun b => match (s.port b).rx.find? (fun q => rxClass q == 0) with
    | some q =>
      let t := Txn.decode q.2
      if t.src % 96 = h ∧ !s.ctrlWaits t then s.ingressPart t else none
    | none => none)

/-- R380: in shared mode the applier of a source serves destination partitions in fixed round-robin order: it is the turn of
the partition of an arriving request. (Log 158: DESIGN CHOICE.) -/
def State.ingressTurn (s : State) (t : Txn) : Bool :=
  match s.ingressPart t with
  | none => true
  | some p =>
    let dist := fun (x : Nat) => (x + 512 - tget s.brdl.served (t.src % 96) 0) % 512
    !s.sharedMode || (s.ingressParts (t.src % 96)).all (fun q => decide (dist p ≤ dist q))

/-- The access of a transaction has to wait for a controller, for journal space or for its partition's turn. -/
def State.accessWaits (s : State) (t : Txn) : Bool := s.ctrlWaits t || !s.ingressTurn t

/-- The oldest arrived transaction of a class is taken, its buffer freed and its partition's turn (R380) over. -/
def State.takeRx (s : State) (port op : Nat) : State :=
  match (s.port port).rx.find? (fun q => rxClass q == vcOf op) with
  | some q =>
    let t := Txn.decode q.2
    let s := match s.ingressPart t with
      | some p => { s with brdl := { s.brdl with served := tput s.brdl.served (t.src % 96) (p + 1) 0 } }
      | none => s
    s.modPort port (fun x => { x with
      rx := x.rx.erase q
      owe := if port = loopPort then x.owe else vcAdd x.owe q.1 ((16 + q.2.length + 63) / 64) })
  | none => s

/-- BRDL_READ: performs the READ at the front of a port. -/
def execBrdlRead (port : Nat) (det : Option (Nat × Nat)) (t : Nat) (s : State) : Host.Outcome State Fault Refusal :=
  if port < 97 then
    let s := s.toTime t
    match s.arrived port 1 with
    | none => .next s
    | some q =>
      if s.asleep then .next ((s.takeRx port 1).autoWake.reply port q 1 [] 512)
      else if s.accessWaits q then .next s
      else
        let s := s.takeRx port 1
        let off := q.addr % 2 ^ 44 / 128 * 128
        match s.judge q off 128 with
        | .error st => .next ((if st = 6 then s.charterRefuse port q else s).reply port q st [] 512)
        | .ok r =>
          let p := s.fld F.BRDL_RGN_CTRL_PART r 0
          let addr := s.regionAddr r off
          match s.regionLoc p addr 64, s.regionLoc p (addr + 64) 64 with
          | some l0, some l1 =>
            let s := match det with
              | some (sev, o) => s.detect p (if o % 128 < 64 then l0 else l1) (some (sev, o % 64))
              | none => s
            let (s, a, m0) := s.readLoc p l0 64
            let (s, b, m1) := s.readLoc p l1 64
            let s := if m0 || m1 then s.raiseVote p voteReplay else s
            .next (s.reply port q (if m0 || m1 then 7 else 0) (a ++ b) p)
          | _, _ => .next (s.reply port q 2 [] 512)
  else .refused .illFormed

/-! ### What each sequenced transaction does when it is performed -/

/-- Runs of set bits of a mask, of `n` bits from bit `i`: first bit and length. (Log 72: DEDUCED.) -/
def maskRuns (m i : Nat) : Nat → List (Nat × Nat)
  | 0 => []
  | n + 1 =>
    if bitOf m i then
      match maskRuns m (i + 1) n with
      | (j, k) :: rest => if j = i + 1 then (i, k + 1) :: rest else (i, 1) :: (j, k) :: rest
      | [] => [(i, 1)]
    else maskRuns m (i + 1) n

/-- The masked bytes of a WRITE, journalled as REMOTE entries when they come from another node (R313). (Log 72: DEDUCED.) -/
def State.maskWrite (s : State) (p addr src wseq : Nat) (data : Bytes) : State :=
  let m := fieldAt data 0 16
  (maskRuns m 0 64 ++ maskRuns m 64 64).foldl (fun s q =>
    let bs := slice data (16 + q.1) q.2
    match s.regionLoc p (addr + q.1) q.2 with
    | some l =>
      let s := s.writeLoc p l bs false
      if src = s.node then s else s.jrnl p 6 src wseq (addr + q.1) bs
    | none => s) s

/-- R361: the new value of a Bridle atomic on `m`. (Log 65: DEDUCED.) -/
def brdlAtomic (t : Txn) (m : Nat) : Nat :=
  match t.op with
  | 5 => atomicNew 0x20 8 m t.operand 0
  | 6 => atomicNew 0x22 8 m t.operand 0
  | 7 => atomicNew 0x23 8 m t.operand 0
  | _ => atomicNew 0x28 8 m t.operand (fieldAt t.data 0 8)

def State.applier (s : State) (n : Nat) : Applier := tget s.brdl.appl n {}
def State.modApplier (s : State) (n : Nat) (f : Applier → Applier) : State :=
  { s with brdl := { s.brdl with appl := tput s.brdl.appl n (f (s.applier n)) {} } }

/-- The region an ownership message names (R372). -/
def ownRegion (t : Txn) : Nat := (t.addr % 2 ^ 44 - 0xF0000000000) / 8

def State.ownQueue (s : State) (r : Nat) : List (Nat × Nat) := tget s.brdl.ownq r []
def State.setOwnQueue (s : State) (r : Nat) (q : List (Nat × Nat)) : State :=
  { (s.setFld F.BRDL_RGN_OWNER_QUEUED r 0 q.length) with brdl := { s.brdl with ownq := tput s.brdl.ownq r q [] } }

/-- R373: while a region has no owner its oldest queued requester becomes the owner and is sent OWN_GRANT. -/
def State.grantNext (s : State) (r : Nat) : State :=
  match s.ownQueue r with
  | (n, _) :: rest =>
    if s.fld F.BRDL_RGN_CTRL_VALID r 0 = 1 ∧ s.fld F.BRDL_RGN_CTRL_OWNED r 0 = 0 ∧ s.mayOpen 512 n 10 then
      let s := ((s.setOwnQueue r rest).setFld F.BRDL_RGN_CTRL_OWNED r 0 1).setFld F.BRDL_RGN_OWNER_NODE r 0 n
      s.openTxn 512 { op := 10, dst := n, data := leBytes 8 r } (.grant r)
    else s
  | [] => s

/-- Every region with queued requesters. -/
def State.pumpGrants (s : State) : State := s.brdl.ownq.foldl (fun s e => s.grantNext e.1) s

/-- Writes an ownership notice (R372). -/
def State.notice (s : State) (p off v : Nat) : State := s.setLard p off (leBytes 8 v)

/-- R378: the partition that takes a message from a node, by its HARNESS bytes. -/
def State.xgDest (s : State) (src : Nat) (m : Bytes) : Option Nat :=
  (s.parts.find? (fun e => e.2.pstate = .live && e.2.harn.isSome &&
    padTo (e.2.harness.digest.take 4) 4 == slice m 0x1C 4 &&
    (List.range (s.pcount e.1)).any (fun i => s.xgNode e.1 i == src))).map (fun e => e.1)

/-- Sending partition of a fragment, and its offset in its message (R360). -/
def Txn.fragPart (t : Txn) : Nat := bitsOf t.addr 24 16
def Txn.fragOff (t : Txn) : Nat := bitsOf t.addr 13 0

/-- R378: performs a fragment; none where the message would be held (R305). -/
def State.performFrag (s : State) (port : Nat) (t : Txn) : Option State :=
  let key := fun (f : Frag) => f.src == t.src && f.part == t.fragPart
  let rest := s.brdl.frags.filter (fun f => !key f)
  let refuse := fun (s : State) (b : List Frag) => ({ s with brdl := { s.brdl with frags := b } }).reply port t 2 [] 512
  let take := fun (bytes : Bytes) =>
    if t.last then
      match s.xgDest t.src bytes with
      | some p => ({ s with brdl := { s.brdl with frags := rest, msgs := s.brdl.msgs ++ [(p, t.src, bytes)] } }).reply port t 0 [] p
      | none => refuse s rest
    else { s with brdl := { s.brdl with frags := rest ++ [⟨t.src, t.fragPart, bytes⟩] } }
  if t.fragOff = 0 then
    match s.xgDest t.src t.data with
    | none => some (refuse (s.stray none t.src t.data) rest)
    | some p => if s.xgTreat p t.src t.data = 2 then none else some (take t.data)
  else match s.brdl.frags.find? key with
  | some f => if f.bytes.length = t.fragOff then some (take (f.bytes ++ t.data)) else some (refuse s rest)
  | none => some (refuse s s.brdl.frags)

/-- R370-R373, R378: performs a sequenced transaction whose turn has come and answers it; none where it is not yet
accepted. (Log 65: DEDUCED.) -/
def State.performTxn (s : State) (port : Nat) (t : Txn) : Option State :=
  if !s.chartered t.src t.op then some ((s.charterRefuse port t).reply port t 6 [] 512)
  else match t.op with
  | 2 =>
    let off := t.addr % 2 ^ 44 / 128 * 128
    match s.judge t off 128 with
    | .error st => some (s.reply port t st [] 512)
    | .ok r =>
      let p := s.fld F.BRDL_RGN_CTRL_PART r 0
      let addr := s.regionAddr r off
      if (s.regionLoc p addr 64).isSome ∧ (s.regionLoc p (addr + 64) 64).isSome then
        some ((s.maskWrite p addr t.src t.wseq t.data).reply port t 0 [] p)
      else some (s.reply port t 2 [] 512)
  | 4 => s.performFrag port t
  | 9 =>
    let r := ownRegion t
    if 1024 ≤ r ∨ s.fld F.BRDL_RGN_CTRL_VALID r 0 = 0 then some (s.reply port t 2 [] 512)
    else if t.src < s.fld F.BRDL_RGN_READERS_RD_LO r 0 ∨ s.fld F.BRDL_RGN_READERS_RD_HI r 0 < t.src then
      some (s.reply port t 3 [] 512)
    else if 16 ≤ (s.ownQueue r).length then none
    else some (((s.setOwnQueue r (s.ownQueue r ++ [(t.src, fieldAt t.data 0 8)])).reply port t 0 [] 512).grantNext r)
  | 10 =>
    let r := fieldAt t.data 0 8
    let s := match s.brdl.ownWait.find? (fun w => w.1 == t.src && w.2.1 == r) with
      | some w => ({ s with brdl := { s.brdl with ownWait := s.brdl.ownWait.erase w } }).notice w.2.2.1 w.2.2.2 1
      | none => s
    some (s.reply port t 0 [] 512)
  | 11 =>
    let r := ownRegion t
    if 1024 ≤ r ∨ s.fld F.BRDL_RGN_CTRL_VALID r 0 = 0 then some (s.reply port t 2 [] 512)
    else if s.fld F.BRDL_RGN_CTRL_OWNED r 0 = 1 ∧ s.fld F.BRDL_RGN_OWNER_NODE r 0 = t.src then
      some (((s.setFld F.BRDL_RGN_CTRL_OWNED r 0 0).reply port t 0 [] 512).grantNext r)
    else some (s.reply port t 3 [] 512)
  | _ =>
    let off := t.addr % 2 ^ 44 / 8 * 8
    match s.judge t off 8 with
    | .error st => some (s.reply port t st [] 512)
    | .ok r =>
      let p := s.fld F.BRDL_RGN_CTRL_PART r 0
      match s.regionLoc p (s.regionAddr r off) 8 with
      | none => some (s.reply port t 2 [] 512)
      | some l =>
        let (s, bs, m) := s.readLoc p l 8
        let old := if m then allOnes 8 else leNat bs
        let s := if m then s.raiseVote p voteReplay else s.writeLoc p l (leBytes 8 (brdlAtomic t old)) false
        let s := s.modApplier t.src (fun a => { a with saved := ((t.wseq, old) :: a.saved).take 256 })
        some (s.reply port t 0 (leBytes 8 old) p)

/-! ### The ingress applier (R366) -/

/-- R377: answers the waiting FENCEs of a source whose earlier transactions have all been performed. -/
def State.answerFences (s : State) (src : Nat) : State :=
  let a := s.applier src
  let due := a.fences.filter (fun q => !serialLt a.next q.2.wseq 32)
  due.foldl (fun s q => s.reply q.1 q.2 0 [] 512)
    (s.modApplier src (fun a => { a with fences := a.fences.filter (fun q => serialLt a.next q.2.wseq 32) }))

/-- Performs a transaction whose turn it is, then the held ones that are next, in order; one that cannot be accepted is
answered HELD. -/
def State.runTurn (s : State) (port : Nat) (t : Txn) : Nat → State
  | 0 => s
  | fuel + 1 =>
    match s.performTxn port t with
    | none => s.reply port t 1 [] 512
    | some s =>
      let s := s.modApplier t.src (fun a => { a with next := (t.wseq + 1) % 2 ^ 32 })
      let a := s.applier t.src
      match a.held.find? (fun q => q.2.wseq == a.next) with
      | none => s
      | some q => (s.modApplier t.src (fun a => { a with held := a.held.erase q })).runTurn q.1 q.2 fuel

/-- R366: INC differs from the one held: the applier starts afresh. (Log 70: DEDUCED.) -/
def State.freshApplier (s : State) (t : Txn) : State :=
  if (s.applier t.src).inc = t.inc then s
  else { (s.modApplier t.src (fun _ => { inc := t.inc })) with
         brdl := { (s.modApplier t.src (fun _ => { inc := t.inc })).brdl with
                   frags := s.brdl.frags.filter (fun f => f.src != t.src) } }

/-- Transactions held by every applier. -/
def State.heldTotal (s : State) : Nat := s.brdl.appl.foldl (fun n e => n + e.2.held.length) 0

/-- R366: a duplicate is answered OK, an atomic with its saved result; of a fragment only the last is answered.
(Log 60: DEDUCED.) -/
def State.answerAgain (s : State) (port : Nat) (t : Txn) : State :=
  let old := ((s.applier t.src).saved.find? (fun e => e.1 == t.wseq)).map (fun e => e.2)
  if t.op = 4 ∧ !t.last then s
  else s.reply port t 0 (if 5 ≤ t.op ∧ t.op ≤ 8 then leBytes 8 (old.getD 0) else []) 512

/-- R366: a sequenced transaction has arrived. -/
def State.ingress (s : State) (port : Nat) (t : Txn) : State :=
  let s := s.freshApplier t
  let a := s.applier t.src
  if t.wseq = a.next then (s.runTurn port t (a.held.length + 1)).answerFences t.src
  else if serialLt t.wseq a.next 32 then s.answerAgain port t
  else if a.held.any (fun q => q.2.wseq == t.wseq) then
    s.modApplier t.src (fun a => { a with held := a.held.map (fun q => if q.2.wseq = t.wseq then (port, t) else q) })
  else if a.held.length < 64 ∧ s.heldTotal < 16384 then s.modApplier t.src (fun a => { a with held := a.held ++ [(port, t)] })
  else s.reply port t 1 [] 512

/-- R188, R193, R518: a WRITE or an atomic whose turn has come meets a storage error at byte `det.2` of its access. -/
def State.ingressError (s : State) (t : Txn) (det : Option (Nat × Nat)) : State :=
  match det with
  | none => s
  | some (sev, o) =>
    let n := if t.op = 2 then 128 else 8
    let off := t.addr % 2 ^ 44 / n * n
    if t.op ≠ 2 ∧ ¬(5 ≤ t.op ∧ t.op ≤ 8) then s
    else match s.judge t off n with
      | .error _ => s
      | .ok r =>
        let p := s.fld F.BRDL_RGN_CTRL_PART r 0
        let w := min n 64
        match s.regionLoc p (s.regionAddr r off + o % n / w * w) w with
        | some l => if ((s.freshApplier t).applier t.src).next = t.wseq then s.detect p l (some (sev, o % w)) else s
        | none => s

/-- Shared form of the sequenced requests. -/
def opIngress (op port : Nat) (det : Option (Nat × Nat)) (t : Nat) (s : State) : Host.Outcome State Fault Refusal :=
  if port < 97 then
    let s := s.toTime t
    match s.arrived port op with
    | none => .next s
    | some q =>
      if s.asleep then .next ((s.takeRx port op).autoWake.reply port q 1 [] 512)
      else if s.accessWaits q then .next s
      else .next (((s.takeRx port op).ingressError q det).ingress port q)
  else .refused .illFormed

/-- BRDL_WRITE. -/
def execBrdlWrite (port : Nat) (met : Option (Nat × Nat) × Nat) (s : State) := opIngress 2 port met.1 met.2 s
/-- BRDL_EXCHANGE. -/
def execBrdlExchange (port t : Nat) (s : State) := opIngress 4 port none t s
/-- ATOMIC_ADD. -/
def execAtomicAdd (port : Nat) (met : Option (Nat × Nat) × Nat) (s : State) := opIngress 5 port met.1 met.2 s
/-- ATOMIC_MIN. -/
def execAtomicMin (port : Nat) (met : Option (Nat × Nat) × Nat) (s : State) := opIngress 6 port met.1 met.2 s
/-- ATOMIC_MAX. -/
def execAtomicMax (port : Nat) (met : Option (Nat × Nat) × Nat) (s : State) := opIngress 7 port met.1 met.2 s
/-- ATOMIC_CAS. -/
def execAtomicCas (port : Nat) (met : Option (Nat × Nat) × Nat) (s : State) := opIngress 8 port met.1 met.2 s
/-- OWN_REQ. (Log 67: DEDUCED.) -/
def execOwnReq (port t : Nat) (s : State) := opIngress 9 port none t s
/-- OWN_GRANT. -/
def execOwnGrant (port t : Nat) (s : State) := opIngress 10 port none t s
/-- OWN_RELEASE. (Log 67: DEDUCED.) -/
def execOwnRelease (port t : Nat) (s : State) := opIngress 11 port none t s

/-- BRDL_FENCE (R377): a FENCE is answered when every transaction of its source with a lower write sequence has been
performed. (Log 71: DEDUCED.) -/
def execBrdlFence (port t : Nat) (s : State) : Host.Outcome State Fault Refusal :=
  if port < 97 then
    let s := s.toTime t
    match s.arrived port 3 with
    | none => .next s
    | some q =>
      let s := s.takeRx port 3
      if s.asleep then .next (s.autoWake.reply port q 1 [] 512)
      else if !s.chartered q.src 3 then .next ((s.charterRefuse port q).reply port q 6 [] 512)
      else
        let s := s.freshApplier q
        .next ((s.modApplier q.src (fun a => { a with fences := a.fences ++ [(port, q)] })).answerFences q.src)
  else .refused .illFormed

/-! ### Responses at the source (R362, R363, R367, R369) -/

/-- R354: a tag is free again: what waits for one goes on. -/
def State.afterTag (s : State) : State :=
  let s := s.brdl.bulk.foldl (fun s b => s.pumpBulk b.key) s
  let s := s.parts.foldl (fun s e => if e.2.xg.outbox.isEmpty then s else s.pumpOutbox e.1) s
  s.pumpGrants

/-- The value of a scalar load from a response (R147, R178, R521): a marked line reads as all-ones bytes. -/
def loadOf (f : Flit) (addr status : Nat) (data : Bytes) : Nat :=
  if status = 7 then allOnes f.width
  else if f.kind = 0 then fieldAt data (addr % 128) f.width
  else fieldAt data 0 f.width

/-- The offset a transaction's refusal record names. -/
def State.refused (s : State) (o : OutTxn) (status : Nat) : State :=
  if o.part < 512 then s.lastRefusal o.part status o.t.dst (o.t.addr % 2 ^ 44) else s

/-- Removes an outstanding transaction. -/
def State.dropTxn (s : State) (tag : Nat) : State :=
  { s with brdl := { s.brdl with txns := s.brdl.txns.filter (fun o => o.t.tag != tag) } }

/-- R363: the status with which a refused scalar access stops its partition. (Log 68, 69: DEDUCED.) -/
def refusalStop (f : Flit) (status : Nat) : Nat := if f.kind = 4 then 0x0300 + status else St.ADDR_FAULT

/-- Fills bytes of a unit's buffer with what a line read brought. -/
def UnitBuf.fill (b : UnitBuf) (pos skip n : Nat) (data : Bytes) (bad : Bool) : UnitBuf :=
  { b with data := b.data.take pos ++ slice (padTo data 128) skip n ++ b.data.drop (pos + n),
           bad := if bad then b.bad ++ [(pos, n)] else b.bad, left := b.left - 1 }

/-- A transaction has been performed (status 0, or 7 for a marked line). -/
def State.succeed (s : State) (o : OutTxn) (status : Nat) (data : Bytes) : State :=
  match o.for_ with
  | .load f =>
    let s := if status = 7 then s.raiseVote o.part voteReplay else s
    s.respond f (f.srcs.headD (0, 0)) (if f.kind = 0 then 1 else 5) (loadOf f f.addr status data)
  | .store f => s.respond f (f.srcs.headD (0, 0)) 3 0
  | .copyRead c key unit pos skip n _ =>
    s.modCopy c key (fun y => { y with bufs := y.bufs.map (fun b =>
      if b.unit = unit then b.fill pos skip n data (status == 7) else b) })
  | .copyWrite c key _ => s.copyAck c key
  | .own msg p off f => (if msg = 2 then s.notice p off 2 else s).respond f (f.srcs.headD (0, 0)) 3 0
  | .grant _ => s
  | .bulk key => match s.bulk key with
    | some b => s.setBulk key (some { b with outstanding := b.outstanding - 1 })
    | none => s
  | .exchange _ _ | .posted | .fence => s

/-- An ownership request that will not be granted is forgotten. -/
def State.dropOwnWait (s : State) (node p off : Nat) : State :=
  let rest := s.brdl.ownWait.filter (fun w => !(w.1 == node && w.2.2.1 == p && w.2.2.2 == off))
  { s with brdl := { s.brdl with ownWait := rest } }

/-- R363, R372: a transaction has been refused with a status of R362. (Log 68, 69: DEDUCED.) -/
def State.refuse (s : State) (o : OutTxn) (status : Nat) : State :=
  let s := s.refused o status
  match o.for_ with
  | .load f | .store f => s.stopPart o.part (refusalStop f status)
  | .copyRead c key _ _ _ _ addr => s.modCopy c key (fun y => y.meet St.ADDR_FAULT addr)
  | .copyWrite c key addr => (s.modCopy c key (fun y => y.meet St.ADDR_FAULT addr)).copyAck c key
  | .own msg p off f =>
    let s := if msg = 1 then s.dropOwnWait o.t.dst p off else s
    (s.notice p off 3).respond f (f.srcs.headD (0, 0)) 3 0
  | .bulk key => match s.bulk key with
    | some b => s.setBulk key (some { b with outstanding := b.outstanding - 1, fault := some (b.fault.getD St.ADDR_FAULT) })
    | none => s
  | .posted => s.stopPart o.part St.ADDR_FAULT
  | .grant _ | .exchange _ _ | .fence => s

/-- R367, R368: a transaction ends with LINK_LOST. A load's value is then open. (Log 66: DEDUCED.) -/
def State.lose (s : State) (o : OutTxn) : State :=
  match o.for_ with
  | .load f =>
    let (s, bs) := (s.raiseVote o.part voteSkip).freeBytes f.width
    s.respond f (f.srcs.headD (0, 0)) (if f.kind = 0 then 1 else 5) (leNat bs)
  | .store f => (s.raiseVote o.part voteSkip).respond f (f.srcs.headD (0, 0)) 3 0
  | .copyRead c key unit _ _ _ addr => s.modCopy c key (fun y =>
      if y.bufs.any (fun b => b.unit == unit) then (y.meet St.LINK_LOST addr).moveDone unit 0 else y)
  | .copyWrite c key addr => (s.modCopy c key (fun y => y.meet St.LINK_LOST addr)).copyAck c key
  | .own msg p off f =>
    let s := if msg = 1 then s.dropOwnWait o.t.dst p off else s
    (s.raiseVote p voteSkip).respond f (f.srcs.headD (0, 0)) 3 0
  | .bulk key => match s.bulk key with
    | some b => s.setBulk key (some { b with outstanding := b.outstanding - 1, fault := some (b.fault.getD St.LINK_LOST) })
    | none => s
  | .posted => s.raiseVote o.part voteSkip
  | .grant _ | .exchange _ _ | .fence => s

/-- R367: the incarnation a response carries; another than the last one seen loses everything outstanding there.
(Log 70: DEDUCED.) -/
def State.seeInc (s : State) (node inc : Nat) : State :=
  let last := tget s.brdl.seen node 0
  let s := { s with brdl := { s.brdl with seen := tput s.brdl.seen node (inc + 1) 0 } }
  if last = 0 ∨ last = inc + 1 then s
  else
    let gone := s.brdl.txns.filter (fun o => o.t.dst == node && !o.fenced)
    let s := { s with brdl := { s.brdl with txns := s.brdl.txns.filter (fun o => o.t.dst != node),
                                            egress := tput s.brdl.egress node 0 0 } }
    (gone.foldl (fun s o => s.lose o) s).afterTag

/-- A write or an atomic that answers nothing but its being performed. -/
def OutTxn.isWrite (o : OutTxn) : Bool := match o.for_ with
  | .store _ | .copyWrite _ _ _ | .bulk _ | .posted => true
  | _ => false

/-- R377: every write of this node to `node` below a write sequence counts as answered: a store as done at its core, a write
of a copy or a stream as acknowledged; only their tags stay held, until their responses. -/
def State.countFenced (s : State) (node w : Nat) : State :=
  let mine := fun (o : OutTxn) => o.isWrite && !o.fenced && o.t.dst == node && serialLt o.t.wseq w 32
  let s' := { s with brdl := { s.brdl with txns := s.brdl.txns.map (fun o => if mine o then { o with fenced := true } else o) } }
  (s.brdl.txns.filter mine).foldl (fun s o => match o.for_ with
    | .store f => s.accDone f.core f.sq
    | _ => s.succeed o 0 []) s'

/-- R234: the response of a copy's transaction comes back to its copy engine under another generation. -/
def State.staleTxn (s : State) (o : OutTxn) : Bool := match o.for_ with
  | .copyRead _ _ _ _ _ _ _ | .copyWrite _ _ _ => genVerdict o.gen (s.fld F.HALL_GEN_GEN o.part 0) != 0
  | _ => false

/-- R362, R369: a response is matched with the transaction's current attempt, and acted on by its status. -/
def State.settle (s : State) (r : Txn) : State :=
  match s.brdl.txns.find? (fun o => o.t.tag == r.tag && o.t.dst == r.src && o.t.attempt == r.attempt &&
      rspOp o.t.op == r.op && o.heldAt.isNone) with
  | none => s
  | some o =>
    let s := if o.port < 96 then s.modPort o.port (fun x => { x with pathTimeouts := 0 }) else s
    if r.status = 1 then s.modTxn r.tag (fun o => { o with heldAt := some s.mono })
    else
      let s := s.dropTxn r.tag
      let s := if r.status = 0 ∧ r.op = 0x83 then s.countFenced r.src o.t.wseq else s
      if o.fenced then s.afterTag
      else if s.staleTxn o then (s.countStale o.part o.gen).afterTag
      else
      (if r.status = 0 ∨ r.status = 7 then s.succeed o r.status r.data else s.refuse o r.status).afterTag

/-- Shared form of the responses. -/
def opResponse (op port t : Nat) (s : State) : Host.Outcome State Fault Refusal :=
  if port < 97 then
    let s := s.toTime t
    match s.arrived port op with
    | none => .next s
    | some r => .next (((s.takeRx port op).seeInc r.src r.inc).settle r)
  else .refused .illFormed

/-- READ_RSP. -/
def execReadRsp (port t : Nat) (s : State) := opResponse 0x81 port t s
/-- WRITE_ACK. -/
def execWriteAck (port t : Nat) (s : State) := opResponse 0x82 port t s
/-- FENCE_RSP. -/
def execFenceRsp (port t : Nat) (s : State) := opResponse 0x83 port t s
/-- EXCHANGE_ACK. -/
def execExchangeAck (port t : Nat) (s : State) := opResponse 0x84 port t s
/-- ATOMIC_RSP. -/
def execAtomicRsp (port t : Nat) (s : State) := opResponse 0x85 port t s
/-- OWN_ACK. -/
def execOwnAck (port t : Nat) (s : State) := opResponse 0x89 port t s
/-- GRANT_ACK. -/
def execGrantAck (port t : Nat) (s : State) := opResponse 0x8A port t s
/-- RELEASE_ACK. -/
def execReleaseAck (port t : Nat) (s : State) := opResponse 0x8B port t s

/-! ### Timeouts of outstanding transactions -/

/-- The outstanding transaction with a tag. -/
def State.txnOf (s : State) (tag : Nat) : Option OutTxn := s.brdl.txns.find? (fun o => o.t.tag == tag)

/-- TXN_HELD_RETRY (R362): 20 µs after a HELD answer the transaction is sent again on the same path, the same attempt. -/
def execTxnHeldRetry (tag t : Nat) (s : State) : Host.Outcome State Fault Refusal :=
  if tag < 65536 then
    let s := s.toTime t
    match s.txnOf tag with
    | none => .next s
    | some o =>
      match o.heldAt with
      | none => .next s
      | some h =>
        if h + 20000 ≤ s.mono then
          let o' := { o with heldAt := none, held := o.held + (s.mono - h), sentAt := s.mono }
          .next ((s.modTxn tag (fun _ => o')).sendOut o')
        else .next s
  else .refused .illFormed

/-- R368: 50 ms have passed since the first attempt, time held apart. -/
def OutTxn.expired (o : OutTxn) (now : Nat) : Bool := o.heldAt.isNone && decide (o.first + o.held + 50000000 ≤ now)

/-- R368: a timeout on a path; the second in a row marks it dead. -/
def State.pathTimeout (s : State) (b node : Nat) : State :=
  if 96 ≤ b then s
  else
    let n := (s.port b).pathTimeouts + 1
    let s := s.modPort b (fun x => { x with pathTimeouts := n })
    if 2 ≤ n ∧ s.fld F.BRDL_PORT_STAT_DEAD b 0 = 0 then
      (s.setFld F.BRDL_PORT_STAT_DEAD b 0 1).post Ev.PATH_DEAD 0x31 b none (leBytes 1 b ++ [0] ++ leBytes 2 node)
    else s

/-- TXN_ATTEMPT_TIMEOUT (R368): 2 ms without a response. -/
def execTxnAttemptTimeout (tag t : Nat) (s : State) : Host.Outcome State Fault Refusal :=
  if tag < 65536 then
    let s := s.toTime t
    match s.txnOf tag with
    | none => .next s
    | some o =>
      if o.heldAt.isNone && !o.fenced && decide (o.sentAt + 2000000 ≤ s.mono) && !o.expired s.mono then
        .next ((s.pathTimeout o.port o.t.dst).reissue o)
      else .next s
  else .refused .illFormed

/-- TXN_LIFETIME_EXPIRY (R368). -/
def execTxnLifetimeExpiry (tag t : Nat) (s : State) : Host.Outcome State Fault Refusal :=
  if tag < 65536 then
    let s := s.toTime t
    match s.txnOf tag with
    | none => .next s
    | some o =>
      if o.expired s.mono then .next (if o.fenced then (s.dropTxn tag).afterTag else ((s.dropTxn tag).lose o).afterTag) else .next s
  else .refused .illFormed

/-- BRIDLE_START_DELAY_END (R365): 100 ms after the first port came up transactions may be sent. -/
def execBridleStartDelayEnd (t : Nat) (s : State) : Host.Outcome State Fault Refusal :=
  let s := s.toTime t
  match s.brdl.firstUp with
  | some f =>
    if f + 10 ^ 8 ≤ s.mono ∧ !s.brdl.ready then .next ({ s with brdl := { s.brdl with ready := true } }).afterTag else .next s
  | none => .next s

end Sys2Proof.Machine
end

