-- ==== Sys2Proof/Machine/Rings.lean ====
section
/-! DEFINITION. Rings: doorbells (R391), the arbiter (R409-R412), descriptor fetch and its checks (R390-R395, R548, R549),
completion records (R396, R397), and the requests QUERY and FENCE (R394, R395). -/

namespace Sys2Proof.Machine
open Sys2Proof

/-! ### Rings of a function (R386, R390, R545) -/

/-- A register field of ring `r` of a function (512 the PF). -/
def State.rf (s : State) (f : Fld) (fn r : Nat) : Nat := s.fld f (4 * fn + r / 32) (r % 32)
def State.setRf (s : State) (f : Fld) (fn r v : Nat) : State := s.setFld f (4 * fn + r / 32) (r % 32) v

/-- Ring contexts allotted to a function. -/
def State.allot (s : State) (fn : Nat) : Nat :=
  if fn = 512 then s.fld F.TACK_PF_RINGS_ALLOT 0 0
  else if (s.part fn).pstate = .live ∨ (s.part fn).leaving then s.fld F.TACK_PART_RINGS_ALLOT fn 0 else 0

/-- R386, R545: the port of a ring. -/
def ringPort (fn r : Nat) : Nat := if fn < 512 then portOf fn else if r < 64 then 0 else 1

/-- MSI-X function of a ring: a VF by its partition, or the PF of the ring's port. -/
def ringIrqFn (fn r : Nat) : Nat := if fn < 512 then fn else 512 + ringPort fn r

/-- R389, R409: the port of a ring carries the records written to it. -/
def State.ringServes (s : State) (fn r : Nat) : Bool := if fn < 512 then s.portServes fn else s.linkUp (ringPort fn r)

def State.ringSize (s : State) (fn r : Nat) : Nat := 2 ^ clampLog2 (s.rf F.RING_CTX_CFG_LOG2 fn r)
def State.ringBase (s : State) (fn r : Nat) : Nat :=
  s.reg64 RG.RING_CTX_BASE_LO RG.RING_CTX_BASE_HI (4 * fn + r / 32) (r % 32)

/-- A ring is allotted, enabled and of a type: 0 command, 1 completion, 2 receipt. -/
def State.ringOn (s : State) (fn r typ : Nat) : Bool :=
  decide (r < s.allot fn) && s.rf F.RING_CTX_CFG_EN fn r == 1 && s.rf F.RING_CTX_CFG_TYPE fn r == typ

/-- R391: a completion or receipt ring has space for a record. -/
def State.ringSpace (s : State) (fn r : Nat) : Bool :=
  (s.rf F.RING_CTX_PTR_TAIL fn r + 1) % s.ringSize fn r != s.rf F.RING_CTX_PTR_HEAD fn r

/-- Writes a record of a completion or receipt ring at its TAIL, given its PHASE, and moves TAIL on (R391). -/
def State.ringPut (s : State) (fn r width : Nat) (mk : Bool → Bytes) : State :=
  let tail := s.rf F.RING_CTX_PTR_TAIL fn r
  let k := ringKey fn r
  let x := s.ringX k
  let t' := (tail + 1) % s.ringSize fn r
  let s := s.hostWrite (ringPort fn r) (s.ringBase fn r + width * tail) (mk x.phase)
  (s.setRingX k { x with phase := if t' = 0 then !x.phase else x.phase }).setRf F.RING_CTX_PTR_TAIL fn r t'

/-- RING_DOORBELL (R391): TAIL of a command ring, HEAD of another; ignored on a ring that is not enabled and for a value of
N or more. (Log 81: DEDUCED.) -/
def execRingDoorbell (fn ring val : Nat) (s : State) : Host.Outcome State Fault Refusal :=
  if fn ≤ 512 ∧ ring < 128 ∧ val < 65536 then
    if ring < s.allot fn ∧ s.rf F.RING_CTX_CFG_EN fn ring = 1 ∧ val < s.ringSize fn ring then
      .next (if s.rf F.RING_CTX_CFG_TYPE fn ring = 0 then s.setRf F.RING_CTX_PTR_TAIL fn ring val
        else s.setRf F.RING_CTX_PTR_HEAD fn ring val)
    else .next s
  else .refused .illFormed

/-! ### Arbitration (R409-R412) -/

/-- A command ring has a descriptor the device may take: its last request has retired, and no signed receipt of it waits
for space (R391, R393, R395, R397, R500, R545). -/
def State.requesting (s : State) (fn r : Nat) : Bool :=
  s.ringOn fn r 0 && !(s.part fn).leaving && s.rf F.RING_CTX_CFG_STOPPED fn r == 0 && s.rf F.RING_CTX_PTR_HEAD fn r != s.rf F.RING_CTX_PTR_TAIL fn r &&
    (s.req (ringKey fn r)).isNone && s.linkUp (ringPort fn r) && s.fld F.TACK_BRINGUP_READY 0 0 == 1 &&
    s.mtr.due.all (fun q => !(q.fn == fn && q.ring == r && q.signed.isSome))

/-- A request in progress has a data burst to move (R410). -/
def State.dataWaits (s : State) (fn r : Nat) : Bool :=
  match s.req (ringKey fn r) with
  | some q => q.status.isNone && decide (q.bursts < s.burstsDue fn q) && s.linkUp (ringPort fn r)
  | none => false

/-- Functions with rings on a port: its partitions, and the PF. -/
def portFns (port : Nat) : List Nat := (List.range 256).map (fun i => 256 * port + i) ++ [512]

/-- The functions whose rings the arbiter of a port decides among: in shared mode only the owner of the slot (R409, R410). -/
def State.slotFns (s : State) (port slot : Nat) : List Nat :=
  let i := slot / 2
  let owned := if slot % 2 = 0 then s.fld F.PCIE_SLOT_OWNED_EVEN port i else s.fld F.PCIE_SLOT_OWNED_ODD port i
  let part := if slot % 2 = 0 then s.fld F.PCIE_SLOT_PART_EVEN port i else s.fld F.PCIE_SLOT_PART_ODD port i
  let owner := if owned = 1 then part else 512
  if s.sharedMode then (portFns port).filter (fun f => f == owner) else portFns port

/-- Rings requesting at a port, for a descriptor fetch or a data burst, in ascending ring index. -/
def State.requesters (s : State) (port slot : Nat) : List (Nat × Nat) :=
  ((List.range 128).flatMap (fun r => (s.slotFns port slot).map (fun f => (f, r)))).filter (fun q =>
    decide (ringPort q.1 q.2 = port) && (s.requesting q.1 q.2 || s.dataWaits q.1 q.2))

/-- R412: a ring's count of lost decisions after one at which the rings `reqs` of the functions `fns` requested and `key` was
granted; the count of one of theirs that did not request starts again. -/
def State.countLost (s : State) (port : Nat) (fns : List Nat) (reqs : List (Nat × Nat)) (key : Nat) : State :=
  let s := (s.host.rings.filter (fun e => e.2.lost != 0 && fns.contains (e.1 / 128) && decide (ringPort (e.1 / 128) (e.1 % 128) = port) &&
    !reqs.contains (e.1 / 128, e.1 % 128))).foldl (fun (s : State) e => s.setRingX e.1 { s.ringX e.1 with lost := 0 }) s
  reqs.foldl (fun (s : State) q =>
    let k := ringKey q.1 q.2
    s.setRingX k { s.ringX k with lost := if k = key then 0 else (s.ringX k).lost + 1 }) s

/-- R412: effective priority. -/
def State.effPrio (s : State) (fn r : Nat) : Nat :=
  min 7 (s.rf F.RING_CTX_ARB_PRIO fn r + (s.ringX (ringKey fn r)).lost / 1024)

def State.arb (s : State) (port : Nat) : Arb := if port = 0 then s.host.arbA else s.host.arbB
def State.setArb (s : State) (port : Nat) (a : Arb) : State :=
  { s with host := if port = 0 then { s.host with arbA := a } else { s.host with arbB := a } }

/-- R410: the ring granted among those of highest effective priority: the last one while its weight lasts, else the next in
ascending ring index. -/
def State.pick (s : State) (a : Arb) (top : List (Nat × Nat)) : Option (Nat × Nat) :=
  let here := top.find? (fun q => a.last == some (ringKey q.1 q.2))
  let order := fun (k : Nat) => k % 128 * 1024 + k / 128
  let next := match a.last with
    | some k => (top.find? (fun q => decide (order k < order (ringKey q.1 q.2)))).orElse (fun _ => top.head?)
    | none => top.head?
  match here with
  | some q => if a.count < max 1 (s.rf F.RING_CTX_ARB_WEIGHT q.1 q.2) then some q else next
  | none => next

/-- ARBITER_DECISION: at the end of a grant the arbiter of a port grants a ring; in shared mode inside slot `slot`. A grant for
a descriptor lasts until its DESCRIPTOR_FETCH, one for a data burst is the burst. (Log 157: DESIGN CHOICE.) -/
def execArbiterDecision (port slot : Nat) (s : State) : Host.Outcome State Fault Refusal :=
  if port < 2 ∧ slot < 1024 then
    let a := s.arb port
    let busy := a.granted && (match a.last with
      | some k => s.requesting (k / 128) (k % 128)
      | none => false)
    if busy then .next s
    else
      let reqs := s.requesters port slot
      let hi := reqs.foldl (fun m q => max m (s.effPrio q.1 q.2)) 0
      let top := reqs.filter (fun q => s.effPrio q.1 q.2 == hi)
      match s.pick a top with
      | none => .next ((s.countLost port (s.slotFns port slot) [] 0).setArb port { a with granted := false })
      | some g =>
        let key := ringKey g.1 g.2
        let s := s.countLost port (s.slotFns port slot) reqs key
        let data := s.dataWaits g.1 g.2
        let s := if data then (match s.req key with
          | some q => s.setReq key (some { q with bursts := q.bursts + 1, hostAt := s.mono })
          | none => s) else s
        .next (s.setArb port { last := some key, count := if a.last = some key then a.count + 1 else 1, granted := !data })
  else .refused .illFormed

/-! ### Descriptor fetch (R392-R395) -/

/-- R392: a descriptor. -/
def decodeReq (b : Bytes) : Req :=
  { op := fieldAt b 0 1, flags := fieldAt b 1 1, cring := fieldAt b 2 1, rring := fieldAt b 3 1, seq := fieldAt b 8 8,
    arg0 := fieldAt b 0x10 8, arg1 := fieldAt b 0x18 8, len := fieldAt b 0x20 8, tag := fieldAt b 0x28 8 }

/-- R392, R393: a reserved opcode or a reserved field that is not 0. -/
def reqReserved (b : Bytes) : Bool :=
  fieldAt b 0 1 == 0 || decide (9 < fieldAt b 0 1) || decide (4 ≤ fieldAt b 1 1) || fieldAt b 4 4 != 0 || fieldAt b 0x30 16 != 0

/-- R548, R549: a descriptor other than QUERY or FENCE. -/
def Req.works (r : Req) : Bool := r.op != 8 && r.op != 9

/-- The request is taken, with the status it fails with at once. A receipt it asks for is due only when its receipt ring is
there; with no completion ring to answer on it leaves no completion, but its receipt (R393, R397). -/
def State.takeReq (s : State) (fn ring : Nat) (r : Req) (fail : Option Nat) : State :=
  let s := { s with host := { s.host with taken := s.host.taken + 1 } }
  let r := if r.flags % 2 = 1 ∧ !s.ringOn fn r.rring 2 then { r with flags := r.flags - 1 } else r
  let s := s.setReq (ringKey fn ring) (some r)
  let s := match fail with
    | some st => s.endReq (ringKey fn ring) st
    | none => s
  if s.ringOn fn r.cring 1 then s else s.setReq (ringKey fn ring) none

/-- DESCRIPTOR_FETCH: the ring that holds its port's grant takes the descriptor `desc` at HEAD. -/
def execDescriptorFetch (fn ring : Nat) (desc : Bytes) (t : Nat) (s : State) : Host.Outcome State Fault Refusal :=
  if fn ≤ 512 ∧ ring < 128 then
    let s := s.toTime t
    let port := ringPort fn ring
    let a := s.arb port
    let d := (padTo desc 64).take 64
    let r := decodeReq d
    let pst := s.fld F.GLB_POWER_STATE_STATE 0 0
    if !(s.requesting fn ring && a.granted && a.last == some (ringKey fn ring)) then .next s
    else if pst = 1 ∧ r.works then .next s.autoWake
    else
      let s := s.setArb port { a with granted := false }
      let s := s.setRf F.RING_CTX_PTR_HEAD fn ring ((s.rf F.RING_CTX_PTR_HEAD fn ring + 1) % s.ringSize fn ring)
      let inst := 4 * fn + ring / 32
      let exp := s.reg64 RG.RING_CTX_SEQ_LO RG.RING_CTX_SEQ_HI inst (ring % 32)
      let r := { r with taken := s.host.taken, startMono := s.mono, startTai := s.tai,
                        startDisc := s.fld F.TIME_DISC_COUNT 0 0, unsynced := s.fld F.TIME_STAT_UNSYNCED 0 0 == 1,
                        shortW := fn < 512 && (s.part fn).shortW.isSome, shortB := fn < 512 && (s.part fn).shortB.isSome,
                        flags := if fn = 512 then r.flags / 2 * 2 else r.flags }
      if r.seq ≠ exp then .next ((s.setRf F.RING_CTX_CFG_STOPPED fn ring 1).takeReq fn ring r (some St.SEQ_FAULT))
      else
        let s := s.setReg64 RG.RING_CTX_SEQ_LO RG.RING_CTX_SEQ_HI inst (ring % 32) ((exp + 1) % 2 ^ 64)
        let fail := if reqReserved d ∨ (fn = 512 ∧ r.works) then some St.OP_FAULT
          else if !s.ringOn fn r.cring 1 ∨ (r.flags % 2 = 1 ∧ !s.ringOn fn r.rring 2) then some St.RING_FAULT
          else if pst = 2 ∧ r.works then some St.PARTITION_BUSY
          else none
        .next (s.takeReq fn ring r fail)
  else .refused .illFormed

/-! ### Completion records (R396, R397) -/

/-- R396: the 32 bytes of a completion record. -/
def completionBytes (r : Req) (ring : Nat) (phase : Bool) : Bytes :=
  leBytes 8 r.seq ++ leBytes 8 r.tag ++ leBytes 2 (r.status.getD 0) ++ leBytes 1 ring ++
    leBytes 1 (b2n phase + 2 * b2n (r.shortW || r.shortB)) ++ leBytes 4 (sat32 r.steps) ++ (padTo r.audit 8).take 8

/-- Writes the completion record of a request that has ended, and retires it. -/
def State.writeCompletion (s : State) (fn ring : Nat) (r : Req) : State :=
  let s := s.ringPut fn r.cring 32 (completionBytes r ring)
  let s := s.setReq (ringKey fn ring) none
  if bitOf r.flags 1 then s.signal (ringIrqFn fn r.cring) (s.rf F.RING_CTX_CFG_VECTOR fn r.cring) else s

/-! ### The end of a partition's rings (R388, R405) -/

/-- Event records of an event ring that wait for their link are dropped with it. -/
def State.dropLate (s : State) (e : Nat) : State :=
  { s with host := { s.host with late := s.host.late.filter (fun w => w.ring != e) } }

/-- Rings of a function are disabled, the requests in progress on them gone; their energy stays in the line (R479). -/
def State.closeRings (s : State) (fn : Nat) (rings : List Nat) : State :=
  rings.foldl (fun (s : State) r =>
    let s := if s.rf F.RING_CTX_CFG_EN fn r = 0 then s else s.setRf F.RING_CTX_CFG_EN fn r 0
    match s.req (ringKey fn r) with
    | none => s
    | some q =>
      let s := s.setReq (ringKey fn r) none
      if fn < 512 ∧ q.status.isNone then
        { s with mtr := { s.mtr with ended := s.mtr.ended ++ [(fn, q.startMono, s.mono, 0)] } }
      else s) s

/-- R405 order 2: every request of the partition completes with PARTITION_GONE; the records that fit are written. -/
def State.goneRequests (s : State) (p : Nat) : State :=
  (List.range 128).foldl (fun (s : State) r =>
    let s := s.endReq (ringKey p r) St.PARTITION_GONE
    match s.req (ringKey p r) with
    | some q => if s.ringOn p q.cring 1 && s.ringSpace p q.cring && s.portServes p then s.writeCompletion p r q else s
    | none => s) s

/-- Whatever of a partition is on its way, in the hallway or on Bridle, is dropped with it. -/
def State.dropTraffic (s : State) (p : Nat) : State :=
  let h := { s.hall with
    flits := s.hall.flits.filter (fun f => f.part != p)
    staged := s.hall.staged.filter (fun g => g.part != p)
    applied := s.hall.applied.filter (fun g => g.1 != p) }
  let b := { s.brdl with
    txns := s.brdl.txns.filter (fun o => o.part != p)
    bulk := s.brdl.bulk.filter (fun g => g.part != p)
    msgs := s.brdl.msgs.filter (fun m => m.1 != p)
    ownWait := s.brdl.ownWait.filter (fun w => w.2.2.1 != p) }
  { s with hall := h, brdl := b }

/-- R405 order 4: every Bridle region of the partition becomes invalid. -/
def State.dropRegions (s : State) (p : Nat) : State :=
  (List.range 1024).foldl (fun (s : State) r =>
    if s.fld F.BRDL_RGN_CTRL_VALID r 0 = 1 ∧ s.fld F.BRDL_RGN_CTRL_PART r 0 = p then s.setFld F.BRDL_RGN_CTRL_VALID r 0 0 else s) s

/-- R225, R405 order 6: the Tack Room's zeroisation traffic, one operator flit to each slice. -/
def State.sendZeroes (s : State) (tiles : List Nat) : State :=
  tiles.foldl (fun s t => if s.hole (s.physRoom (t / 32)) then s else s.addFlit (s.mgmtFlit 512 15554 (12288 + t))) s

/-- R397: a completion or a receipt of a partition waits for space in a ring that is still enabled. (Log 79: DEDUCED.) -/
def State.recordsHeld (s : State) (p : Nat) : Bool :=
  (List.range 128).any (fun r => match s.req (ringKey p r) with
    | some q => s.ringOn p q.cring 1
    | none => false) ||
  s.mtr.due.any (fun q => q.fn == p && s.ringOn p q.rring 2)

/-- R405 orders 3-5 and the start of order 6, once no record of the partition waits. (Log 79: DEDUCED.) -/
def State.leaveNow (s : State) (p : Nat) : State :=
  let x := s.part p
  if !x.leaving || s.recordsHeld p then s
  else
    let s := (s.closeRings p (List.range 128)).setFld F.RING_EVT_CFG_EN p 0 0
    let s := { s.dropLate p with mtr := { s.mtr with due := s.mtr.due.filter (fun q => q.fn != p) } }
    let s := (s.dropRegions p).dropTraffic p
    (s.setPart p { pstate := .zeroising, tiles := x.tiles }).sendZeroes x.tiles

/-- COMPLETION_RECORD_WRITE: the record of an ended request, once its completion ring has space and its link is up.
(Log 78: DEDUCED.) -/
def execCompletionRecordWrite (fn ring t : Nat) (s : State) : Host.Outcome State Fault Refusal :=
  if fn ≤ 512 ∧ ring < 128 then
    let s := s.toTime t
    match s.req (ringKey fn ring) with
    | none => .next s
    | some r =>
      if r.status.isSome && s.ringOn fn r.cring 1 && s.ringSpace fn r.cring && s.ringServes fn r.cring then
        .next ((s.writeCompletion fn ring r).leaveNow fn)
      else .next s
  else .refused .illFormed

/-! ### QUERY (R394) -/

/-- R416: TACK_PART_STAT. (Log 77: DEDUCED.) -/
def State.partStat (s : State) (p : Nat) : Nat :=
  let x := s.part p
  (match x.pstate with
    | .free => 0
    | .live => 1
    | .zeroising => 2) + 4 * b2n x.run.isSome + 8 * b2n x.stopped.isSome + 16 * b2n (x.shortW.isSome || x.shortB.isSome) +
    32 * b2n x.flrHold + 65536 * (if x.tiles.length = 3072 ∧ !s.sharedMode then 0 else x.tiles.length)

/-- R311: BRDL_XG_VOTE. -/
def State.xgVote (s : State) (p : Nat) : Nat :=
  let x := s.part p
  x.vote % 4 + 4 * (x.finalVote % 4) + 16 * (x.attempt % 4) + 64 * b2n x.closed

/-- R394: the 64 bytes of a QUERY of kind 0; on a PF ring its partition fields are 0. (Log 76, 77: DEDUCED.) -/
def State.queryStatus (s : State) (fn : Nat) : Bytes :=
  if fn = 512 then List.replicate 64 0
  else
    leBytes 8 (s.part fn).step ++ leBytes 4 (s.xgVote fn) ++ leBytes 4 (s.reg RG.TACK_HARN_STAT fn 0) ++
      leBytes 4 (s.reg RG.TACK_HARN_LOAD_STATUS fn 0) ++ leBytes 4 (s.partStat fn) ++ List.replicate 8 0 ++
      (padTo (s.part fn).harness.digest 32).take 32

/-- R394: the 64 bytes of a QUERY of kind 1. -/
def State.queryTime (s : State) : Bytes :=
  padTo (leBytes 8 s.mono ++ leBytes 8 s.tai ++ leBytes 4 (s.fld F.TIME_DISC_COUNT 0 0)) 64

/-- Shared form of the two kinds of QUERY: the result goes to a host window, or for a PF ring to a bus address.
(Log 76: DEDUCED.) -/
def opQuery (kind fn ring t : Nat) (bytes : State → Bytes) (s : State) : Host.Outcome State Fault Refusal :=
  if fn ≤ 512 ∧ ring < 128 then
    let s := s.toTime t
    let key := ringKey fn ring
    match s.opReq fn ring 8 with
    | none => .next s
    | some r =>
      if 1 < r.arg0 ∨ r.len ≠ 64 then .next (s.endReq key St.OP_FAULT)
      else if r.arg0 ≠ kind then .next s
      else if !s.ringServes fn ring then .next (s.hostWait key)
      else if fn = 512 then .next ((s.hostWrite (ringPort fn ring) r.arg1 (bytes s)).endReq key St.OK)
      else if spaceOf r.arg1 ≠ 5 then .next (s.endReq key St.ADDR_FAULT)
      else match s.devWrite fn .agent r.arg1 (bytes s) false with
        | .ok s => .next (s.endReq key St.OK)
        | .error e => .next (s.endReq key e.1)
  else .refused .illFormed

/-- QUERY_STATUS. -/
def execQueryStatus (fn ring t : Nat) (s : State) := opQuery 0 fn ring t (fun s => s.queryStatus fn) s
/-- QUERY_TIME. -/
def execQueryTime (fn ring t : Nat) (s : State) := opQuery 1 fn ring t (fun s => s.queryTime) s

/-! ### FENCE (R395) -/

/-- Every request the function took before a FENCE has completed. -/
def State.fenceClear (s : State) (fn taken : Nat) : Bool :=
  s.host.rings.all (fun e => e.1 / 128 != fn || (match e.2.req with
    | some q => decide (taken ≤ q.taken)
    | none => true))

/-- HOST_FENCE. -/
def execHostFence (fn ring t : Nat) (s : State) : Host.Outcome State Fault Refusal :=
  if fn ≤ 512 ∧ ring < 128 then
    let s := s.toTime t
    match s.opReq fn ring 9 with
    | none => .next s
    | some r => if s.fenceClear fn r.taken then .next (s.endReq (ringKey fn ring) St.OK) else .next s
  else .refused .illFormed

end Sys2Proof.Machine
end

