-- ==== Sys2Proof/Machine/Part.lean ====
section
/-! DEFINITION. Partitions: CREATE (R402), DESTROY and zeroisation (R405), MOVE (R406), Function Level Reset (R388), PERST_N
(R557), PCIe links and host-window timeouts (R385, R389). -/

namespace Sys2Proof.Machine
open Sys2Proof

/-! ### Ledger lines (R487, R488) -/

/-- The date of a day number (R484). -/
def isLeap (y : Nat) : Bool := (y % 4 == 0 && y % 100 != 0) || y % 400 == 0
def daysInMonth (y m : Nat) : Nat :=
  if m = 2 then (if isLeap y then 29 else 28) else if [4, 6, 9, 11].contains m then 30 else 31
def monthOf (y n m : Nat) : Nat → Nat × Nat
  | 0 => (m, n + 1)
  | fuel + 1 => if n < daysInMonth y m then (m, n + 1) else monthOf y (n - daysInMonth y m) (m + 1) fuel
def yearOf (y n : Nat) : Nat → Nat × Nat
  | 0 => (y, n)
  | fuel + 1 =>
    let k := if isLeap y then 366 else 365
    if n < k then (y, n) else yearOf (y + 1) (n - k) fuel
def dayNumber (y m d : Nat) : Nat :=
  (List.range (y - 2000)).foldl (fun n i => n + if isLeap (2000 + i) then 366 else 365) 0 +
    (List.range (m - 1)).foldl (fun n i => n + daysInMonth y (i + 1)) 0 + (d - 1)
def dateOf (n : Nat) : Nat × Nat × Nat :=
  let y := yearOf 2000 n 400
  let m := monthOf y.1 y.2 1 12
  (y.1, m.1, m.2)

/-- Bytes 0x08-0x11 of a receipt or ledger record: LOT, WAFER and RING (R480, R488). -/
def State.unitBytes (s : State) (ring : Nat) : Bytes :=
  leBytes 8 (s.reg64 RG.ID_LOT_LO RG.ID_LOT_HI 0 0) ++ leBytes 1 (s.fld F.ID_UNIT_WAFER 0 0) ++ leBytes 1 ring

/-- Energy in mJ, rounded down. -/
def milli (uj : Int) : Int := uj / 1000

/-- R488: bytes 0x00-0xBB of the ledger record of line `part` (0xFFFE operator, 0xFFFF total) for day `day`. -/
def State.ledgerBytes (s : State) (part day : Nat) (l : MLine) (partial_ : Bool) : Bytes :=
  let d := dateOf day
  let disc := s.fld F.TIME_DISC_COUNT 0 0
  let cls := if part = 0xFFFE then 2 else if part = 0xFFFF then 3 else b2n l.wasA
  let flags := b2n l.short + 2 * b2n (disc != l.discOpen) + 4 * b2n (l.unsynced || s.fld F.TIME_STAT_UNSYNCED 0 0 == 1) +
    8 * b2n partial_
  padTo (leBytes 1 2 ++ leBytes 1 1 ++ leBytes 1 cls ++ leBytes 1 (if part < 512 then l.method else 0) ++ leBytes 2 flags ++
    leBytes 2 part ++ s.unitBytes 0 ++ leBytes 2 d.1 ++ leBytes 1 d.2.1 ++ leBytes 1 d.2.2 ++ leBytes 2 0 ++ leBytes 4 l.id ++
    leBytes 4 day ++ leBytes 8 (ofSigned 64 (milli l.energy)) ++ leBytes 8 (if part < 512 then l.idle / 1000 else 0) ++
    leBytes 8 l.receipted ++ leBytes 8 l.monoOpen ++ leBytes 8 s.mono ++ leBytes 8 s.tai ++ leBytes 4 disc ++
    leBytes 4 (s.reg RG.MTR_CAL_ID 0 0) ++ leBytes 4 s.fwAbi ++ leBytes 4 0 ++ padTo l.prev 32) 188

/-- R489: the rings a line's record goes to. -/
def State.ledgerDests (s : State) (part : Nat) : List (Nat × Nat) :=
  (if part < 512 ∧ s.fld F.MTR_LEDGER_CFG_EN part 0 = 1 then [(part, s.fld F.MTR_LEDGER_CFG_RRING part 0)] else []) ++
    (if s.fld F.MTR_LEDGER_RING_EN 0 0 = 1 then [(512, s.fld F.MTR_LEDGER_RING_RRING 0 0)] else [])

/-- R487-R490: a line is closed for a day: its record is to be signed and kept, and its chain value goes on. -/
def State.closeLine (s : State) (part day : Nat) (partial_ : Bool) : State :=
  let l := tget s.mtr.lines part {}
  let bs := s.ledgerBytes part day l partial_
  let next : MLine := { id := l.id, monoOpen := s.mono, prev := sha256 bs, discOpen := s.fld F.TIME_DISC_COUNT 0 0 }
  { s with mtr := { s.mtr with
      lines := tput s.mtr.lines part next {}
      ledger := s.mtr.ledger ++ [{ bytes := bs, dests := s.ledgerDests part }]
      kept := s.mtr.kept ++ [LedKept.mk day part bs] } }

/-! ### Creation (R197, R402, R501, R530) -/

/-- The slices named by one of the tile registers of a partition page. -/
def State.namedTiles (s : State) (r : Reg) (p : Nat) : List Nat :=
  (List.range 96).flatMap (fun i =>
    let w := s.reg r p i
    if w = 0 then [] else ((List.range 32).filter (fun b => bitOf w b)).map (fun b => 32 * i + b))

/-- R402: a tile belongs to another partition, live or being zeroised. -/
def State.tileTaken (s : State) (t : Nat) : Bool :=
  s.parts.any (fun e => e.2.tiles.contains t || (match e.2.moveTo with
    | some l => l.contains t
    | none => false))

/-- Partitions that are not free. -/
def State.usedParts (s : State) : List Nat := (s.parts.filter (fun e => decide (e.1 < 512) && e.2.pstate != .free)).map (fun e => e.1)

/-- R402: another partition's cellar range overlaps the one of `p`. -/
def State.cellarTaken (s : State) (p : Nat) : Bool :=
  s.usedParts.any (fun q => q != p && overlaps (s.cellBase p) (s.cellLen p) (s.cellBase q) (s.cellLen q))

/-- R402, R501, R509, R530: the status that refuses the creation of a partition. (Log 84: DEDUCED.) -/
def State.createRefusal (s : State) (p : Nat) : Option Nat :=
  let tiles := s.namedTiles RG.TACK_PART_TILES p
  let fail := s.fld F.TACK_BRINGUP_FAIL 0 0
  if fail = 2 then some St.IDENTITY_LOST
  else if fail = 3 ∧ 0 < s.cellLen p then some St.CELLAR_DOWN
  else if s.mtr.fault then some St.METER_FAULT
  else if s.fld F.TACK_BRINGUP_SURVEY 0 0 = 1 then some St.SURVEY_HOLD
  else if tiles = [] ∨ tiles.any s.tileTaken ∨ s.cellarTaken p ∨ s.cellarSize < s.cellBase p + s.cellLen p ∨
      (!s.sharedMode ∧ s.usedParts ≠ []) then some St.PART_FAULT
  else none

/-- The register pages that serve one partition (R542). -/
def partPages : List Nat := [0x21, 0x22, 0x23, 0x24, 0x25, 0x26, 0x27, 0x50, 0x51, 0x52, 0x53]

/-- R540: CFG_LOCK of every page of a partition returns to 0. -/
def State.unlockPart (s : State) (p : Nat) : State :=
  let s := partPages.foldl (fun (s : State) t => s.setCreg t p RG.CFG_LOCK 0) s
  (List.range 4).foldl (fun (s : State) j => s.setCreg 0x54 (4 * p + j) RG.CFG_LOCK 0) s

/-- Shared by PART_CREATE and a write of TACK_PART_CTRL.CREATE. (Log 84: DEDUCED.) -/
def State.opCreate (s : State) (p : Nat) : State :=
  if s.fld F.TACK_BRINGUP_READY 0 0 = 0 ∨ (s.part p).pstate ≠ .free ∨ (s.createRefusal p).isSome then s
  else
    -- a line that a cold reset left open closes first
    let s := if s.mtr.lines.any (fun e => e.1 == p) then s.closeLine p s.mtr.day true else s
    let line : MLine := { id := s.mtr.nextLine, monoOpen := s.mono, discOpen := s.fld F.TIME_DISC_COUNT 0 0 }
    let x : PartSt := { pstate := .live, tiles := s.namedTiles RG.TACK_PART_TILES p, key := s.free + 1 }
    let s := { s.setPart p x with free := s.free + 1 }
    let s := { s with mtr := { s.mtr with lines := tput s.mtr.lines p line {}, nextLine := s.mtr.nextLine + 1 } }
    ((s.setFld F.HALL_GEN_GEN p 0 0).unlockPart p).refreshLanes.bandShort

/-- PART_CREATE. -/
def execPartCreate (part t : Nat) (s : State) : Host.Outcome State Fault Refusal :=
  if part < 512 then .next ((s.toTime t).opCreate part) else .refused .illFormed

/-! ### Destruction (R405) -/

/-- Shared by PART_DESTROY and a write of TACK_PART_CTRL.DESTROY: orders 1 and 2, the cache written back (R186), and orders
3-5 once no record waits. (Log 79: DEDUCED.) -/
def State.opDestroy (s : State) (p : Nat) : State :=
  let x := s.part p
  if x.pstate ≠ .live then s
  else
    let s := ((s.unload p).modPart p (fun x => { x with run := none })).goneRequests p
    (s.setPart p { pstate := .zeroising, leaving := true, tiles := x.tiles, key := x.key }).leaveNow p

/-- PART_DESTROY. -/
def execPartDestroy (part t : Nat) (s : State) : Host.Outcome State Fault Refusal :=
  if part < 512 then .next ((s.toTime t).opDestroy part) else .refused .illFormed

/-- R409: zeroisation of the cellar runs in the operator's cellar slots. -/
def State.operCellSlot (s : State) : Bool :=
  !s.sharedMode || (List.range 512).any (fun i =>
    s.fld F.PRCH_CELL_SLOT_OWNED_EVEN 0 i == 0 || s.fld F.PRCH_CELL_SLOT_OWNED_ODD 0 i == 0)

/-- Zeros in every pantry and the larder slice of a global logical slice, and its core and cache state gone. -/
def State.zeroSlice (s : State) (t : Nat) : State :=
  { s with
    pantry := tclear s.pantry (t * 2 ^ 23) (2 ^ 23)
    larder := tclear s.larder (t * sliceBytes) sliceBytes
    pantryMark := s.pantryMark.filter (fun u => u / 2 ^ 18 != t)
    larderMark := s.larderMark.filter (fun u => u / (sliceBytes / 64) != t)
    cores := tclear s.cores (4 * t) 4
    cache := tclear s.cache (8192 * t) 8192 }

/-- Zeros in a range of the cellar. (Log 86: DEDUCED.) -/
def State.zeroCellar (s : State) (base len : Nat) : State :=
  { s with
    cellar := tclear s.cellar base len
    cellKey := tclear s.cellKey (base / 64) (len / 64)
    cellarMark := s.cellarMark.filter (fun u => decide (u < base / 64) || decide ((base + len) / 64 ≤ u)) }

/-- R405 order 7: a slot register loses an owner. -/
def State.freeSlots (s : State) (own part : Fld) (inst n p : Nat) : State :=
  (List.range n).foldl (fun (s : State) i =>
    if s.fld own inst i = 1 ∧ s.fld part inst i = p then (s.setFld own inst i 0).setFld part inst i 0 else s) s

/-- R405 order 7: every slot ownership record of a partition. -/
def State.clearSlots (s : State) (p : Nat) : State :=
  let s := (List.range 375).foldl (fun (s : State) l => s.freeSlots F.HALL_SLOT_OWNED F.HALL_SLOT_PART l 64 p) s
  let s := { s with hall := { s.hall with slots := s.hall.slots.filter (fun e => e.2 != 512 + p) } }
  let s := (s.freeSlots F.PRCH_CELL_SLOT_OWNED_EVEN F.PRCH_CELL_SLOT_PART_EVEN 0 512 p).freeSlots
    F.PRCH_CELL_SLOT_OWNED_ODD F.PRCH_CELL_SLOT_PART_ODD 0 512 p
  let s := (List.range 2).foldl (fun (s : State) b =>
    (s.freeSlots F.PCIE_SLOT_OWNED_EVEN F.PCIE_SLOT_PART_EVEN b 512 p).freeSlots F.PCIE_SLOT_OWNED_ODD F.PCIE_SLOT_PART_ODD b 512 p) s
  (List.range 96).foldl (fun (s : State) b => s.freeSlots F.BRDL_PORT_SLOT_OWNED F.BRDL_PORT_SLOT_PART b 64 p) s

/-- R405 order 7, R543: the pages of a partition that is free hold their reset values. -/
def State.clearPages (s : State) (p : Nat) : State :=
  let s := partPages.foldl (fun (s : State) t => s.resetPage t p) s
  let s := (List.range 4).foldl (fun (s : State) j => s.resetPage 0x54 (4 * p + j)) s
  { s with host := { s.host with rings := tclear s.host.rings (128 * p) 128, evs := tdel s.host.evs p } }

/-! ### The end of a destruction (R405) -/

/-- PART_ZEROISED (R405 orders 6 and 7): the partition's memories are zero, its Meter line closes, its pages return to
reset, and its resources are free. (Log 86: DEDUCED.) -/
def execPartZeroised (part t : Nat) (s : State) : Host.Outcome State Fault Refusal :=
  if part < 512 then
    let s := s.toTime t
    let x := s.part part
    if x.pstate ≠ .zeroising ∨ x.leaving ∨ !s.zeroReached x.tiles ∨ !s.operCellSlot then .next s
    else
      let s := x.tiles.foldl (fun (s : State) t => s.zeroSlice t) s
      let s := s.zeroCellar (s.cellBase part) (s.cellLen part)
      let s := s.closeLine part s.mtr.day true
      let s := { s with mtr := { s.mtr with lines := tdel s.mtr.lines part } }
      let s := ((s.clearSlots part).clearPages part).setPart part {}
      .next ((s.post Ev.PART_ZEROISED 0x27 part none (leBytes 2 part)).refreshLanes)
  else .refused .illFormed

/-! ### MOVE (R406) -/

/-- Whole rooms of a set of tiles. -/
def wholeRooms (tiles : List Nat) : Nat :=
  ((List.range 96).filter (fun lr => (List.range 32).all (fun i => tiles.contains (32 * lr + i)))).length

/-- R406: the new set has as many tiles and whole rooms, and every new tile is free. (Log 87: DEDUCED.) -/
def State.moveOk (s : State) (p : Nat) (new : List Nat) : Bool :=
  let x := s.part p
  decide (new.length = x.tiles.length) && decide (wholeRooms new = wholeRooms x.tiles) && new.all (fun t => !s.tileTaken t)

/-- Shared by PART_MOVE and a write of TACK_PART_CTRL.MOVE; with no attempt running the boundary is now. (Log 87: DEDUCED.) -/
def State.opMove (s : State) (p : Nat) : State :=
  let x := s.part p
  let new := s.namedTiles RG.TACK_PART_NEW_TILES p
  if x.pstate ≠ .live ∨ x.moveTo.isSome ∨ !s.moveOk p new then s
  else
    let s := s.modPart p (fun x => { x with moveTo := some new })
    if x.running ∨ x.migrating ≠ 0 ∨ x.tail.isSome then s else s.startMigration p

/-- PART_MOVE. -/
def execPartMove (part t : Nat) (s : State) : Host.Outcome State Fault Refusal :=
  if part < 512 then .next ((s.toTime t).opMove part) else .refused .illFormed

/-! ### Resets of functions and links -/

/-- R388: the key under which the work of a request goes on whose ring was reset: no ring of any function. -/
def lostKey (key : Nat) : Nat := 2 ^ 20 + key % 2 ^ 20

/-- R388: the requests of a partition are gone, their completions discarded; a snapshot, a stream or a replay begun goes on
without one. -/
def State.orphan (s : State) (p : Nat) : State :=
  let s := s.modPart p (fun x => { x with run := none, long := { x.long with
    snap := x.long.snap.map (fun g => { g with key := lostKey g.key })
    replay := x.long.replay.map (fun g => { g with key := lostKey g.key }) } })
  { s with brdl := { s.brdl with bulk := s.brdl.bulk.map (fun b => if b.part = p then { b with key := lostKey b.key } else b) } }

/-- R388: a Function Level Reset of a VF; of a partition being destroyed it discards the records that wait. (Log 88:
DEDUCED.) -/
def State.flrVf (s : State) (p : Nat) : State :=
  if (s.part p).leaving then (s.closeRings p (List.range 128)).leaveNow p
  else if (s.part p).pstate ≠ .live then s
  else
    let s := (s.closeRings p (List.range 128)).orphan p
    let s := (s.setFld F.RING_EVT_CFG_EN p 0 0).dropLate p
    let s := s.modPart p (fun x => { x with flrHold := true })
    if (s.part p).running then s else s.holdFlr p

/-- R388, R545: a Function Level Reset of the PF of a port resets that port's PF rings and event ring. (Log 88: DEDUCED.) -/
def State.flrPf (s : State) (port : Nat) : State :=
  let rings := (List.range 64).map (fun i => 64 * port + i)
  let s := s.closeRings 512 rings
  let s := { s with host := { s.host with
    rings := tclear s.host.rings (ringKey 512 (64 * port)) 64, evs := tdel s.host.evs (0x200 + port) } }
  (((s.resetPage 0x54 (2048 + 2 * port)).resetPage 0x54 (2049 + 2 * port)).resetPage 0x51 (0x200 + port)).dropLate (0x200 + port)

/-- FUNCTION_LEVEL_RESET: `fn` is a partition's VF, or 512 and 513 for the PF of port A and B. -/
def execFunctionLevelReset (fn t : Nat) (s : State) : Host.Outcome State Fault Refusal :=
  if fn < 512 then .next ((s.toTime t).flrVf fn)
  else if fn < 514 then .next ((s.toTime t).flrPf (fn - 512))
  else .refused .illFormed

/-- A PCIe link comes up at a rate (1-6) and width, or goes down (0). -/
def State.setLinkStat (s : State) (port rate width flit : Nat) : State :=
  let s := s.setReg RG.PCIE_LINK_STAT port 0 (if rate = 0 then 0 else rate % 8 + 8 * (width % 32) + 256 * (flit % 2))
  if rate = 0 then s
  else
    -- accesses that waited for the link wait no more
    let s := (s.host.rings.filter (fun e => decide (ringPort (e.1 / 128) (e.1 % 128) = port))).foldl (fun (s : State) e =>
      match (s.ringX e.1).req with
      | some q => if q.hostSince.isSome then s.setReq e.1 (some { q with hostSince := none }) else s
      | none => s) s
    s.sendLate port

/-- PERST_N (R557): low for `us` microseconds; from 100 µs on the link goes down and every function of the port is reset.
(Log 90: DEDUCED.) -/
def execPerstN (port us t : Nat) (s : State) : Host.Outcome State Fault Refusal :=
  if port < 2 then
    let s := s.toTime t
    if us < 100 then .next s
    else
      let s := s.setLinkStat port 0 0 0
      .next (((List.range 256).foldl (fun (s : State) i => s.flrVf (256 * port + i)) s).flrPf port)
  else .refused .illFormed

/-- R440, R500, R501: a port's link can train from the end of order 2 of a bring-up on, with its reference present; in
recovery mode only port A's. -/
def State.linkMayTrain (s : State) (port : Nat) : Bool :=
  !s.pwr.off && (if port = 0 then s.fld F.CLK_REF_STAT_A_PRESENT 0 0 == 1 else s.fld F.CLK_REF_STAT_B_PRESENT 0 0 == 1) &&
    (if s.recovery then port == 0
     else decide (3 ≤ s.fld F.TACK_BRINGUP_STAGE 0 0) || s.fld F.TACK_BRINGUP_WAKE 0 0 == 1)

/-- PCIE_LINK_CHANGE (R385, R389): the link of a port goes down (`rate` 0), or comes up at a rate code 1-6 and 1-16 lanes. -/
def execPcieLinkChange (port rate width flit t : Nat) (s : State) : Host.Outcome State Fault Refusal :=
  if port < 2 ∧ rate ≤ 6 ∧ width ≤ 16 ∧ flit < 2 ∧ (rate = 0 ∨ 1 ≤ width) then
    let s := s.toTime t
    if rate ≠ 0 ∧ !s.linkMayTrain port then .next s else .next (s.setLinkStat port rate width flit)
  else .refused .illFormed

/-- R389: a copy unit has waited 50 ms on a link that is down. -/
def State.copyLinkLost (s : State) (core slot : Nat) : State :=
  match s.partOfCore core, tget (s.core core).slots slot none with
  | some p, some y =>
    match y.linkWait with
    | none => s
    | some (u, since) =>
      if s.linkUp (portOf p) ∨ s.mono < since + 50000000 then s
      else
        let (_, plan, _) := s.planUnit p core y.desc u
        let addr := match plan with
          | .move src dst _ => if spaceOf src = 5 then src else dst
          | .zeros dst _ => dst
          | .refused a => a
          | .nothing => 0
        s.modCopy core (copyKey y.sq slot) (fun y => (y.meet St.LINK_LOST addr).moveDone u 0)
  | _, _ => s

/-- R389: a scalar access has waited 50 ms on a link that is down; a load's value is then open. -/
def State.flitLinkLost (s : State) (id : Nat) : State :=
  match s.hall.flits.find? (fun g => g.id == id) with
  | none => s
  | some f =>
    match f.dst with
    | .host port _ =>
      if f.resp || s.linkUp port || decide (s.mono < f.born + 50000000) then s
      else
        let s := (s.dropFlit id).raiseVote f.part voteSkip
        if f.kind = 0 then
          let (s, bs) := s.freeBytes f.width
          s.respond f (f.srcs.headD (0, 0)) 1 (leNat bs)
        else (s.accVisible f.core f.sq true).respond f (f.srcs.headD (0, 0)) 3 0
    | _ => s

/-- R389: when the host-window access that a request waits for was issued: when the request began to wait, or, for a data burst
not yet granted, at the burst before it or the request's start. -/
def State.hostIssue (s : State) (fn : Nat) (q : Req) : Option Nat :=
  q.hostSince.orElse (fun _ => if q.bursts < s.burstsDue fn q then some (max q.startMono q.hostAt) else none)

/-- R389: a request has waited 50 ms for its host window; a replay whose result cannot be written ends with it. -/
def State.reqLinkLost (s : State) (p ring : Nat) : State :=
  match s.req (ringKey p ring) with
  | none => s
  | some r =>
    match s.hostIssue p r with
    | none => s
    | some since =>
      if r.status.isNone ∧ p < 512 ∧ !s.linkUp (portOf p) ∧ since + 50000000 ≤ s.mono then
        let s := if r.op = 7 ∧ r.started then s.modPart p (fun x => { x with long := { x.long with replay := none } }) else s
        s.endReq (ringKey p ring) St.LINK_LOST
      else s

/-- HOST_WINDOW_TIMEOUT: `kind` 0 a copy (core `a`, slot `b`), 1 a scalar access (flit `a`), 2 a request (partition `a`, ring
`b`). -/
def execHostWindowTimeout (kind a b t : Nat) (s : State) : Host.Outcome State Fault Refusal :=
  let s := s.toTime t
  if kind = 0 ∧ a < 12288 ∧ b < 48 then .next (s.copyLinkLost a b)
  else if kind = 1 then .next (s.flitLinkLost a)
  else if kind = 2 ∧ a < 512 ∧ b < 128 then .next (s.reqLinkLost a b)
  else .refused .illFormed

end Sys2Proof.Machine
end

