-- ==== Sys2Proof/Machine/Meter.lean ====
section
/-! DEFINITION. The Meter: intervals and lines (R471-R478), signing (R481, R482), receipts and ledger records written
(R480, R483, R487, R489), resends and faults (R489, R530). -/

namespace Sys2Proof.Machine
open Sys2Proof

/-! ### Intervals (R474-R478) -/

/-- Coefficient in fJ of a counter of R476 at an operating point. -/
def State.coef (s : State) (op k : Nat) : Nat := s.reg RG.MTR_COEF 0 (10 * op + k)

/-- Operating point of a logical room. -/
def State.roomOp (s : State) (lr : Nat) : Nat := min 4 (s.fld F.CLK_ROOM_STAT_OP (s.physRoom lr) 0)

/-- R4: the granule in which the bytes of a counter of R476 move and are accounted: larder lines and cellar accesses of 64 B,
Bridle lines of 128 B. -/
def granuleOf (k : Nat) : Nat := if k = 3 ∨ k = 5 then 64 else if k = 6 then 128 else 1

/-- R4, R476: a counter's own count of an interval: bytes are accounted in whole granules. -/
def ownCount (k n : Nat) : Nat := (n + granuleOf k - 1) / granuleOf k * granuleOf k

/-- R475, R496: the room term of a logical room in an interval, in µJ, among those measured. -/
def roomTerm (rooms : List (Nat × Nat)) (lr : Nat) : Nat :=
  (rooms.filter (fun r => r.1 == lr)).foldl (fun n r => n + r.2) 0

/-- R476: microseconds of the interval under way in which a partition's line was open, its tiles and cellar range allotted. -/
def State.lineUs (s : State) (p : Nat) : Nat :=
  let e := s.mtr.lastEnd + 10 ^ 6
  (e - min e (max s.mtr.lastEnd (tget s.mtr.lines p {}).monoOpen)) / 1000

/-- The part of a line's energy in one 1 ms interval, in µJ: room terms of its whole rooms, and its own counts of the
interval times their coefficients; a line of class M takes none of the counters 0-4 (R475). `rooms` are the room terms in µJ
by logical room; `counts` partition, logical room of the work, counter 0-7 and count. (Log 91: DEDUCED.) -/
def State.lineEnergy (s : State) (p : Nat) (rooms : List (Nat × Nat)) (counts : List (Nat × Nat × Nat × Nat)) : Nat :=
  let x := s.part p
  let us := s.lineUs p
  let mine := counts.filter (fun c => c.1 == p)
  let whole := (rooms.filter (fun r => x.wholeRoom r.1)).foldl (fun n r => n + r.2) 0
  let dyn := (mine.filter (fun c => decide (c.2.2.1 ≤ 4) && x.mclass == 1 && !x.wholeRoom c.2.1)).foldl
    (fun n c => n + ownCount c.2.2.1 c.2.2.2 * s.coef (s.roomOp c.2.1) c.2.2.1) 0
  let porch := (mine.filter (fun c => decide (5 ≤ c.2.2.1) && decide (c.2.2.1 ≤ 7))).foldl
    (fun n c => n + ownCount c.2.2.1 c.2.2.2 * s.coef 3 c.2.2.1) 0
  let stat := (x.tiles.filter (fun t => !x.wholeRoom (t / 32))).foldl (fun n t => n + us * s.coef (s.roomOp (t / 32)) 8) 0
  let gibs := s.fld F.TACK_PART_CELL_SIZE_GIB p 0 * us * s.coef 3 9
  whole + (dyn + porch + stat + gibs) / 10 ^ 9

/-- R478: nanoseconds of the interval ending at `e` in which each request of a partition was in progress: ring key, or the
receipt that takes the energy. -/
def State.shares (s : State) (p e : Nat) : List ((Nat ⊕ Nat) × Nat) :=
  let a := s.mtr.lastEnd
  let run := (List.range 128).filterMap (fun r =>
    match s.req (ringKey p r) with
    | some q => if q.status.isNone ∧ q.startMono < e then some (Sum.inl (ringKey p r), e - max a q.startMono) else none
    | none => none)
  let done := (s.mtr.ended.filter (fun d => d.1 == p && decide (d.2.1 < e))).map (fun d =>
    (Sum.inr d.2.2.2, min e d.2.2.1 - max a d.2.1))
  (run ++ done).filter (fun q => decide (0 < q.2))

/-- Adds energy to a request in progress or to a receipt; energy of a request without a receipt stays in the line. -/
def State.addEnergy (s : State) (who : Nat ⊕ Nat) (uj : Nat) : State := match who with
  | .inl k => match s.req k with
    | some q => s.setReq k (some { q with energy := q.energy + uj })
    | none => s
  | .inr id => { s with mtr := { s.mtr with due := s.mtr.due.map (fun (q : Rcpt) =>
      if q.id = id then { q with energy := q.energy + uj } else q) } }

/-- R478: divides a line's energy of the interval among its requests in proportion to their time; what rounding leaves goes
to the first of them. Without a request it is idle energy. (Log 91: DEDUCED.) -/
def State.divide (s : State) (p e uj : Nat) : State :=
  match s.shares p e with
  | [] => { s with mtr := { s.mtr with lines := tmod s.mtr.lines p {} (fun l => { l with idle := l.idle + uj }) } }
  | first :: rest =>
    let tot := first.2 + rest.foldl (fun n q => n + q.2) 0
    let given := rest.foldl (fun n q => n + uj * q.2 / tot) 0
    rest.foldl (fun (s : State) q => s.addEnergy q.1 (uj * q.2 / tot)) (s.addEnergy first.1 (uj - given))

/-- Adds an interval's energy to a line (R474, R486, R488). -/
def State.accrue (s : State) (part : Nat) (uj : Int) (f : MLine → MLine) : State :=
  let un := s.fld F.TIME_STAT_UNSYNCED 0 0 == 1
  let add := fun (l : MLine) => f { l with energy := l.energy + uj, unsynced := l.unsynced || un }
  { s with mtr := { s.mtr with lines := tmod s.mtr.lines part {} add } }

/-- One partition line in one interval, with what its status page shows (R498). -/
def State.accruePart (s : State) (p e : Nat) (rooms : List (Nat × Nat)) (counts : List (Nat × Nat × Nat × Nat)) : State :=
  let x := s.part p
  let uj := s.lineEnergy p rooms counts
  let s := s.accrue p uj (fun l => { l with
    wasA := l.wasA || x.mclass == 1
    method := x.method
    short := l.short || x.shortW.isSome || x.shortB.isSome })
  (s.divide p e uj).setReg RG.MTR_PART_MW p 0 (sat32 uj)

/-- R496, R498: the energy of the open day as the Meter page and the status pages show it. -/
def State.showDay (s : State) : State :=
  let day := fun (l : Nat) => ofSigned 64 (milli (tget s.mtr.lines l {}).energy)
  s.usedParts.foldl (fun (s : State) p => s.setReg64 RG.MTR_PART_DAY_MJ_LO RG.MTR_PART_DAY_MJ_HI p 0 (day p))
    (s.setReg64 RG.MTR_OPER_MJ_LO RG.MTR_OPER_MJ_HI 0 0 (day 0xFFFE))

/-- R486: the ledger day now. (Log 92: DEDUCED.) -/
def State.ledgerDay (s : State) : Int :=
  (((s.tai / 10 ^ 9 : Nat) : Int) - toSigned 16 (s.fld F.TIME_UTC_OFFSET_S 0 0) - 946684800) / 86400

/-! ### Unsynced wall time (R492) -/

/-- R492: wall time lies in the years 2000-2399 of UTC. (Log 98: DEDUCED.) -/
def State.wallInRange (s : State) : Bool :=
  let d := s.ledgerDay
  decide (0 ≤ d) && decide (d ≤ 146096)

/-- R492: wall time becomes unsynced; every request in progress has met that (R480). -/
def State.unsync (s : State) : State :=
  let mark := fun (x : RingX) => { x with req := x.req.map (fun (q : Req) => { q with unsynced := true }) }
  let s := { s with host := { s.host with rings := s.host.rings.map (fun (e : Nat × RingX) => (e.1, mark e.2)) } }
  s.setFld F.TIME_STAT_UNSYNCED 0 0 1

/-- R489: the records of the last 64 closed days are kept, and those of lines closed in the open day. -/
def keepDays (l : List LedKept) (day : Nat) : List LedKept :=
  let days := (l.map (fun k => k.day)).foldl (fun a d => if d < day then setAdd a d else a) []
  let oldest := days.getD (days.length - 64) 0
  l.filter (fun k => decide (oldest ≤ k.day))

/-- R486, R487: closes the open day when the ledger day has passed it. (Log 92: DEDUCED.) -/
def State.maybeClose (s : State) : State :=
  let d := s.ledgerDay
  if s.fld F.TIME_STAT_UNSYNCED 0 0 = 0 ∧ (s.mtr.day : Int) < d ∧ d ≤ 146096 then
    let day := s.mtr.day
    let s := s.mtr.lines.foldl (fun (s : State) l => s.closeLine l.1 day false) s
    -- the line of a partition that a cold reset discarded ends with the day
    let left := s.mtr.lines.filter (fun e => decide (512 ≤ e.1) || (s.part e.1).pstate != .free)
    let s := { s with mtr := { s.mtr with day := d.toNat, lines := left, kept := keepDays s.mtr.kept d.toNat } }
    s.post Ev.LEDGER_CLOSED 0x40 0 none (leBytes 4 day)
  else s

/-- METER_INTERVAL: the next 1 ms interval has ended, and what it does happens then (R486); `input` is the module input in µJ. -/
def execMeterInterval (input : Nat) (rooms : List (Nat × Nat)) (counts : List (Nat × Nat × Nat × Nat)) (t : Nat) (s : State) :
    Host.Outcome State Fault Refusal :=
  let e := s.mtr.lastEnd + 10 ^ 6
  if s.fld F.MTR_STAT_RUNNING 0 0 = 0 ∨ max t s.mono < e then .next (s.toTime t)
  else
    let s := s.toTime e
    let parts := s.usedParts
    let sum := parts.foldl (fun n p => n + s.lineEnergy p rooms counts) 0
    let s := parts.foldl (fun (s : State) p => s.accruePart p e rooms counts) s
    let s := s.accrue 0xFFFE ((input : Int) - (sum : Int)) id
    let s := s.accrue 0xFFFF (input : Int) id
    let s := { s with mtr := { s.mtr with
      total := s.mtr.total + input
      lastEnd := e
      operMw := (input : Int) - (sum : Int)
      ended := s.mtr.ended.filter (fun d => decide (e < d.2.2.1)) } }
    let s := s.setReg RG.MTR_INPUT_MW 0 0 (sat32 input)
    let s := s.setReg64 RG.MTR_TOTAL_MJ_LO RG.MTR_TOTAL_MJ_HI 0 0 (s.mtr.total / 1000)
    let s := (List.range 96).foldl (fun (s : State) lr => s.setReg RG.MTR_ROOM_MW 0 lr (sat32 (roomTerm rooms lr))) s
    let s := if s.time.set && !s.wallInRange then s.unsync else s
    .next (s.maybeClose.showDay.toTime t)

/-! ### Signing (R480-R483) -/

/-- The Meter's signature of a message (R472, R481). -/
def meterSign (m : Bytes) : Bytes := edSign (leBytes 32 Config.meterKey.toNat) m

/-- R480: bytes 0x00-0xBB of a receipt. -/
def State.receiptBytes (s : State) (r : Rcpt) : Bytes :=
  padTo (leBytes 1 1 ++ leBytes 1 1 ++ leBytes 1 r.cls ++ leBytes 1 r.method ++ leBytes 2 r.flags ++ leBytes 2 r.fn ++
    s.unitBytes r.ring ++ leBytes 2 r.count ++ leBytes 4 r.fwAbi ++ leBytes 8 r.seq ++ leBytes 8 r.monoStart ++
    leBytes 8 r.monoEnd ++ leBytes 8 r.taiStart ++ leBytes 4 r.disc ++ leBytes 4 r.calId ++
    leBytes 6 (r.energy / 1000) ++ leBytes 2 0 ++ padTo r.audit 32) 188

/-- A signed record as written to a ring: RING_WORD carries PHASE. -/
def ringRecord (msg sig : Bytes) (phase : Bool) : Bytes := msg ++ leBytes 4 (b2n phase) ++ padTo sig 64

/-- A ring can take a record now. -/
def State.ringTakes (s : State) (fn r : Nat) : Bool := s.ringOn fn r 2 && s.ringSpace fn r && s.ringServes fn r

/-- R496: the signatures of the last second are counted, `more` among them. -/
def State.countSigns (s : State) (more : List Nat) : State :=
  let recent := (s.mtr.signs.filter (fun t => decide (s.mono < t + 10 ^ 9))) ++ more
  { s with mtr := { s.mtr with signs := recent } }.setFld F.MTR_SIGNED_LAST_S 0 0 (satN 16 recent.length)

/-- One signature is spent (R482, R496). -/
def State.spend (s : State) : State :=
  (s.setFld F.MTR_SIGNED_BUDGET 0 0 (s.fld F.MTR_SIGNED_BUDGET 0 0 - 1)).countSigns [s.mono]

/-- Writes a signed ledger record to those of its rings that take it; a ring that is not enabled gets none. -/
def State.putLedger (s : State) (d : LedDue) : State × LedDue :=
  d.dests.foldl (fun (a : State × LedDue) q =>
    if a.1.ringTakes q.1 q.2 then
      (a.1.ringPut q.1 q.2 256 (ringRecord d.bytes (d.sig.getD [])), { a.2 with dests := a.2.dests.erase q })
    else if a.1.ringOn q.1 q.2 2 then a
    else (a.1, { a.2 with dests := a.2.dests.erase q })) (s, d)

/-- R489: writes signed ledger records; those written everywhere leave the list. -/
def State.flushLedger (s : State) : State :=
  let old := s.mtr.ledger
  let r := old.foldl (fun (a : State × List LedDue) d =>
    if d.sig.isNone then (a.1, a.2 ++ [d])
    else
      let q := a.1.putLedger d
      (q.1, if q.2.dests = [] then a.2 else a.2 ++ [q.2])) (s, [])
  { r.1 with mtr := { r.1.mtr with ledger := r.2 } }

/-- R483: writes a signed receipt once its ring has space; the day's count of its line grows (R488). -/
def State.putReceipt (s : State) (r : Rcpt) (sig : Bytes) : State :=
  if s.ringTakes r.fn r.rring then
    let s := s.ringPut r.fn r.rring 256 (ringRecord (s.receiptBytes r) sig)
    { s with mtr := { s.mtr with
        due := s.mtr.due.filter (fun (q : Rcpt) => q.id != r.id)
        lines := tmod s.mtr.lines r.fn {} (fun l => { l with receipted := l.receipted + r.count }) } }.leaveNow r.fn
  else s

/-- Writes the signed receipts that can be written, oldest first; of one command ring none overtakes another. -/
def State.flushReceipts (s : State) : State :=
  s.mtr.due.foldl (fun (s : State) r => match r.signed with
    | some sig => s.putReceipt r sig
    | none => s) s

/-- R478, R482: the energy of a due receipt is complete. -/
def State.settled (s : State) (r : Rcpt) : Bool := s.mtr.ended.all (fun d => d.2.2.2 != r.id)

/-- RECEIPT_SIGN: signed records that waited are written where they can be; then, with budget, the oldest due record is
signed and written, ledger records ahead of receipts. -/
def execReceiptSign (t : Nat) (s : State) : Host.Outcome State Fault Refusal :=
  let s := ((s.toTime t).flushLedger).flushReceipts
  if s.fld F.MTR_SIGNED_BUDGET 0 0 = 0 then .next s
  else match s.mtr.ledger.find? (fun d => d.sig.isNone) with
  | some d =>
    let d' := { d with sig := some (meterSign d.bytes) }
    let s := { s.spend with mtr := { s.spend.mtr with ledger := s.mtr.ledger.map (fun q => if q = d then d' else q) } }
    .next s.flushLedger
  | none =>
    match s.mtr.due.find? (fun (r : Rcpt) => r.signed.isNone) with
    | some r =>
      if s.settled r then
        let sig := meterSign (s.receiptBytes r)
        let s := { s.spend with mtr := { s.spend.mtr with due := s.mtr.due.map (fun (q : Rcpt) =>
          if q.id = r.id then { q with signed := some sig } else q) } }
        .next (s.putReceipt { r with signed := some sig } sig)
      else .next s
    | none => .next s

/-- SIGN_BUDGET_TICK (R482). -/
def execSignBudgetTick (t : Nat) (s : State) : Host.Outcome State Fault Refusal :=
  let s := s.toTime t
  if s.mtr.lastTick + 50000 ≤ s.mono then
    let s := s.countSigns []
    let s := { s with mtr := { s.mtr with lastTick := s.mtr.lastTick + 50000 } }
    .next (s.setFld F.MTR_SIGNED_BUDGET 0 0 (min 2000 (s.fld F.MTR_SIGNED_BUDGET 0 0 + 1)))
  else .next s

/-! ### Resends and faults -/

/-- A kept record with RESENT set (R488, R489). -/
def resent (b : Bytes) : Bytes := b.take 4 ++ leBytes 1 (fieldAt b 4 1 ||| 16) ++ b.drop 5

/-- R489: the rings a kept record goes to now; a partition's ring only while its line is still the record's. -/
def State.resendDests (s : State) (k : LedKept) : List (Nat × Nat) :=
  if k.part < 512 ∧ (tget s.mtr.lines k.part {}).id ≠ fieldAt k.bytes 0x18 4 then s.ledgerDests 0xFFFF else s.ledgerDests k.part

/-- Shared by LEDGER_RESEND and a write of MTR_LEDGER_CTRL. -/
def State.opResend (s : State) (day : Nat) : State :=
  let ks := s.mtr.kept.filter (fun k => k.day == day)
  { s with mtr := { s.mtr with ledger := s.mtr.ledger ++ ks.map (fun k => { bytes := resent k.bytes, dests := s.resendDests k }) } }

/-- LEDGER_RESEND: a write of MTR_LEDGER_CTRL with RESEND for a day. -/
def execLedgerResend (day : Nat) (s : State) : Host.Outcome State Fault Refusal :=
  if day < 2 ^ 18 then .next (if s.recovery then s else (s.setFld F.MTR_LEDGER_CTRL_DAY 0 0 day).opResend day) else .refused .illFormed

/-- METER_INTEGRITY_FAULT (R530): CAL_OK or KEY_OK has fallen to 0. -/
def execMeterIntegrityFault (cal key : Bool) (s : State) : Host.Outcome State Fault Refusal :=
  let c := cal && s.fld F.MTR_STAT_CAL_OK 0 0 == 1
  let k := key && s.fld F.MTR_STAT_KEY_OK 0 0 == 1
  if !c && !k then .next s
  else
    let s := if c then s.setFld F.MTR_STAT_CAL_OK 0 0 0 else s
    let s := if k then s.setFld F.MTR_STAT_KEY_OK 0 0 0 else s
    let s := { s with mtr := { s.mtr with fault := true } }
    let s := s.post Ev.METER_FAULT 0x40 0 none (leBytes 1 (s.reg RG.MTR_STAT 0 0 % 16))
    .next (s.parts.foldl (fun (s : State) e => s.stopPart e.1 St.METER_FAULT) s)

end Sys2Proof.Machine
end

