-- ==== Sys2Proof/Machine/Time.lean ====
section
/-! DEFINITION. Wall time: its sources and corrections (R379, R491-R493), set-time commands (R485, R497), the UTC offset
(R491) and EPOCH_ROLL (R399). -/

namespace Sys2Proof.Machine
open Sys2Proof

/-! ### Corrections (R492, R493) -/

/-- R493: applies the correction that makes wall time `src` (TAI ns); `by` is the source as TIME_STAT codes it.
(Log 99: DEDUCED.) -/
def State.correct (s : State) (src : Int) (source : Nat) : State :=
  let old := s.tai
  let d := src - (old : Int)
  let small := s.time.set && decide (-128000000 ≤ d) && decide (d ≤ 128000000)
  let was := s.time.set
  let s := { s with time := { s.time with
    wall := if small then old else src.toNat
    mono := s.mono
    slew := if small then d else 0
    set := true
    lastSource := s.mono } }
  let s := ((s.setFld F.TIME_STAT_SET 0 0 1).setFld F.TIME_STAT_SOURCE 0 0 source).setFld F.TIME_STAT_SLEWING 0 0
    (b2n (small && d != 0))
  let s := if small then s else s.incFld F.TIME_DISC_COUNT 0 0
  let s := if s.wallInRange then s.setFld F.TIME_STAT_UNSYNCED 0 0 0 else s.unsync
  if was && !small then s.post Ev.TIME_STEP 0x41 0 none (leBytes 8 old ++ leBytes 8 src.toNat) else s

/-! ### Set-time commands (R485, R492, R497) -/

/-- The registers' date and time of day, as TAI ns. -/
def State.setTime (s : State) : Int :=
  let day := dayNumber (s.fld F.TIME_SET_YMD_YEAR 0 0) (s.fld F.TIME_SET_YMD_MONTH 0 0) (s.fld F.TIME_SET_YMD_DAY 0 0)
  let secs := 86400 * day + 3600 * s.fld F.TIME_SET_HMS_HOUR 0 0 + 60 * s.fld F.TIME_SET_HMS_MIN 0 0 +
    s.fld F.TIME_SET_HMS_SEC 0 0 + 946684800
  (((secs : Nat) : Int) + toSigned 16 (s.fld F.TIME_UTC_OFFSET_S 0 0)) * 10 ^ 9 + ((s.fld F.TIME_SET_NS_NS 0 0 : Nat) : Int)

/-- The clock follows a master: one it still hears within its announce timeout. -/
def PtpSt.follows (p : PtpSt) (now : Nat) : Bool := p.master.isSome && decide (now < p.announceAt + p.announceFor)

/-- R492: rank 1 is available: the port clock follows a master that is still heard. -/
def State.ptpActive (s : State) : Bool :=
  s.fld F.TIME_CFG_PTP_EN 0 0 == 1 && s.time.ptp.follows s.mono

/-- R492: rank 2 is available: pulses arrive at 1 Hz within 100 ppm. -/
def State.ppsActive (s : State) : Bool :=
  s.fld F.TIME_CFG_PPS_EN 0 0 == 1 && s.time.ppsGood && (match s.time.lastPps with
    | some m => decide (s.mono ≤ m + 1000100000)
    | none => false)

/-- A write of TIME_SET_CTRL. -/
def State.opSetCtrl (s : State) (go pps : Bool) : State :=
  let s := if go && !s.recovery then
      if s.ptpActive then s.setFld F.TIME_STAT_SET_STATUS 0 0 4
      else (s.setFld F.TIME_STAT_SET_STATUS 0 0 0).correct s.setTime (if s.ppsActive then 2 else 1)
    else s
  if pps && !s.recovery then
    if s.ptpActive then s.setFld F.TIME_STAT_SET_STATUS 0 0 4
    else { s.setFld F.TIME_STAT_SET_STATUS 0 0 0 with time := { s.time with armed := true } }
  else s

/-- TIME_SET_GO: a write of TIME_SET_CTRL with GO. -/
def execTimeSetGo (t : Nat) (s : State) : Host.Outcome State Fault Refusal := .next ((s.toTime t).opSetCtrl true false)

/-- TIME_SET_AT_PPS: a write of TIME_SET_CTRL with AT_PPS. -/
def execTimeSetAtPps (t : Nat) (s : State) : Host.Outcome State Fault Refusal := .next ((s.toTime t).opSetCtrl false true)

/-- R485: a write of TIME_SET_YMD. (Log 97: DEDUCED.) -/
def State.opSetYmd (s : State) (v : Nat) : State :=
  let y := bitsOf v 15 0
  let m := bitsOf v 19 16
  let d := bitsOf v 24 20
  if s.recovery then s
  else if y < 2000 ∨ 2399 < y then s.setFld F.TIME_STAT_SET_STATUS 0 0 3
  else if m < 1 ∨ 12 < m ∨ d < 1 ∨ daysInMonth y m < d then s.setFld F.TIME_STAT_SET_STATUS 0 0 1
  else (s.setReg RG.TIME_SET_YMD 0 0 (bitsOf v 24 0)).setFld F.TIME_STAT_SET_STATUS 0 0 0

/-- TIME_SET_YMD_WRITE. -/
def execTimeSetYmdWrite (v : Nat) (s : State) : Host.Outcome State Fault Refusal :=
  if v < 2 ^ 32 then .next (s.opSetYmd v) else .refused .illFormed

/-- R485: a write of TIME_SET_HMS. (Log 97: DEDUCED.) -/
def State.opSetHms (s : State) (v : Nat) : State :=
  if s.recovery then s
  else if 23 < bitsOf v 4 0 ∨ 59 < bitsOf v 10 5 ∨ 59 < bitsOf v 16 11 then s.setFld F.TIME_STAT_SET_STATUS 0 0 2
  else (s.setReg RG.TIME_SET_HMS 0 0 (bitsOf v 16 0)).setFld F.TIME_STAT_SET_STATUS 0 0 0

/-- TIME_SET_HMS_WRITE. -/
def execTimeSetHmsWrite (v : Nat) (s : State) : Host.Outcome State Fault Refusal :=
  if v < 2 ^ 32 then .next (s.opSetHms v) else .refused .illFormed

/-- R497: a write of TIME_SET_NS. -/
def State.opSetNs (s : State) (v : Nat) : State :=
  if s.recovery then s
  else if 999999999 < bitsOf v 29 0 then s.setFld F.TIME_STAT_SET_STATUS 0 0 2
  else (s.setReg RG.TIME_SET_NS 0 0 (bitsOf v 29 0)).setFld F.TIME_STAT_SET_STATUS 0 0 0

/-- TIME_SET_NS_WRITE. -/
def execTimeSetNsWrite (v : Nat) (s : State) : Host.Outcome State Fault Refusal :=
  if v < 2 ^ 32 then .next (s.opSetNs v) else .refused .illFormed

/-! ### Pulses, offset, timeout, slew (R491-R493) -/

/-- PPS_EDGE: an edge of PPS_IN, falling or rising (R492). An armed set-time command takes effect; otherwise a pulse in
time gives the phase of the second. -/
def execPpsEdge (falling : Bool) (t : Nat) (s : State) : Host.Outcome State Fault Refusal :=
  let s := s.toTime t
  if s.fld F.TIME_CFG_PPS_EN 0 0 = 0 ∨ s.fld F.TIME_CFG_PPS_FALL 0 0 ≠ b2n falling then .next s
  else
    let good := match s.time.lastPps with
      | some m => decide (m + 999900000 ≤ s.mono) && decide (s.mono ≤ m + 1000100000)
      | none => false
    let armed := s.time.armed
    let s := { s with time := { s.time with
      lastPps := some s.mono
      ppsGood := good
      armed := false } }
    if s.ptpActive then .next (if armed then s.setFld F.TIME_STAT_SET_STATUS 0 0 4 else s)
    else if armed then .next ((s.setFld F.TIME_STAT_SET_STATUS 0 0 0).correct s.setTime 2)
    else if good && s.time.set then
      .next (s.correct ((((s.tai + 500000000) / 10 ^ 9 * 10 ^ 9 : Nat) : Nat) : Int) 2)
    else .next s

/-- UTC_OFFSET_CHANGE: wall time has reached TIME_NEXT_AT (R491). (Log 96: DEDUCED.) -/
def execUtcOffsetChange (t : Nat) (s : State) : Host.Outcome State Fault Refusal :=
  let s := s.toTime t
  let at_ := s.reg64 RG.TIME_NEXT_AT_LO RG.TIME_NEXT_AT_HI 0 0
  if at_ = 0 ∨ s.time.set = false ∨ s.tai < at_ * 10 ^ 9 ∨ s.time.utcDone = at_ then .next s
  else .next { s.setFld F.TIME_UTC_OFFSET_S 0 0 (s.fld F.TIME_NEXT_OFFSET_S 0 0) with time := { s.time with utcDone := at_ } }

/-- WALL_TIME_UNSYNC_TIMEOUT: no source has corrected wall time for 1,000 s (R492). (Log 98: DEDUCED.) -/
def execWallTimeUnsyncTimeout (t : Nat) (s : State) : Host.Outcome State Fault Refusal :=
  let s := s.toTime t
  if s.fld F.TIME_STAT_UNSYNCED 0 0 = 1 ∨ s.mono < s.time.lastSource + 10 ^ 12 then .next s
  else .next (s.unsync.setFld F.TIME_STAT_SOURCE 0 0 0)

/-- WALL_TIME_SLEW_DONE: the slew has absorbed its correction (R493). -/
def execWallTimeSlewDone (t : Nat) (s : State) : Host.Outcome State Fault Refusal :=
  let s := s.toTime t
  if s.fld F.TIME_STAT_SLEWING 0 0 = 0 ∨ slewed s.time.slew (s.mono - s.time.mono) ≠ s.time.slew then .next s
  else
    let w := s.tai
    let s := { s with time := { s.time with
      wall := w
      mono := s.mono
      slew := 0 } }
    .next (s.setFld F.TIME_STAT_SLEWING 0 0 0)

/-- EPOCH_ROLL: TIME_US has wrapped to 0: the event goes to every enabled event ring (R399). (Log 100: DEDUCED.) -/
def execEpochRoll (t : Nat) (s : State) : Host.Outcome State Fault Refusal :=
  let at_ := (s.time.rolled + 1) * (1000 * 2 ^ 32)
  if max t s.mono < at_ then .next (s.toTime t)
  else
    let s := s.toTime at_
    let s := { s with time := { s.time with rolled := s.time.rolled + 1 } }
    let pay := leBytes 8 s.mono ++ leBytes 8 s.tai
    let s := (List.range 512).foldl (fun (s : State) p => s.postRing p Ev.EPOCH_ROLL 0x41 0 0xFFFF pay true) s
    .next (s.post Ev.EPOCH_ROLL 0x41 0 none pay)

/-! ### PTP (R379) -/

/-- Big-endian number of `n` bytes at an offset of a PTP message (IEEE 1588-2019). -/
def beAt (b : Bytes) (o n : Nat) : Nat := leNat (slice b o n).reverse

/-- A PTP timestamp, in ns. (Log 94: PRESUMED.) -/
def ptpTime (b : Bytes) (o : Nat) : Nat := beAt b o 6 * 10 ^ 9 + beAt b (o + 6) 4

/-- The correctionField of a message, in ns. (Log 94: PRESUMED.) -/
def ptpCorr (b : Bytes) : Int := toSigned 64 (beAt b 8 8) / 65536

/-- The comparison vector of an Announce for the default best master clock algorithm: priority 1, class, accuracy,
variance, priority 2, identity, steps removed. -/
def announceRank (b : Bytes) : List Nat :=
  [beAt b 47 1, beAt b 48 1, beAt b 49 1, beAt b 50 2, beAt b 52 1, beAt b 53 8, beAt b 61 2]

/-- Lexicographic order, lower is better. -/
def rankLt : List Nat → List Nat → Bool
  | [], [] => false
  | [], _ => true
  | _, [] => false
  | a :: as, b :: bs => decide (a < b) || (a == b && rankLt as bs)

/-- How long a master that announces every 2^n s is followed without an Announce: three intervals. -/
def announceLife (n : Nat) : Nat :=
  let k := toSigned 8 n
  if 0 ≤ k then 3 * 10 ^ 9 * 2 ^ (min 40 k.toNat) else 3 * 10 ^ 9 / 2 ^ (min 40 (-k).toNat)

/-- The port PTP uses (R379). -/
def State.ptpPort (s : State) : Option Nat :=
  let b := s.fld F.BRDL_PTP_PORT 0 0
  if b < 96 ∧ s.portLive b then some b else (List.range 96).find? s.portLive

/-- Header of a message of this clock: type, sequence, then the rest of the message. A Sync is of a two-step clock; Announce
goes out every 2 s, Sync and Follow_Up every second. (Log 94: PRESUMED.) -/
def State.ptpMessage (s : State) (typ seq : Nat) (rest : Bytes) : Bytes :=
  let control := match typ with
    | 0 => 0
    | 1 => 1
    | 8 => 2
    | 9 => 3
    | _ => 5
  let interval := match typ with
    | 0 => 0
    | 8 => 0
    | 11 => 1
    | _ => 0x7F
  leBytes 1 typ ++ leBytes 1 2 ++ (leBytes 2 (34 + rest.length)).reverse ++ leBytes 1 (s.fld F.BRDL_PTP_DOMAIN 0 0) ++ [0] ++
    [if typ = 0 then 2 else 0] ++ List.replicate 13 0 ++ (leBytes 8 Config.ptpIdentity.toNat).reverse ++ (leBytes 2 1).reverse ++
    (leBytes 2 seq).reverse ++ leBytes 1 control ++ leBytes 1 interval ++ rest

/-- A time as a PTP timestamp. -/
def ptpStamp (ns : Nat) : Bytes := (leBytes 6 (ns / 10 ^ 9)).reverse ++ (leBytes 4 (ns % 10 ^ 9)).reverse

/-- Sends a PTP message to a node, once transactions may leave this node (R365). -/
def State.sendPtp (s : State) (port node : Nat) (m : Bytes) : State :=
  if s.fabricReady node then s.sendTxn port { op := 12, src := s.node, dst := node, inc := s.fld F.BRDL_NODE_INC 0 0, data := m } 512
  else s

/-- Nodes that the messages of this clock as a master go to: every other node the charter allows PTP with. (Log 95: DESIGN
CHOICE.) -/
def State.ptpNodes (s : State) : List Nat := (List.range 4096).filter (fun n => n != s.node && s.chartered n 12)

/-- The data set of this clock in an Announce, in the places of `announceRank`. -/
def ptpOwnData : Bytes :=
  let v := fun (i : Nat) => (Config.ptpOwnRank.getD i 0).toNat
  leBytes 1 (v 0) ++ leBytes 1 (v 1) ++ leBytes 1 (v 2) ++ (leBytes 2 (v 3)).reverse ++ leBytes 1 (v 4) ++
    (leBytes 8 (v 5)).reverse ++ (leBytes 2 (v 6)).reverse

/-- R379: the clock as a master, on its PTP port: an Announce every 2 s, and a Sync with its Follow_Up every second, stamped
`stamp`. (Logs 94, 95: PRESUMED, DESIGN CHOICE.) -/
def State.ptpMaster (s : State) (port stamp : Nat) : State :=
  let p := s.time.ptp
  let due := fun (at_ : Option Nat) (n : Nat) => match at_ with
    | some m => decide (m + n ≤ s.mono)
    | none => true
  if s.fld F.BRDL_PTP_MASTER_OK 0 0 = 0 ∨ p.follows s.mono ∨ s.ptpPort ≠ some port then s
  else
    let send := fun (s : State) (m : Bytes) => s.ptpNodes.foldl (fun (s : State) n => s.sendPtp port n m) s
    let s := if due p.announced (2 * 10 ^ 9) then
        let s := send s (s.ptpMessage 11 p.announceSeq (ptpStamp stamp ++ (leBytes 2 (s.fld F.TIME_UTC_OFFSET_S 0 0)).reverse ++ [0] ++
          ptpOwnData ++ [0xA0]))
        { s with time := { s.time with ptp := { s.time.ptp with announced := some s.mono, announceSeq := (p.announceSeq + 1) % 65536 } } }
      else s
    if due p.synced (10 ^ 9) then
      let s := send (send s (s.ptpMessage 0 p.syncSeq (ptpStamp 0))) (s.ptpMessage 8 p.syncSeq (ptpStamp stamp))
      { s with time := { s.time with ptp := { s.time.ptp with synced := some s.mono, syncSeq := (p.syncSeq + 1) % 65536 } } }
    else s

/-- t1 is known: the Delay_Req goes out, stamped `at_`. -/
def State.askDelay (s : State) (port node : Nat) (t1 t2 at_ : Int) : State :=
  let q := (s.time.ptp.reqSeq + 1) % 65536
  let s := { s with time := { s.time with ptp := { s.time.ptp with
    sync := none
    t1 := t1
    t2 := t2
    t3 := at_
    reqSeq := q
    waiting := true } } }
  s.sendPtp port node (s.ptpMessage 1 q (ptpStamp 0))

/-- A message of the master this clock follows, from the node `node`; `at_` is the device's time at the port. -/
def State.ptpTake (s : State) (port node : Nat) (m : Bytes) (at_ : Int) : State :=
  let p := s.time.ptp
  let from_ := slice m 20 10
  let known := match p.master with
    | some q => q.2 == from_
    | none => false
  let seq := beAt m 30 2
  match beAt m 0 1 % 16 with
  | 11 =>
    let r := announceRank m
    let own := s.fld F.BRDL_PTP_MASTER_OK 0 0 == 1 && rankLt (Config.ptpOwnRank.map BitVec.toNat) r
    let better := match p.master with
      | some q => known || rankLt r q.1 || decide (p.announceAt + p.announceFor ≤ s.mono)
      | none => true
    if own then (if known then { s with time := { s.time with ptp := { p with master := none } } } else s)
    else if better then { s with time := { s.time with ptp := { p with
      master := some (r, from_)
      announceAt := s.mono
      announceFor := announceLife (beAt m 33 1)
      sync := if known then p.sync else none
      waiting := known && p.waiting } } }
    else s
  | 0 =>
    if !known then s
    else if bitOf (beAt m 6 1) 1 then
      { s with time := { s.time with ptp := { p with sync := some (seq, at_.toNat, ptpCorr m) } } }
    else s.askDelay port node (((ptpTime m 34 : Nat) : Int) + ptpCorr m) at_ at_
  | 8 =>
    match p.sync with
    | some (q, t2, c) =>
      if known && q == seq then s.askDelay port node (((ptpTime m 34 : Nat) : Int) + c + ptpCorr m) ((t2 : Nat) : Int) at_
      else s
    | none => s
  | 9 =>
    if known && p.waiting && seq == p.reqSeq && slice m 44 10 == (leBytes 8 Config.ptpIdentity.toNat).reverse ++ [0, 1] then
      let t4 := ((ptpTime m 34 : Nat) : Int) - ptpCorr m
      let off := ((p.t2 - p.t1) - (t4 - p.t3)) / 2
      let s := { s with time := { s.time with ptp := { p with waiting := false } } }
      if s.ptpActive then s.correct (((s.tai : Nat) : Int) - off) 3 else s
    else s
  | 1 =>
    if s.fld F.BRDL_PTP_MASTER_OK 0 0 = 1 ∧ !p.follows s.mono then
      s.sendPtp port node (s.ptpMessage 9 seq (ptpStamp at_.toNat ++ from_))
    else s
  | _ => s

/-- PTP: the IEEE 1588 message at the front of the management class of a port. `err` minus 8 is the error in ns of the
time stamped at the port, which R379 keeps within 8 ns. With no message there, the messages this clock owes as a master go
out. (Log 95: DESIGN CHOICE.) -/
def execPtp (port err t : Nat) (s : State) : Host.Outcome State Fault Refusal :=
  if port < 97 ∧ err ≤ 16 then
    let s := s.toTime t
    match s.arrived port 12 with
    | none => .next (s.ptpMaster port (s.tai + err - 8))
    | some q =>
      let s := s.takeRx port 12
      if !s.chartered q.src 12 then .next (s.charterRefuse port q)
      else if s.ptpPort ≠ some port ∨ beAt q.data 4 1 ≠ s.fld F.BRDL_PTP_DOMAIN 0 0 then .next s
      else .next (s.ptpTake port q.src q.data (((s.tai : Nat) : Int) + ((err : Nat) : Int) - 8))
  else .refused .illFormed

end Sys2Proof.Machine
end

