-- ==== Sys2Proof/Machine/Power.lean ====
section
/-! DEFINITION. Throttle occurrences (R466-R468); rooms, their regulators and knocks (R428-R433); operating-point changes as
they are issued (R444, R454); power faults in service (R422, R423, R426, R427, R430, R434, R435); SHED_N (R459) and the
neighbour rule (R217). -/

namespace Sys2Proof.Machine
open Sys2Proof

/-! ### Throttle reasons (R466-R468) -/

/-- The index that stands for the device in an occurrence. -/
def devScope : Nat := 127

def State.occ (s : State) (k r : Nat) : Occ := tget s.rein.occ (128 * k + r) {}

/-- Some occurrence of reason `k` is in force. -/
def State.inForce (s : State) (k : Nat) : Bool := s.rein.occ.any (fun e => e.1 / 128 == k && e.2.on)

/-- R467: brings the count of a reason up to date. -/
def State.countReason (s : State) (k : Nat) : State :=
  let n := s.reg64 RG.REIN_THR_NS_LO RG.REIN_THR_NS_HI 0 k
  let s := if s.inForce k then
      s.setReg64 RG.REIN_THR_NS_LO RG.REIN_THR_NS_HI 0 k (min (n + (s.mono - tget s.rein.occAt k 0)) (2 ^ 64 - 1))
    else s
  { s with rein := { s.rein with occAt := tput s.rein.occAt k s.mono 0 } }

/-- R470: REASONS of a room. -/
def State.showReasons (s : State) (r : Nat) : State :=
  s.setFld F.REIN_ROOM_STAT_REASONS r 0 ((List.range 11).foldl (fun n k =>
    n + b2n ((s.occ k r).on || (s.occ k devScope).on) * 2 ^ k) 0)

/-- R468: the payload of a throttle event. -/
def throttlePayload (k r dur : Nat) : Bytes := leBytes 1 k ++ leBytes 1 (if r = devScope then 0xFF else r) ++ leBytes 6 0 ++ leBytes 8 dur

/-- Reason `k` comes into force, or ceases, for a room or the device: a return within 1 ms continues the occurrence. -/
def State.setReason (s : State) (k r : Nat) (on : Bool) : State :=
  let o := s.occ k r
  if o.on = on then s
  else
    let s := s.countReason k
    let put := fun (s : State) (o : Occ) =>
      let s := { s with rein := { s.rein with occ := tput s.rein.occ (128 * k + r) o {} } }
      if r = devScope then (List.range 100).foldl (fun (s : State) q => s.showReasons q) s else s.showReasons r
    if !on then put s { o with on := false, last := s.mono }
    else if o ≠ {} ∧ s.mono < o.last + 1000000 then put s { o with on := true }
    else
      let s := if o = {} then s
        else s.post Ev.THROTTLE_END (if r = devScope then 0x7 else 0x13) (if r = devScope then 0 else r) none
          (throttlePayload k r (o.last - o.start))
      let s := put s { start := s.mono, last := s.mono, on := true }
      s.post Ev.THROTTLE_START (if r = devScope then 0x7 else 0x13) (if r = devScope then 0 else r) none (throttlePayload k r 0)

/-- THROTTLE_END: a reason has been out of force for 1 ms; `room` 127 is the device. -/
def execThrottleEnd (k room t : Nat) (s : State) : Host.Outcome State Fault Refusal :=
  if k < 11 ∧ (room < 100 ∨ room = devScope) then
    let s := s.toTime t
    let o := s.occ k room
    if o = {} ∨ o.on ∨ s.mono < o.last + 1000000 then .next s
    else
      let s := { s with rein := { s.rein with occ := tdel s.rein.occ (128 * k + room) } }
      .next (s.post Ev.THROTTLE_END (if room = devScope then 0x7 else 0x13) (if room = devScope then 0 else room) none
        (throttlePayload k room (o.last - o.start)))
  else .refused .illFormed

/-! ### Sources of the reference (R440, R442) -/

def State.refA (s : State) : Bool := s.fld F.CLK_REF_STAT_A_PRESENT 0 0 == 1
def State.refB (s : State) : Bool := s.fld F.CLK_REF_STAT_B_PRESENT 0 0 == 1

/-- The room beside a room on a side, if the grid has one. -/
def beside? (r side : Nat) : Option Nat :=
  match side with
  | 0 => if 10 ≤ r then some (r - 10) else none
  | 1 => if r % 10 < 9 then some (r + 1) else none
  | 2 => if r < 90 then some (r + 10) else none
  | _ => if 0 < r % 10 then some (r - 1) else none

/-- A room is locked to a present source and forwards the reference (R442). -/
def State.forwards (s : State) (r : Nat) : Bool := (s.room r).seq == 10 && s.fld F.CLK_ROOM_STAT_HOLDOVER r 0 == 0

/-- Is a source of this KIND present for a room? (Log 116: DEDUCED.) -/
def State.srcPresent (s : State) (r kind : Nat) : Bool :=
  if kind = 0 then false
  else if kind = 1 then s.refA || s.refB
  else match beside? r (kind - 2) with
    | some q => s.forwards q
    | none => false

/-- R448: PRESENT of the sources of every room whose KIND a change may touch. (Log 116: DEDUCED.) -/
def State.showSources (s : State) (r : Nat) : State :=
  (List.range 4).foldl (fun (s : State) k =>
    s.setFld F.CLK_ROOM_SRC_PRESENT r k (b2n (s.srcPresent r (s.fld F.CLK_ROOM_SRC_KIND r k)))) s

/-- The sources of a room's neighbours after its own state changed. -/
def State.tellNeighbours (s : State) (r : Nat) : State :=
  (List.range 4).foldl (fun (s : State) d => match beside? r d with
    | some q => s.showSources q
    | none => s) s

/-! ### Rooms (R424, R428, R431-R433, R446) -/

/-- Core voltage of an operating point, in mV. -/
def opMv (op : Nat) : Nat := [450, 500, 550, 600, 650].getD op 650

/-- R428: the highest point a number of healthy phases allows; none: the tiles go dark. -/
def phaseLimit (h : Nat) : Option Nat := if 10 ≤ h then some 4 else if 8 ≤ h then some 3 else if 6 ≤ h then some 1 else none

def State.healthyPhases (s : State) (r : Nat) : Nat :=
  ((List.range 12).filter (fun n => s.fld F.PWR_PHASE_STAT_HEALTHY r n == 1)).length

/-- Highest point allowed by R426 and R428. (Log 115: DEDUCED.) -/
def State.opLimit (s : State) (r : Nat) : Nat :=
  min ((phaseLimit (s.healthyPhases r)).getD 0) (if s.fld F.PWR_ROOM_STAT_TIED r 0 = 1 then 3 else 4)

def State.roomOpp (s : State) (r : Nat) : Nat := s.fld F.CLK_ROOM_STAT_OP r 0

/-- A live room: powered, its tiles not dark. -/
def State.roomLive (s : State) (r : Nat) : Bool := (s.room r).seq == 10 && s.fld F.PWR_ROOM_STAT_DARK r 0 == 0

def State.liveRooms (s : State) : List Nat := (List.range 100).filter s.roomLive

/-- The setpoint without a knock: 0.45 V while the shed stretch is in force (R459), else the higher voltage of a change until
its clock has switched (R444), else that of the point in force. -/
def State.baseMv (s : State) (r : Nat) : Nat :=
  if s.fld F.REIN_ROOM_STAT_SHED_STRETCH r 0 = 1 then 450
  else
    let op := s.roomOpp r
    let x := s.room r
    if 1 ≤ x.chg ∧ x.chg ≤ 3 then x.riseMv else opMv op

/-- Brings a room's derived register fields up to date: healthy phases, limit, forced stretch, knock raise, target, HB and the
droop minimum, which the regulators hold at the target (R431); a room whose tiles are dark or off shows none of them (R446).
(Log 159: DEDUCED.) -/
def State.showRoom (s : State) (r : Nat) : State :=
  let x := s.room r
  let on := decide (x.seq ≠ 0) && s.fld F.PWR_ROOM_STAT_DARK r 0 == 0
  let raise := x.knocks.foldl (fun n k => max n k.raise) 0
  let op := s.roomOpp r
  let s := if on then s
    else ((s.setFld F.PWR_ROOM_STAT_DROOP_STRETCH r 0 0).setReason 5 r false).setFld F.REIN_ROOM_STAT_SHED_STRETCH r 0 0
  let forced := on && (decide (s.opLimit r < op) || (match x.forcedOp with
    | some o => decide (o < op)
    | none => false) || s.fld F.REIN_ROOM_STAT_SHED_STRETCH r 0 == 1)
  let s := (s.setFld F.PWR_ROOM_STAT_HEALTHY_PHASES r 0 (s.healthyPhases r)).setFld F.PWR_ROOM_STAT_OP_LIMIT r 0 (s.opLimit r)
  let s := (s.setFld F.PWR_ROOM_STAT_FORCED_STRETCH r 0 (b2n forced)).setFld F.PWR_ROOM_STAT_HB r 0
    (b2n (on && (x.hbBack || x.knocks.any (fun k => k.hb))))
  let target := if on then s.baseMv r + raise else 0
  let s := (s.setFld F.PWR_ROOM_MV_KNOCK_MV r 0 (if on then raise else 0)).setFld F.PWR_ROOM_MV_TARGET_MV r 0 target
  let s := if s.fld F.PWR_ROOM_STAT_DROOP_STRETCH r 0 = 1 then s
    else s.setFld F.PWR_ROOM_MV_DROOP_MIN_MV r 0 (if s.roomLive r then target else 0)
  s.setReason 7 r (s.roomLive r && decide (s.opLimit r < 4))

/-! ### Knocks (R252, R253, R433) -/

/-- KNOCK: the regulators of the issuing core's room take the knock's raise and mode. (Log 111: DEDUCED.) -/
def execKnock (core : Nat) (s : State) : Host.Outcome State Fault Refusal :=
  if core < 12288 then
    match s.ctlSlot core 4 with
    | none => .next s
    | some (p, w) =>
      let k := (s.part p).harness.knocks.getD (bitsOf w 19 4) {}
      let r := s.physRoom (core / 128)
      let s := s.modRoom r (fun x => { x with knocks := x.knocks ++ [⟨core, k.raiseMv, k.hb, k.hold⟩] })
      .next ((s.showRoom r).slotDone p core 4)
  else .refused .illFormed

/-- KNOCK_HOLD_END: the HOLD of knock `ended.1` in force of a physical room has ended, `ended.2` room cycles after its issue:
HOLD counts 256 of them. The setpoint returns to the target, in high-bandwidth mode until it is there when no other knock keeps
that mode. (Log 111: DEDUCED.) -/
def execKnockHoldEnd (room : Nat) (ended : Nat × Nat) (s : State) : Host.Outcome State Fault Refusal :=
  if room < 100 then
    let x := s.room room
    match x.knocks[ended.1]? with
    | none => .next s
    | some q =>
      if ended.2 < 256 * q.hold then .next s
      else
        let rest := x.knocks.eraseIdx ended.1
        let mv := fun (l : List Knock) => l.foldl (fun (n : Nat) k => max n k.raise) 0
        let back := x.hbBack || (x.knocks.any (fun k => k.hb) && decide (mv rest < mv x.knocks))
        .next ((s.modRoom room (fun x => { x with knocks := rest, hbBack := back })).showRoom room)
  else .refused .illFormed

/-! ### Droop (R431, R432) -/

/-- DROOP_STRETCH_START: the droop minimum of a room, in mV, has fallen 30 mV below the target. -/
def execDroopStretchStart (room mv t : Nat) (s : State) : Host.Outcome State Fault Refusal :=
  if room < 100 ∧ mv < 1024 then
    let s := (s.toTime t).setFld F.PWR_ROOM_MV_DROOP_MIN_MV room 0 mv
    if !s.roomLive room ∨ s.fld F.PWR_ROOM_MV_TARGET_MV room 0 < mv + 30 ∨ s.fld F.PWR_ROOM_STAT_DROOP_STRETCH room 0 = 1 then .next s
    else .next ((s.setFld F.PWR_ROOM_STAT_DROOP_STRETCH room 0 1).setReason 5 room true)
  else .refused .illFormed

/-- DROOP_STRETCH_END: the minimum has stayed within 15 mV of the target for 64 stretched cycles; `cycles` ran stretched. -/
def execDroopStretchEnd (room mv cycles t : Nat) (s : State) : Host.Outcome State Fault Refusal :=
  if room < 100 ∧ mv < 1024 then
    let s := (s.toTime t).setFld F.PWR_ROOM_MV_DROOP_MIN_MV room 0 mv
    if s.fld F.PWR_ROOM_STAT_DROOP_STRETCH room 0 = 0 ∨ mv + 15 < s.fld F.PWR_ROOM_MV_TARGET_MV room 0 ∨ cycles < 64 then .next s
    else
      let s := s.setReg RG.PWR_STRETCH_CYCLES room 0 (sat32 (s.reg RG.PWR_STRETCH_CYCLES room 0 + cycles))
      .next ((s.setFld F.PWR_ROOM_STAT_DROOP_STRETCH room 0 0).setReason 5 room false)
  else .refused .illFormed

/-! ### Operating-point changes as they are issued (R444, R454) -/

/-- A change of a room's point is issued: a higher voltage ramps up first, a lower one waits for the safe point. -/
def State.issueChange (s : State) (r op : Nat) : State :=
  if (s.room r).chg ≠ 0 ∨ op = s.roomOpp r then s
  else
    let s := s.setFld F.CLK_ROOM_STAT_OP_TARGET r 0 op
    let was := s.roomOpp r
    (s.modRoom r (fun x => { x with chg := if was < op then 1 else 2, riseMv := max (opMv was) (opMv op) })).showRoom r

/-! ### Loss of a room, loss of power -/

/-- R19: the on-wafer contents of a logical room are lost. -/
def State.loseRoom (s : State) (lr : Nat) : State :=
  if lr < 96 then (List.range 32).foldl (fun (s : State) i => s.zeroSlice (32 * lr + i)) s else s

/-- The regulators of a room are without power: no phase runs and none carries current. (Log 114: DEDUCED.) -/
def State.phasesOff (s : State) (r : Nat) : State :=
  ((List.range 12).foldl (fun (s : State) n =>
    (s.setFld F.PWR_PHASE_STAT_HEALTHY r n 0).setFld F.PWR_PHASE_STAT_AMPS r n 0) s).setReg RG.PWR_ROOM_AMPS r 0 0

/-- A room is powered off: converter stopped, headers open; its neighbours lose it as a source (R442). -/
def State.roomOff (s : State) (r : Nat) : State := (((s.phasesOff r).setRoom r {}).showRoom r).tellNeighbours r

/-- Every room is powered off. -/
def State.allRoomsOff (s : State) : State :=
  let s := { s with pwr := { s.pwr with rooms := [] } }
  let s := (List.range 100).foldl (fun (s : State) r => (s.phasesOff r).showRoom r) s
  (List.range 100).foldl (fun (s : State) r => s.showSources r) s

/-- R427: no tie takes the room's load: the room is a hole, and every partition stops. -/
def State.roomHole (s : State) (r cause : Nat) : State :=
  let s := (s.setHole r true).roomOff r
  let s := s.parts.foldl (fun (s : State) e => s.stopPart e.1 St.ROOM_DARK) s
  let s := (s.loseRoom (s.logRoom r)).recordEvent r 63 4
  let s := { s with roomRetire := tput s.roomRetire r 12 0 }
  s.post Ev.ROOM_DARK 0x11 r none (leBytes 1 r ++ leBytes 1 cause)

/-- R425: the pair and the partner of a room's converter; a corner room has none. -/
def tiePair (r : Nat) : Option (Nat × Nat) :=
  let x := r % 10
  let y := r / 10
  if y = 0 ∨ y = 9 then
    if x = 0 ∨ x = 9 then none
    else some ((if y = 0 then 0 else 44) + (x - 1) / 2, if x % 2 = 1 then r + 1 else r - 1)
  else some (4 + 5 * (y - 1) + x / 2, if x % 2 = 0 then r + 1 else r - 1)

/-- The tie of a pair is closed (R445). -/
def State.tieClosed (s : State) (q : Nat) : Bool :=
  if q < 32 then bitOf (s.reg RG.PWR_TIE_CLOSED_LO 0 0) q else bitOf (s.reg RG.PWR_TIE_CLOSED_HI 0 0) (q - 32)

def State.closeTie (s : State) (q : Nat) : State :=
  if s.tieClosed q then s
  else if q < 32 then s.setReg RG.PWR_TIE_CLOSED_LO 0 0 (s.reg RG.PWR_TIE_CLOSED_LO 0 0 + 2 ^ q)
  else s.setReg RG.PWR_TIE_CLOSED_HI 0 0 (s.reg RG.PWR_TIE_CLOSED_HI 0 0 + 2 ^ (q - 32))

/-- A room can be powered: by its own converter, or by its partner's through their tie (R426). -/
def State.canPower (s : State) (r : Nat) : Bool :=
  s.fld F.PWR_ROOM_STAT_CONV_FAIL r 0 == 0 || (match tiePair r with
    | some (q, o) => s.tieClosed q && s.fld F.PWR_ROOM_STAT_CONV_FAIL o 0 == 0
    | none => false)

/-- A room converter is healthy and runs. -/
def State.convOk (s : State) (r : Nat) : Bool := (s.room r).conv && s.fld F.PWR_ROOM_STAT_CONV_FAIL r 0 == 0

/-- Every converter but standby stops (R422, R435, R557): rooms, porch, ports and PCIe links are without power; on-wafer
and cellar contents are lost. (Log 128: DEDUCED.) -/
def State.powerLoss (s : State) : State :=
  let s := (List.range 96).foldl (fun (s : State) b => s.portDown b) s
  let s := (s.setLinkStat 0 0 0 0).setLinkStat 1 0 0 0
  let s := s.parts.foldl (fun (s : State) e => (if e.1 < 512 then s.clearHarnessRegs e.1 else s).modPart e.1 (fun x => { x with
    harn := none
    running := false
    closed := false
    run := none
    jobs := [] })) s
  let s := s.allRoomsOff.setFld F.PWR_PORCH_CONV_OK 0 0 0
  let s := (List.range 96).foldl (fun (s : State) c => s.setFld F.CELL_STAT_TRAINED c 0 0) s
  { s with
    cores := []
    pantry := []
    larder := []
    cellar := []
    cellKey := []
    pantryMark := []
    larderMark := []
    cellarMark := []
    cache := []
    hall := { s.hall with flits := [], staged := [], applied := [] }
    bring := {}
    pwr := { s.pwr with off := true, change := none, queued := none } }

/-! ### Bus and converters (R422, R423, R426) -/

/-- BUSBAR_CHANGE: the busbar inputs as measured, in mV. -/
def execBusbarChange (aMv bMv t : Nat) (s : State) : Host.Outcome State Fault Refusal :=
  if aMv < 2 ^ 16 ∧ bMv < 2 ^ 16 then
    let s := s.toTime t
    let old := s.reg RG.PWR_BUS 0 0
    let new := b2n (decide (46000 < aMv)) + 2 * b2n (decide (46000 < bMv))
    let s := (s.setReg RG.PWR_BUS 0 0 new).setReg RG.PWR_BUS_MV 0 0 (aMv + 2 ^ 16 * bMv)
    if old = new then .next s
    else .next (s.post Ev.BUS_CHANGE 0x5 0 none (leBytes 1 new ++ leBytes 1 0 ++ leBytes 2 aMv ++ leBytes 2 bMv))
  else .refused .illFormed

/-- BUS_UNDERVOLTAGE: the carrier 54 V bus has stayed below 46 V for 1 ms. -/
def execBusUndervoltage (t : Nat) (s : State) : Host.Outcome State Fault Refusal := .next (s.toTime t).powerLoss

/-- PORCH_CONVERTER_FAIL: porch converter `conv` fails. -/
def execPorchConverterFail (conv t : Nat) (s : State) : Host.Outcome State Fault Refusal :=
  if conv < 8 then
    let s := s.toTime t
    let ok := s.fld F.PWR_PORCH_CONV_OK 0 0
    if !bitOf ok conv then .next s
    else
      let s := s.setFld F.PWR_PORCH_CONV_OK 0 0 (ok - 2 ^ conv)
      let s := s.post Ev.PORCH_CONV_FAIL 0x5 0 none (leBytes 1 conv)
      let side := conv / 2
      if s.sideDown side then
        let s := (List.range 24).foldl (fun (s : State) i => s.portDown (24 * side + i)) s
        .next (s.parts.foldl (fun (s : State) e => s.stopPart e.1 St.PORCH_POWER) s)
      else .next s
  else .refused .illFormed

/-! ### Thermal trip and SHED_N (R435, R459, R556) -/

/-- THERMTRIP: a junction sensor of a room has reached 110 °C, or THERMTRIP_N has been driven low from outside (no room).
(Log 127: DEDUCED.) -/
def execThermtrip (room : Option Nat) (t : Nat) (s : State) : Host.Outcome State Fault Refusal :=
  if room.getD 0 < 100 then
    let s := s.toTime t
    if s.pwr.tripped then .next s
    else
      let s := (s.setFld F.PWR_TRIP_SEEN 0 0 1).setFld F.PWR_TRIP_EXTERNAL 0 0 (b2n room.isNone)
      let s := (s.setFld F.PWR_TRIP_ROOM 0 0 (room.getD 0)).powerLoss
      .next { s with pwr := { s.pwr with tripped := true, tripLow := true } }
  else .refused .illFormed

/-- SHED_ASSERT: SHED_N has been low for 1 µs. (Log 112: DEDUCED.) -/
def execShedAssert (t : Nat) (s : State) : Host.Outcome State Fault Refusal :=
  let s := s.toTime t
  if s.pwr.shed then .next s
  else
    let s := { s with pwr := { s.pwr with shed := true } }
    let s := s.liveRooms.foldl (fun (s : State) r => (s.setFld F.REIN_ROOM_STAT_SHED_STRETCH r 0 1).showRoom r) s
    .next (s.setReason 4 devScope true)

/-- SHED_RELEASE: SHED_N has been high for 1 µs; the envelope ramps up again from SHED_LEVEL (R458). (Log 112: DEDUCED.) -/
def execShedRelease (t : Nat) (s : State) : Host.Outcome State Fault Refusal :=
  let s := s.toTime t
  if !s.pwr.shed then .next s
  else
    let s := { s with pwr := { s.pwr with shed := false } }
    let s := (List.range 100).foldl (fun (s : State) r =>
      if s.fld F.REIN_ROOM_STAT_SHED_STRETCH r 0 = 1 then (s.setFld F.REIN_ROOM_STAT_SHED_STRETCH r 0 0).showRoom r else s) s
    let lvl := s.fld F.REIN_SHED_LEVEL_W 0 0
    let fac := min s.rein.fac ((lvl : Nat) : Rat)
    let s := { s with rein := { s.rein with fac := fac } }
    .next ((s.setFld F.REIN_FAC_NOW_W 0 0 fac.floor.toNat).setReason 4 devScope false)

/-! ### Neighbours (R217) -/

/-- Rooms that share an edge. -/
def besides (a b : Nat) : Bool := (a / 10 == b / 10 && (a + 1 == b || b + 1 == a)) || a + 10 == b || b + 10 == a

/-- NEIGHBOUR_TEMP_SKEW: junction temperatures, in °C, of two live neighbouring rooms differ by more than 40 K.
(Log 113: DEDUCED.) -/
def execNeighbourTempSkew (a ta b tb t : Nat) (s : State) : Host.Outcome State Fault Refusal :=
  if a < 100 ∧ b < 100 ∧ ta < 128 ∧ tb < 128 ∧ besides a b then
    let s := s.toTime t
    let hot := if tb ≤ ta then a else b
    if (ta ≤ tb + 40 ∧ tb ≤ ta + 40) ∨ !s.roomLive a ∨ !s.roomLive b then .next s
    else
      let pair := (hot, if hot = a then b else a)
      let rising := decide (1 ≤ (s.room hot).chg ∧ (s.room hot).chg ≤ 3)
      let s := if s.roomOpp hot = 0 ∧ !rising then s else s.modRoom hot (fun x => { x with forcedOp := some 0 })
      let s := if rising then s.setFld F.CLK_ROOM_STAT_OP_TARGET hot 0 0 else s
      let s := { s with rein := { s.rein with skew := if s.rein.skew.contains pair then s.rein.skew else s.rein.skew ++ [pair] } }
      let s := ((s.issueChange hot 0).showRoom hot).setReason 9 hot true
      .next (s.post Ev.HALL_SKEW 0x3 0 none (leBytes 1 a ++ leBytes 1 b ++ leBytes 1 ta ++ leBytes 1 tb))
  else .refused .illFormed

end Sys2Proof.Machine
end

