-- ==== Sys2Proof/Machine/Clock.lean ====
section
/-! DEFINITION. Reference clocks (R440-R443), and the course of an operating-point change (R444). -/

namespace Sys2Proof.Machine
open Sys2Proof

/-! ### Reference inputs (R440, R441) -/

/-- R440: the consumers follow the inputs present: porch distribution and Bridle, cellar PHYs, PCIe ports. -/
def State.followRefs (s : State) : State :=
  let a := s.refA
  let b := s.refB
  let old := s.fld F.CLK_REF_STAT_PORCH_SRC 0 0
  let src := if a then 0 else if b then 1 else old
  let s := (s.setFld F.CLK_REF_STAT_PORCH_SRC 0 0 src).setFld F.CLK_REF_STAT_BRIDLE_NOREF 0 0 (b2n (!a && !b))
  let s := s.setFld F.CLK_REF_STAT_CELLAR_XTAL 0 0 (b2n (!a && !b))
  let s := if src = old then s else s.post Ev.REF_SWITCH 0x6 0 none (leBytes 1 src)
  let s := if !a && !b then (List.range 96).foldl (fun (s : State) p => s.portDown p) s else s
  let s := if a then s else s.setLinkStat 0 0 0 0
  let s := if b then s else s.setLinkStat 1 0 0 0
  (List.range 100).foldl (fun (s : State) r => if s.fld F.CLK_ROOM_SRC_KIND r 0 = 1 then s.showSources r else s) s

/-- REFCLK_LOSS: a reference input (0 A, 1 B) misses 4 edges. -/
def execRefclkLoss (input t : Nat) (s : State) : Host.Outcome State Fault Refusal :=
  if input < 2 then
    let s := s.toTime t
    if (if input = 0 then s.refA else s.refB) = false then .next s
    else
      let s := if input = 0 then (s.setFld F.CLK_REF_STAT_A_PRESENT 0 0 0).incFld F.CLK_REF_LOSSES_A 0 0
        else (s.setFld F.CLK_REF_STAT_B_PRESENT 0 0 0).incFld F.CLK_REF_LOSSES_B 0 0
      let s := s.followRefs
      .next (if !s.refA && !s.refB then s.post Ev.REF_LOST 0x6 0 none [] else s)
  else .refused .illFormed

/-- REFCLK_RETURN: a reference input has been present for 10 µs. -/
def execRefclkReturn (input t : Nat) (s : State) : Host.Outcome State Fault Refusal :=
  if input < 2 then
    let s := s.toTime t
    if (if input = 0 then s.refA else s.refB) = true then .next s
    else .next (s.setFld (if input = 0 then F.CLK_REF_STAT_A_PRESENT else F.CLK_REF_STAT_B_PRESENT) 0 0 1).followRefs
  else .refused .illFormed

/-! ### Rooms (R442, R443) -/

/-- R442: one round of porch distances by room: live rooms only. -/
def State.spread (s : State) (d : List (Option Nat)) : List (Option Nat) :=
  (List.range 100).map (fun r =>
    if (s.room r).seq ≠ 10 then none
    else if r % 10 = 0 ∨ r % 10 = 9 ∨ r / 10 = 0 ∨ r / 10 = 9 then some 0
    else (List.range 4).foldl (fun (best : Option Nat) side =>
      match (beside? r side).bind (fun q => d.getD q none), best with
      | some n, some b => some (min b (n + 1))
      | some n, none => some (n + 1)
      | none, b => b) (d.getD r none))

/-- Porch distances after `n` rounds. -/
def State.distances (s : State) : Nat → List (Option Nat)
  | 0 => []
  | n + 1 => s.spread (s.distances n)

/-- R442: the KINDs of a room's sources in rank order. -/
def sourceKinds (d : List (Option Nat)) (r : Nat) : List Nat :=
  let mine := (d.getD r none).getD 0
  let edge := r % 10 = 0 ∨ r % 10 = 9 ∨ r / 10 = 0 ∨ r / 10 = 9
  let near := (List.range 4).filterMap (fun side =>
    match (beside? r side).bind (fun q => d.getD q none) with
    | some n => if n < mine then some (n, side + 2) else none
    | none => none)
  ((if edge then [1] else []) ++ (sortBy (fun (a b : Nat × Nat) => decide (a.1 ≤ b.1)) near).map (fun (q : Nat × Nat) => q.2)).take 4

/-- R443, R560: a powered room that uses no source yet takes its first present one, or holds over. -/
def State.takeSource (s : State) (r : Nat) : State :=
  let s := s.showSources r
  if (s.room r).seq ≠ 10 ∨ s.fld F.CLK_ROOM_STAT_HOLDOVER r 0 = 1 then s
  else match (List.range 4).find? (fun k => s.fld F.CLK_ROOM_SRC_PRESENT r k == 1) with
    | some k => s.setFld F.CLK_ROOM_STAT_SRC r 0 k
    | none => ((s.setFld F.CLK_ROOM_STAT_HOLDOVER r 0 1).incFld F.CLK_ROOM_REFSW_HOLDOVERS r 0).modRoom r
        (fun x => { x with holdSince := s.mono })

/-- R442, R443: ranks of every powered room at a bring-up boundary, and, from the porch inwards, the source each takes. -/
def State.rankSources (s : State) : State :=
  let d := s.distances 100
  let s := (List.range 100).foldl (fun (s : State) r =>
    let ks := if (s.room r).seq = 10 then sourceKinds d r else []
    let s := (List.range 4).foldl (fun (s : State) k => s.setFld F.CLK_ROOM_SRC_KIND r k (ks.getD k 0)) s
    s.setFld F.CLK_ROOM_STAT_SRC_COUNT r 0 ks.length) s
  let far := fun (r : Nat) => (d.getD r none).getD 100
  let order := sortBy (fun (a b : Nat) => decide (far a ≤ far b)) (List.range 100)
  order.foldl (fun (s : State) r => s.takeSource r) s

/-- ROOM_REF_LOSS: a room loses the source it uses: it takes its next present one, or holds over. -/
def execRoomRefLoss (room t : Nat) (s : State) : Host.Outcome State Fault Refusal :=
  if room < 100 then
    let s := s.toTime t
    if (s.room room).seq ≠ 10 ∨ s.fld F.CLK_ROOM_STAT_HOLDOVER room 0 = 1 then .next s
    else
      let s := s.setFld F.CLK_ROOM_SRC_PRESENT room (s.fld F.CLK_ROOM_STAT_SRC room 0) 0
      match (List.range 4).find? (fun k => s.fld F.CLK_ROOM_SRC_PRESENT room k == 1 &&
        s.srcPresent room (s.fld F.CLK_ROOM_SRC_KIND room k)) with
      | some k => .next ((s.setFld F.CLK_ROOM_STAT_SRC room 0 k).incFld F.CLK_ROOM_REFSW_SWITCHES room 0)
      | none =>
        let s := (s.setFld F.CLK_ROOM_STAT_HOLDOVER room 0 1).incFld F.CLK_ROOM_REFSW_HOLDOVERS room 0
        .next ((s.modRoom room (fun x => { x with holdSince := s.mono })).tellNeighbours room)
  else .refused .illFormed

/-- HOLDOVER_CAP: a holdover has lasted more than 1 ms. -/
def execHoldoverCap (room t : Nat) (s : State) : Host.Outcome State Fault Refusal :=
  if room < 100 then
    let s := s.toTime t
    if s.fld F.CLK_ROOM_STAT_HOLDOVER room 0 = 0 ∨ s.mono ≤ (s.room room).holdSince + 1000000 then .next s
    else .next ((s.setFld F.CLK_ROOM_STAT_REF_CAPPED room 0 1).setReason 8 room true)
  else .refused .illFormed

/-- ROOM_REF_LOCK: a room in holdover locks to its source of rank `rank`, which is present again. -/
def execRoomRefLock (room rank t : Nat) (s : State) : Host.Outcome State Fault Refusal :=
  if room < 100 ∧ rank < 4 then
    let s := s.toTime t
    if s.fld F.CLK_ROOM_STAT_HOLDOVER room 0 = 0 ∨ !s.srcPresent room (s.fld F.CLK_ROOM_SRC_KIND room rank) then .next s
    else
      let s := (s.setFld F.CLK_ROOM_SRC_PRESENT room rank 1).setFld F.CLK_ROOM_STAT_SRC room 0 rank
      let s := (s.setFld F.CLK_ROOM_STAT_HOLDOVER room 0 0).setFld F.CLK_ROOM_STAT_REF_CAPPED room 0 0
      .next ((s.setReason 8 room false).tellNeighbours room)
  else .refused .illFormed

/-! ### The course of a change (R154, R444) -/

/-- A BARRIER holds its core: the fence has work to do, or not every other member has made the matching arrival. -/
def State.barrierHolds (s : State) (p c w : Nat) : Bool :=
  let x := s.core c
  let g := bitsOf w 15 8
  let k := tget x.arrivals g 0 + b2n x.atBarrier.isNone
  (match barrierFence w with
    | some f => x.atBarrier.isNone && !x.fenceDone f
    | none => false) ||
  ((s.part p).members g).any (fun m => m != c && decide (tget (s.core m).arrivals g 0 < k))

/-- A WAITV holds its core: its word has not come back, or differs. -/
def State.waitvHolds (s : State) (p c w : Nat) : Bool :=
  let x := s.core c
  let want := x.lane64 (bitsOf w 8 4) 2
  match x.loads.find? (fun l => l.vd == 32) with
  | some l => l.value != some want
  | none =>
    match s.scalarLoc p c (x.waitRead w) with
    | .ok (.pantry k) => decide (k / 2 ^ 21 ≠ c) || leNat (memRead s.pantry k 8) != want || markRead s.pantryMark 32 k 8
    | _ => true

/-- R154: a core counts as stopped for a pending stop of its room: idle at a SAFEPOINT that waits for nothing else, or idle
and held at BARRIER, WAITV, END_STEP or a copy WAIT. A core whose program does not run is not live. -/
def State.coreStopped (s : State) (c : Nat) : Bool :=
  match s.partOfCore c with
  | none => true
  | some p =>
    let x := s.core c
    if !(s.part p).active || x.ended then true
    else
      let idle := x.arraysIdle && x.loads.all (fun l => l.vd == 32)
      let b := s.bundle p c
      let w := slotWord b 4
      let op := w % 16
      let wait := slotWord b 0 % 4 == 2
      let held := !s.othersOk p c b || (match op with
        | 2 => s.barrierHolds p c w
        | 7 => s.waitvHolds p c w
        | 8 => !s.ctlOk p c b
        | _ => false)
      idle && decide (x.slotPos ≤ nextSlot b 5 0) && !x.gate &&
        (op == 3 || ((op == 2 || op == 7 || op == 8 || wait) && held))

/-- The cores of a physical room. -/
def State.roomCores (s : State) (r : Nat) : List Nat :=
  let lr := s.logRoom r
  if lr < 96 then (List.range 128).map (fun i => 128 * lr + i) else []

/-- VOLTAGE_RAMP_DONE: the setpoint has reached its target: orders 1 and 5 of a change end, and the return from a knock, with
its high-bandwidth mode. A room that R217 still forces down starts its next change. (Log 108: DESIGN CHOICE; 111: DEDUCED.) -/
def execVoltageRampDone (room t : Nat) (s : State) : Host.Outcome State Fault Refusal :=
  if room < 100 then
    let s := s.toTime t
    let x := s.room room
    let s := if x.hbBack then (s.modRoom room (fun x => { x with hbBack := false })).showRoom room else s
    if x.chg = 1 then .next (s.modRoom room (fun x => { x with chg := 2 }))
    else if x.chg = 5 then
      let s := ((s.modRoom room (fun x => { x with chg := 0 })).incFld F.CLK_ROOM_CHANGES_COUNT room 0).showRoom room
      .next (match x.forcedOp with
        | some o => s.issueChange room o
        | none => s)
    else .next s
  else .refused .illFormed

/-- The low clock group of R424: OP0 and OP1. -/
def lowGroup (op : Nat) : Bool := decide (op ≤ 1)

/-- R432, R444: where a change ends: its target, within the room's limit and a forced stretch's. -/
def State.changeTo (s : State) (r : Nat) : Nat :=
  min (min (s.fld F.CLK_ROOM_STAT_OP_TARGET r 0) (s.opLimit r)) ((s.room r).forcedOp.getD 4)

/-- ROOM_STOPPED: every live core of the room has reached a stopped state (order 2): the divider switches, or the PLL
relocks between groups. A limit lowered meanwhile bounds the target. -/
def execRoomStopped (room t : Nat) (s : State) : Host.Outcome State Fault Refusal :=
  if room < 100 then
    let s := s.toTime t
    if (s.room room).chg ≠ 2 ∨ !(s.roomCores room).all s.coreStopped then .next s
    else
      let to_ := s.changeTo room
      let s := s.setFld F.CLK_ROOM_STAT_OP_TARGET room 0 to_
      let s := if lowGroup to_ = lowGroup (s.roomOpp room) then s.setFld F.CLK_ROOM_STAT_SWITCHING room 0 1
        else s.setFld F.CLK_ROOM_STAT_RELOCK room 0 1
      let s := s.modRoom room (fun x => { x with chg := 3, stopAt := s.mono })
      .next { s with roomStop := setAdd s.roomStop room }
  else .refused .illFormed

/-- CLOCK_SWITCH_DONE: the switch or relock ends and the sequencers resume at the new clock (order 4); a lower voltage
then ramps down (order 5). -/
def execClockSwitchDone (room t : Nat) (s : State) : Host.Outcome State Fault Refusal :=
  if room < 100 then
    let s := s.toTime t
    let x := s.room room
    if x.chg ≠ 3 then .next s
    else
      let was := s.baseMv room
      let to_ := s.changeTo room
      let ns := s.reg RG.CLK_ROOM_STOP_NS room 0 + (s.mono - x.stopAt)
      let s := (s.setReg RG.CLK_ROOM_STOP_NS room 0 (sat32 ns)).setFld F.CLK_ROOM_STAT_OP_TARGET room 0 to_
      let s := ((s.setFld F.CLK_ROOM_STAT_OP room 0 to_).setFld F.CLK_ROOM_STAT_SWITCHING room 0 0).setFld F.CLK_ROOM_STAT_RELOCK room 0 0
      let s := { s with roomStop := setDel s.roomStop room }
      let down := decide (opMv to_ < was)
      let s := s.modRoom room (fun x => { x with
        chg := if down then 5 else 0
        forcedOp := match x.forcedOp with
          | some o => if to_ ≤ o then none else some o
          | none => none })
      let s := if down then s else s.incFld F.CLK_ROOM_CHANGES_COUNT room 0
      .next (s.showRoom room)
  else .refused .illFormed

end Sys2Proof.Machine
end

