-- ==== Sys2Proof/Machine/Rein.lean ====
section
/-! DEFINITION. Rein: caps (R456-R459), the decision (R449-R455), shortfalls of power (R414, R415), cooling (R460-R465). -/

namespace Sys2Proof.Machine
open Sys2Proof

/-- What Rein measures of a room at a decision: mean power on its 1.8 V rail over the 100 µs in mW, whether it ran the
whole interval in one phase at one point without a stretch or a change, and its highest junction reading in °C. -/
structure RoomSense where
  room : Nat
  mw : Nat
  steady : Bool
  tj : Int

def senseOf (q : Nat × Nat × Bool × Int) : RoomSense := ⟨q.1, q.2.1, q.2.2.1, q.2.2.2⟩

/-- R451: the scale factors. -/
def opScale (op : Nat) : Rat := match op with
  | 0 => 318 / 1000
  | 1 => 506 / 1000
  | 2 => 729 / 1000
  | 3 => 1
  | _ => 1271 / 1000

/-- Core voltage in V. -/
def opVolt (op : Nat) : Rat := ((opMv op : Nat) : Rat) / 1000

/-! ### Phases and histories (R449, R450) -/

/-- R273, R449: the phase of a physical room; 0 under a harness of ABI 2. -/
def State.roomPhase (s : State) (r : Nat) : Nat :=
  match s.leadPart r with
  | none => 0
  | some p =>
    if (s.part p).harness.abi = 2 then 0
    else match (s.roomCores r).find? (fun c => (s.part p).tiles.contains (c / 4)) with
    | some c => if (s.part p).running then (s.core c).phase else 0
    | none => 0

def State.histOf (s : State) (r n : Nat) : Rat := tget s.rein.hist (256 * r + n) 85

/-- The phase entry of a room (R255): a harness without one gets kind other, OP0 to OP4. -/
def State.phaseOf (s : State) (r : Nat) : PhaseEnt :=
  match s.leadPart r with
  | some p => if (s.part p).harness.abi = 2 then {} else (s.part p).harness.phases.getD (s.roomPhase r) {}
  | none => {}

/-- R450: one interval updates a room's history when it counts. (Log 119: DEDUCED.) -/
def State.learn (s : State) (q : RoomSense) : State :=
  let n := s.roomPhase q.room
  let op := s.roomOpp q.room
  let key := n * 8 + op + 1
  let calm := q.steady && tget s.rein.seen q.room 0 == key && (s.room q.room).chg == 0 &&
    s.fld F.PWR_ROOM_STAT_DROOP_STRETCH q.room 0 == 0 && s.fld F.PWR_ROOM_STAT_FORCED_STRETCH q.room 0 == 0
  let h := s.histOf q.room n
  let smp := ((q.mw : Nat) : Rat) / 1000 / opScale op
  let hist := if calm then tput s.rein.hist (256 * q.room + n) (h + (smp - h) / 16) 85 else s.rein.hist
  { s with rein := { s.rein with hist := hist, seen := tput s.rein.seen q.room key 0 } }

/-! ### Caps (R456-R458, R462) -/

/-- R460: the inlet temperature in °C: 45 while no sensor has given a valid reading. -/
def State.tIn (s : State) : Int := if s.reg RG.REIN_INLET 0 0 = 0x80808080 then 45 else toSigned 8 (s.fld F.REIN_TEMP_T_IN 0 0)

/-- R462: the thermal cap in W. -/
def State.thermCap (s : State) : Rat := max 1000 ((92 - ((s.tIn : Int) : Rat)) * 1000000 / s.rein.rth)

/-- R458: the envelope moves toward its target by one decision's step. -/
def State.ramp (s : State) : State :=
  let target : Rat := ((s.fld F.REIN_FAC_TARGET_W 0 0 : Nat) : Rat)
  let step : Rat := ((max 100 (min 5000 (s.fld F.REIN_FAC_RAMP_WPS 0 0)) : Nat) : Rat) / 10000
  let f := s.rein.fac
  let f := if f ≤ target then min target (f + step) else max target (f - step)
  { s.setFld F.REIN_FAC_NOW_W 0 0 f.floor.toNat with rein := { s.rein with fac := f } }

/-- R456: the caps with their reason codes, in the order of the table. -/
def State.caps (s : State) : List (Rat × Nat) :=
  [(((s.fld F.REIN_OP_CAP_W 0 0 : Nat) : Rat), 0), (s.rein.fac, 1), (s.thermCap, 2)] ++
    (if s.pwr.shed then [(((s.fld F.REIN_SHED_LEVEL_W 0 0 : Nat) : Rat), 4)] else [])

/-- The lowest cap and its reason; of equals the earlier. -/
def lowest (l : List (Rat × Nat)) : Rat × Nat :=
  match l with
  | [] => (10000, 0)
  | c :: cs => cs.foldl (fun b q => if q.1 < b.1 then q else b) c

/-! ### The decision (R452, R453) -/

/-- R201: the physical rooms adjacent to a package group. -/
def groupRooms (k : Nat) : List Nat :=
  let ds := match k % 6 with
    | 0 => [0, 1]
    | 1 => [1, 2, 3]
    | 2 => [3, 4]
    | 3 => [5, 6]
    | 4 => [6, 7, 8]
    | _ => [8, 9]
  ds.map (sideRoom (k / 6))

/-- Heat levels of the package groups adjacent to a room (R201, R202). -/
def State.roomHeat (s : State) (r : Nat) : List Nat :=
  ((List.range 24).filter (fun g => (groupRooms g).contains r)).map s.heatLevel

/-- R453: the ceiling of a room. -/
def State.ceiling (s : State) (r : Nat) : Nat :=
  let heat := (s.roomHeat r).foldl max 0
  let op := s.roomOpp r
  [if s.fld F.CLK_ROOM_STAT_REF_CAPPED r 0 = 1 then 3 else 4, if heat = 3 then 0 else if heat = 2 then 1 else 4,
   if s.rein.skew.any (fun q => q.1 == r) then op - 1 else 4, s.fld F.REIN_ROOM_STAT_THERM_CEIL r 0, s.opLimit r].foldl min (s.phaseOf r).opMax

/-- The current loop of R452. -/
def currentLoop (h : Rat) (healthy : Nat) : Nat → Nat
  | 0 => 0
  | o + 1 => if 144 / 10 * ((healthy : Nat) : Rat) < h * opScale (o + 1) * 9 / 10 / opVolt (o + 1) then currentLoop h healthy o
    else o + 1

/-- A room in the cap loop: number, history, point. -/
abbrev Lane := Nat × Rat × Nat

def predicted (l : List Lane) (rest : Rat) : Rat := l.foldl (fun n q => n + q.2.1 * opScale q.2.2 * 100 / 96) 0 + rest

/-- R452: is `a` picked before `b`? -/
def pickFirst (a b : Lane) : Bool :=
  decide (b.2.2 < a.2.2) || (a.2.2 == b.2.2 && (decide (b.2.1 * opScale b.2.2 < a.2.1 * opScale a.2.2) ||
    (decide (a.2.1 * opScale a.2.2 = b.2.1 * opScale b.2.2) && decide (a.1 < b.1))))

/-- The cap loop of R452. -/
def capLoop (c rest : Rat) : Nat → List Lane → List Lane
  | 0, l => l
  | fuel + 1, l =>
    if predicted l rest ≤ c then l
    else match l.filter (fun q => decide (0 < q.2.2)) with
      | [] => l
      | q :: qs =>
        let b := qs.foldl (fun b a => if pickFirst a b then a else b) q
        capLoop c rest fuel (l.map (fun a => if a.1 = b.1 then (a.1, a.2.1, a.2.2 - 1) else a))

/-- Where R452 starts a room before the current loop. -/
def State.startPoint (s : State) (r : Nat) : Nat :=
  let u := s.ceiling r
  if s.fld F.REIN_CFG_POLICY 0 0 = 0 then u else min u (max 2 (s.phaseOf r).opMin)

/-- cur of R452. -/
def State.curPoint (s : State) (r : Nat) : Nat := max (s.roomOpp r) (s.fld F.CLK_ROOM_STAT_OP_TARGET r 0)

/-- R452: the assignment for a cap and rest power, with the rooms the current loop lowered and those the cap lowered. -/
def State.assign (s : State) (c rest : Rat) : List (Nat × Nat) × List Nat × Bool :=
  let start := s.liveRooms.map (fun r =>
    let h := s.histOf r (s.roomPhase r)
    ((r, h, currentLoop h (s.healthyPhases r) (s.startPoint r)) : Lane))
  let hot := (start.filter (fun q => decide (q.2.2 < s.startPoint q.1))).map (fun q => q.1)
  let capped := capLoop c rest 500 start
  let p := predicted capped rest
  let o := capped.map (fun q => (q.1, if (s.roomHeat q.1).foldl max 0 = 1 then q.2.2 - 1 else q.2.2))
  (if c - 200 < p then o.map (fun q => (q.1, min q.2 (s.curPoint q.1))) else o, hot, capped != start)

/-! ### Guarantees (R414, R415) -/

/-- R414: the cut of each minimum, in W: partition and shortfall. -/
def State.powerCuts (s : State) (c : Rat) : List (Nat × Rat) :=
  let ps := (s.parts.filter (fun e => e.2.harn.isSome)).map (fun e => (e.1, ((s.fld F.TACK_PART_GUAR_MIN_W e.1 0 : Nat) : Rat)))
  let m := ps.foldl (fun n q => n + q.2) 0
  let room : Rat := c - ((s.rein.pOp : Int) : Rat) / 1000
  if m ≤ room then ps.map (fun q => (q.1, 0))
  else ps.map (fun q => (q.1, if room ≤ 0 then q.2 else q.2 - q.2 * room / m))

/-- R415: a partition's shortfall of power starts, goes on or ends. (Log 120: DEDUCED.) -/
def State.powerShort (s : State) (p : Nat) (w : Rat) : State :=
  match (s.part p).shortW with
  | none =>
    if w = 0 then s
    else
      let amount := w.ceil.toNat
      let s := (s.modPart p (fun x => { x with shortW := some (amount, s.mono, (w * 100).floor.toNat) })).flagRequests p true false
      s.postShort p 0 0 amount 0 s.mono
  | some (a, start, uj) =>
    if w = 0 then
      (s.postShort p 0 1 a (uj / 1000) start).modPart p (fun x => { x with shortW := none })
    else s.modPart p (fun x => { x with shortW := some (max a w.ceil.toNat, start, uj + (w * 100).floor.toNat) })

/-! ### Readings -/

/-- R217: the temperature rule: of two neighbours more than 30 K apart the hotter, until they are within 25 K. -/
def skewOf (old : List (Nat × Nat)) (l : List RoomSense) : List (Nat × Nat) :=
  l.flatMap (fun q => (l.filter (fun o => besides q.room o.room &&
    (decide (o.tj + 30 < q.tj) || (old.contains (q.room, o.room) && decide (o.tj + 25 < q.tj))))).map (fun o => (q.room, o.room)))

/-- R463: a room at 95 °C or more loses a point of its thermal ceiling at each decision. -/
def State.thermalLower (s : State) (q : RoomSense) : State :=
  if q.tj < 95 then s
  else s.setFld F.REIN_ROOM_STAT_THERM_CEIL q.room 0 (s.fld F.REIN_ROOM_STAT_THERM_CEIL q.room 0 - 1)

/-- REIN_TEMP: the highest junction reading and its room. -/
def State.showHottest (s : State) (l : List RoomSense) : State :=
  match l with
  | [] => s
  | q :: qs =>
    let b := qs.foldl (fun b a => if b.tj < a.tj then a else b) q
    (s.setFld F.REIN_TEMP_TJ_MAX 0 0 (ofSigned 8 b.tj)).setFld F.REIN_TEMP_TJ_ROOM 0 0 b.room

/-- R470: the room pages after a decision; ceiling, phase, history and lead are those of the last decision. (Log 118:
DEDUCED.) -/
def State.showRein (s : State) (o : List (Nat × Nat)) (r : Nat) : State :=
  let lead := s.leadPart r
  let s := (s.setFld F.REIN_ROOM_STAT_CEILING r 0 (s.ceiling r)).setFld F.REIN_ROOM_STAT_PHASE r 0 (s.roomPhase r)
  let s := s.setFld F.REIN_ROOM_STAT_ASSIGNED r 0 (((o.find? (fun q => q.1 == r)).map (fun q => q.2)).getD 0)
  let s := s.setFld F.REIN_ROOM_HIST_CW r 0 (satN 16 (s.histOf r (s.roomPhase r) * 100).floor.toNat)
  (s.setFld F.REIN_ROOM_LEAD_PART r 0 (lead.getD 0)).setFld F.REIN_ROOM_LEAD_NONE r 0 (b2n lead.isNone)

/-- R466: the reasons a decision settles. (Log 118: DEDUCED.) -/
def State.settleReasons (s : State) (binding : Nat) (hot : List Nat) (cut short : Bool) : State :=
  let s := [0, 1, 2].foldl (fun (s : State) k => s.setReason k devScope (cut && binding == k)) s
  let s := (s.setReason 4 devScope (s.pwr.shed || (List.range 100).any (fun r => s.fld F.REIN_ROOM_STAT_SHED_STRETCH r 0 == 1))).setReason
    10 devScope short
  (List.range 100).foldl (fun (s : State) r =>
    let live := s.roomLive r
    let s := s.setReason 2 r (live && decide (s.fld F.REIN_ROOM_STAT_THERM_CEIL r 0 < 4))
    let s := s.setReason 3 r (live && hot.contains r)
    let s := s.setReason 6 r (live && (s.roomHeat r).any (fun h => decide (0 < h)))
    s.setReason 9 r (live && s.rein.skew.any (fun q => q.1 == r))) s

/-- R459: the shed stretch lifts once every room is at its assigned point and the prediction there is within SHED_LEVEL. -/
def State.maybeUnshed (s : State) (o : List (Nat × Nat)) (rest : Rat) : State :=
  let at_ := o.map (fun q => ((q.1, s.histOf q.1 (s.roomPhase q.1), q.2) : Lane))
  let fits := decide (predicted at_ rest ≤ ((s.fld F.REIN_SHED_LEVEL_W 0 0 : Nat) : Rat))
  if s.pwr.shed && fits && o.all (fun q => s.roomOpp q.1 == q.2 && (s.room q.1).chg == 0) then
    s.liveRooms.foldl (fun (s : State) r => (s.setFld F.REIN_ROOM_STAT_SHED_STRETCH r 0 0).showRoom r) s
  else s

/-- R446: what the regulators of a live room measure now: its droop minimum in mV, its core current in 0.1 A and the current
of each phase in A; a phase that is off carries none. (Log 159: DEDUCED.) -/
def State.showSense (s : State) (q : Nat × Nat × Nat × List Nat) : State :=
  if !s.roomLive q.1 then s
  else
    let s := (s.setFld F.PWR_ROOM_MV_DROOP_MIN_MV q.1 0 q.2.1).setReg RG.PWR_ROOM_AMPS q.1 0 q.2.2.1
    (List.range 12).foldl (fun (s : State) n =>
      s.setFld F.PWR_PHASE_STAT_AMPS q.1 n (if s.fld F.PWR_PHASE_STAT_HEALTHY q.1 n = 1 then q.2.2.2.getD n 0 else 0)) s

/-- REIN_DECISION: one decision; `rooms` are (room, rail mW, steady, °C), `sense` (room, droop minimum in mV, core current in
0.1 A, phase currents in A), `inputMw` the measured module input. (Log 119, 120, 159: DEDUCED.) -/
def execReinDecision (seen : List (Nat × Nat × Bool × Int) × List (Nat × Nat × Nat × List Nat)) (inputMw t : Nat)
    (s : State) : Host.Outcome State Fault Refusal :=
  if seen.1.all (fun q => decide (q.1 < 100)) ∧ seen.2.all (fun q => decide (q.1 < 100) && decide (q.2.1 < 1024) &&
      decide (q.2.2.1 < 2 ^ 16) && q.2.2.2.all (fun a => decide (a < 256))) then
    let s := seen.2.foldl (fun (s : State) q => s.showSense q) (s.toTime t)
    if s.fld F.TACK_BRINGUP_READY 0 0 = 0 ∨ s.fld F.GLB_POWER_STATE_STATE 0 0 ≠ 0 then .next s
    else
      let l := (seen.1.map senseOf).filter (fun q => s.roomLive q.room)
      let s := l.foldl (fun (s : State) q => (s.learn q).thermalLower q) (s.showHottest l)
      let s := { s with rein := { s.rein with skew := skewOf s.rein.skew l } }
      let s := s.ramp
      let (c, binding) := lowest s.caps
      let therm := (s.thermCap).floor.toNat
      let s := (s.setFld F.REIN_THERM_CAP_W 0 0 (min 16383 therm)).setReg RG.REIN_EFF_CAP 0 0 (c.floor.toNat % 2 ^ 14 + 2 ^ 16 * binding)
      let rest := ((inputMw : Nat) : Rat) / 1000 - l.foldl (fun n q => n + ((q.mw : Nat) : Rat) / 960) 0
      let (o, hot, cut) := s.assign c rest
      let cuts := s.powerCuts c
      let s := cuts.foldl (fun (s : State) q => s.powerShort q.1 q.2) s
      let s := s.parts.foldl (fun (s : State) e => if e.2.harn.isNone ∧ e.2.shortW.isSome then s.powerShort e.1 0 else s) s
      let s := { s with rein := { s.rein with pOp := s.mtr.operMw } }
      -- R454: lowerings first
      let s := (o.filter (fun (q : Nat × Nat) => decide (q.2 < s.roomOpp q.1))).foldl (fun (s : State) (q : Nat × Nat) => s.issueChange q.1 q.2) s
      let s := (o.filter (fun (q : Nat × Nat) => decide (s.roomOpp q.1 < q.2))).foldl (fun (s : State) (q : Nat × Nat) => s.issueChange q.1 q.2) s
      let s := s.maybeUnshed o rest
      let short := s.parts.any (fun e => e.2.shortW.isSome || e.2.shortB.isSome)
      let s := s.settleReasons binding hot cut short
      .next ((List.range 100).foldl (fun (s : State) r => s.showRein o r) s)
  else .refused .illFormed

/-! ### Cooling (R460-R465) -/

/-- INLET_POLL: the four inlet sensors' answers in °C, none where one does not answer. -/
def execInletPoll (a b c d : Option Int) (t : Nat) (s : State) : Host.Outcome State Fault Refusal :=
  let s := s.toTime t
  let ok := fun (x : Option Int) => match x with
    | some v => if -10 ≤ v ∧ v ≤ 70 then some v else none
    | none => none
  let vs := [a, b, c, d].map ok
  let good := vs.filterMap id
  let old := s.reg RG.REIN_INLET 0 0
  let was := (List.range 4).foldl (fun n i => n + b2n (decide (bitsOf old (8 * i + 7) (8 * i) ≠ 0x80)) * 2 ^ i) 0
  let byte := fun (x : Option Int) => match x with
    | some v => ofSigned 8 v
    | none => 0x80
  let s := s.setReg RG.REIN_INLET 0 0 (leNat ((vs.map byte).map (BitVec.ofNat 8)))
  let tin := match good with
    | [] => (45 : Int)
    | v :: rest => rest.foldl max v
  let s := s.setFld F.REIN_TEMP_T_IN 0 0 (ofSigned 8 tin)
  .next (if good.isEmpty ∧ was ≠ 0 then s.post Ev.INLET_LOST 0x7 0 none (leBytes 1 was) else s)

/-- R461: R_th takes a value in µK/W, within its bounds; COOLING_DEGRADED is posted when it first rises above 0.0075 K/W and at
each further 0.0010 K/W. -/
def State.setRth (s : State) (v : Rat) : State :=
  let r := max 3000 (min 50000 v)
  let s := { s.setFld F.REIN_RTH_UKW 0 0 r.floor.toNat with rein := { s.rein with rth := r } }
  let due := match s.rein.degraded with
    | none => decide (7500 < r)
    | some d => decide (d + 1000 ≤ r)
  if due then
    { s.post Ev.COOLING_DEGRADED 0x7 0 none (leBytes 4 r.floor.toNat) with rein := { s.rein with degraded := some r } }
  else s

/-- RTH_ESTIMATE: one second's estimate. `calm` says that the fan duty has been at least 90 % and unchanged, and the input
within 5 % of its mean `meanMw`, for 30 s. (Log 121: DESIGN CHOICE.) -/
def execRthEstimate (calm : Bool) (meanMw t : Nat) (s : State) : Host.Outcome State Fault Refusal :=
  let s := s.toTime t
  if !calm ∨ meanMw = 0 ∨ s.fld F.REIN_FAN_DUTY 0 0 < 90 then .next s
  else
    let tj := toSigned 8 (s.fld F.REIN_TEMP_TJ_MAX 0 0)
    let smp : Rat := (((tj - s.tIn : Int)) : Rat) * 1000000000 / ((meanMw : Nat) : Rat)
    let r := s.rein.rth
    .next (s.setRth (if r * 11 / 10 < smp then smp else r + (smp - r) / 8))

/-- RTH_FLASH_SAVE: the Tack Room saves the estimate (R461). -/
def execRthFlashSave (t : Nat) (s : State) : Host.Outcome State Fault Refusal :=
  let s := s.toTime t
  .next { s with nv := { s.nv with rth := some (s.fld F.REIN_RTH_UKW 0 0) } }

/-- THERMAL_CEILING_RAISE: for a full second every sensor of a room has read below 90 °C (R463). -/
def execThermalCeilingRaise (room t : Nat) (s : State) : Host.Outcome State Fault Refusal :=
  if room < 100 then
    let s := s.toTime t
    let c := min 4 (s.fld F.REIN_ROOM_STAT_THERM_CEIL room 0 + 1)
    .next ((s.setFld F.REIN_ROOM_STAT_THERM_CEIL room 0 c).setReason 2 room (s.roomLive room && decide (c < 4)))
  else .refused .illFormed

/-- R464, R563: every fan is OK; with an expected speed of 0 the device expects no pulses. (Log 117: DEDUCED.) -/
def State.fansOk (s : State) : Bool := s.fld F.REIN_FAN_OK 0 0 == 255 || s.fld F.REIN_FAN_EXPECT_RPM_100 0 0 == 0

/-- R465, R469: the measured speeds of the fans, in rpm. -/
def State.showFans (s : State) (rpms : List Nat) : State :=
  (List.range 8).foldl (fun (s : State) k => match rpms[k]? with
    | some v => s.setReg RG.REIN_FAN_RPM 0 k v
    | none => s) s

/-- FAN_DUTY_UPDATE: one second's duty (R464), with the speeds `seen.1` measured at `seen.2`. A failed fan keeps it at 100 %
(R465). (Log 117: DEDUCED.) -/
def execFanDutyUpdate (seen : List Nat × Nat) (s : State) : Host.Outcome State Fault Refusal :=
  if seen.1.all (fun v => decide (v < 2 ^ 16)) then
    let s := (s.toTime seen.2).showFans seen.1
    let d := s.fld F.REIN_FAN_DUTY 0 0
    let tj := toSigned 8 (s.fld F.REIN_TEMP_TJ_MAX 0 0)
    let goal : Int := ((s.fld F.REIN_FAN_TARGET 0 0 : Nat) : Int)
    let others := (lowest (s.caps.filter (fun q => q.2 != 2))).1
    -- R464: 100 % until the Tack Room has started Rein
    let new := if !s.fansOk ∨ s.fld F.TACK_BRINGUP_READY 0 0 = 0 ∨ s.thermCap < others * 11 / 10 then 100
      else if goal + 2 ≤ tj then d + 5
      else if tj ≤ goal - 5 then d - 2
      else d
    .next (s.setFld F.REIN_FAN_DUTY 0 0 (max 20 (min 100 new)))
  else .refused .illFormed

/-- FAN_FAIL: fan `fan` has turned at less than 10 % of its expected speed for 5 s; `rpm` is its measured speed. -/
def execFanFail (fan rpm t : Nat) (s : State) : Host.Outcome State Fault Refusal :=
  if fan < 8 ∧ rpm < 2 ^ 16 then
    let s := (s.toTime t).setReg RG.REIN_FAN_RPM 0 fan rpm
    let ok := s.fld F.REIN_FAN_OK 0 0
    let want := s.fld F.REIN_FAN_EXPECT_RPM_100 0 0 * s.fld F.REIN_FAN_DUTY 0 0
    if !bitOf ok fan ∨ want ≤ rpm * 1000 then .next s
    else
      let s := (s.setFld F.REIN_FAN_OK 0 0 (ok - 2 ^ fan)).setFld F.REIN_FAN_DUTY 0 0 100
      .next (s.post Ev.FAN_FAIL 0x7 0 none (leBytes 1 fan ++ leBytes 1 0 ++ leBytes 2 rpm))
  else .refused .illFormed

/-- FAN_OK: a failed fan turns at its expected speed again. -/
def execFanOk (fan rpm t : Nat) (s : State) : Host.Outcome State Fault Refusal :=
  if fan < 8 ∧ rpm < 2 ^ 16 then
    let s := (s.toTime t).setReg RG.REIN_FAN_RPM 0 fan rpm
    let ok := s.fld F.REIN_FAN_OK 0 0
    let want := s.fld F.REIN_FAN_EXPECT_RPM_100 0 0 * s.fld F.REIN_FAN_DUTY 0 0
    if bitOf ok fan ∨ rpm * 1000 < want then .next s
    else .next (s.setFld F.REIN_FAN_OK 0 0 (ok + 2 ^ fan))
  else .refused .illFormed

end Sys2Proof.Machine
end

