-- ==== Sys2Proof/Machine/Startup.lean ====
section
/-! DEFINITION. Bring-up: resets (R7, R495, R499, R557), the boot (R510, R511), identity and vote (R503-R509), power waves
(R436-R439), self-test, zeroisation and training (R500-R502), and re-bring-up of a room (R18). -/

namespace Sys2Proof.Machine
open Sys2Proof

/-! ### Resets (R7, R495, R499) -/

/-- R7, R495, R499: the registers a reset of the rest leaves: with the standby supply up the Meter's, the status of wall time
and TIME_DISC; when it fails the totals the Meter's saved lines give and TIME_DISC, every other one taking its reset value.
(Log 101: DEDUCED.) -/
def State.meterRegs (s : State) (keepWall : Bool) : Table Word :=
  let kept := fun (z : State) (r : Reg) => z.setReg r 0 0 (s.reg r 0 0)
  let z : State := if keepWall then { regs := trange s.regs (regKey 0x40 0 64) 1008 }
    else [RG.MTR_TOTAL_MJ_LO, RG.MTR_TOTAL_MJ_HI, RG.MTR_OPER_MJ_LO, RG.MTR_OPER_MJ_HI].foldl kept {}
  let z := kept z RG.TIME_DISC
  (if keepWall then z.setReg RG.TIME_STAT 0 0 (s.reg RG.TIME_STAT 0 0) else z).regs

/-- R499, R495: everything is at reset but what a reset keeps: flash and eFuse, the Meter, host memory, the queue, and wall
time where the standby supply stays up. The monotonic counter restarts. (Log 101: DEDUCED; 129: DESIGN CHOICE.) -/
def State.coldReset (s : State) (keepWall : Bool) : State :=
  let z : State := { pending := s.pending, free := s.free }
  let dt := s.mono - s.time.mono
  { z with
    regs := s.meterRegs keepWall
    nv := { s.nv with record := [] }
    host := { mem := s.host.mem, msix := s.host.msix, reads := s.host.reads }
    smb := s.smb
    roomRetire := s.roomRetire
    time := if keepWall then { wall := s.tai, slew := s.time.slew - slewed s.time.slew dt, set := s.time.set, utcDone := s.time.utcDone }
      else {}
    pwr := { shed := s.pwr.shed, tripped := s.pwr.tripped, pwrgd := keepWall }
    mtr := { s.mtr with
      operMw := if keepWall then s.mtr.operMw else 0
      lastEnd := 0
      ended := []
      due := []
      lastTick := 0
      signs := [] } }

/-- RESET_ASSERT: RST_N has been low for 1 ms (R557). -/
def execResetAssert (t : Nat) (s : State) : Host.Outcome State Fault Refusal :=
  let s := (s.toTime t).powerLoss
  .next { s with pwr := { s.pwr with rstLow := true } }

/-- STANDBY_FAIL: the standby supply is about to fail: the Meter saves what it holds, and everything else that no flash
holds is lost (R495, R558). -/
def execStandbyFail (t : Nat) (s : State) : Host.Outcome State Fault Refusal := .next ((s.toTime t).coldReset false)

/-! ### Firmware images (R510) -/

/-- The check of R510 that an image fails, as STAGE_STATUS codes it; 0 for an acceptable one. -/
def State.fwCheck (s : State) (img : Bytes) : Nat :=
  let slot := fieldAt img 6 1
  let key := if slot = 0 then s.nv.key0 else s.nv.key1
  if slice img 0 4 ≠ [0x54, 0x4E, 0x46, 0x57] then 2
  else if 2 ≤ slot ∨ key.length ≠ 32 ∨ (if slot = 0 then s.nv.revoked0 else s.nv.revoked1) then 3
  else if !edVerify key (slice img 0 64) (slice img 64 64) then 4
  else if sha256 (slice img 256 (fieldAt img 8 4)) ≠ slice img 0x20 32 then 5
  else if fieldAt img 0x0C 4 < s.nv.svn then 6
  else 0

def State.fwSlot (s : State) (k : Nat) : Bytes := if k = 0 then s.nv.slotA else s.nv.slotB

/-- Slots in the order the boot ROM tries them: the preferred one first, but the other once a trial has booted without a
CONFIRM (R510, R511). (Log 103: DEDUCED.) -/
def State.bootOrder (s : State) : List Nat :=
  let p := s.nv.prefer
  if s.nv.trial && s.nv.tried then [1 - p, p] else [p, 1 - p]

/-- R510, R512: stage 2 runs an image from the first acceptable slot; none: recovery mode. (Log 103: DEDUCED.) -/
def State.boot (s : State) (order : List Nat) : State :=
  match order.find? (fun k => s.fwCheck (s.fwSlot k) == 0) with
  | none => (s.setFld F.TACK_BRINGUP_STAGE 0 0 2).setFld F.TACK_BRINGUP_FAIL 0 0 1
  | some k =>
    let img := s.fwSlot k
    let trial := s.nv.trial && k == s.nv.prefer
    let lo := fieldAt img 0x18 4
    let hi := fieldAt img 0x1C 4
    let abi := match s.nv.abiSaved with
      | some a => if lo ≤ a ∧ a ≤ hi then a else hi
      | none => hi
    let s := if trial then { s with nv := { s.nv with tried := true } } else s
    let s := ((s.setFld F.TACK_FW_STAT_SLOT 0 0 k).setFld F.TACK_FW_STAT_TRIAL 0 0 (b2n trial)).setFld F.TACK_FW_STAT_SVN_FUSE 0 0 s.nv.svn
    ((s.setFld F.TACK_FW_ABI_RANGE_MIN 0 0 lo).setFld F.TACK_FW_ABI_RANGE_MAX 0 0 hi).setReg RG.TACK_FW_ABI_SEL 0 0 abi

/-! ### Identity and vote (R503, R505-R508) -/

def bankHolds (b : Bytes) : Bool := b.length == 256 && crc32 (b.take 252) == fieldAt b 252 4

/-- R503: the identity bank in use, the first whose CRC holds. -/
def State.idBank (s : State) : Option (Nat × Bytes) :=
  if bankHolds s.nv.bank0 then some (0, s.nv.bank0) else if bankHolds s.nv.bank1 then some (1, s.nv.bank1) else none

/-- R503: the identity registers, from the bank in use. (Log 104, 141: DEDUCED.) -/
def State.loadIdentity (s : State) : State :=
  match s.idBank with
  | none => s.setFld F.TACK_BRINGUP_FAIL 0 0 2
  | some (k, b) =>
    let s := s.setReg64 RG.ID_LOT_LO RG.ID_LOT_HI 0 0 (fieldAt b 4 8)
    let s := ((s.setFld F.ID_UNIT_WAFER 0 0 (fieldAt b 12 1)).setFld F.ID_UNIT_ORDER 0 0 (fieldAt b 13 1 % 2)).setFld F.ID_UNIT_BANK 0 0 k
    let s := s.setReg RG.ID_MFG_DAY 0 0 (fieldAt b 0x10 4)
    let s := (List.range 100).foldl (fun (s : State) i => s.setReg RG.ID_ROOM_SERIAL 0 i (fieldAt b (0x14 + 2 * i) 2)) s
    -- an intact flash copy with another identity is rewritten with the eFuse identity (R508)
    let fix := fun (f : FlashRec) => if f.intact then { f with ident := b } else f
    { s with nv := { s.nv with flashA := fix s.nv.flashA, flashB := fix s.nv.flashB } }

/-- R508: the event list two intact copies agree on, and whether all three do. (Log 105: DEDUCED.) -/
def State.agreed (s : State) : Option (List DefEv × Bool) :=
  let a := if s.nv.flashA.intact then some s.nv.flashA.events else none
  let b := if s.nv.flashB.intact then some s.nv.flashB.events else none
  let e := if s.nv.efuseOk then some s.nv.efuse else none
  match a, b, e with
  | some x, some y, some z => if x = y ∧ y = z then some (x, true) else if x = y ∨ x = z then some (x, false)
      else if y = z then some (y, false) else none
  | some x, some y, none => if x = y then some (x, false) else none
  | some x, none, some z => if x = z then some (x, false) else none
  | none, some y, some z => if y = z then some (y, false) else none
  | _, _, _ => none

/-- R508: the eFuse copy is brought up to an agreed record, or left and reported. (Log 105: DEDUCED.) -/
def State.repairEfuse (s : State) (l : List DefEv) : State :=
  let n := s.nv.efuse.length
  if s.nv.efuseOk ∧ s.nv.efuse = l then s
  else if s.nv.efuseOk ∧ n < l.length ∧ l.take n = s.nv.efuse then
    let s' := { s with nv := { s.nv with efuse := l.take 2048 } }
    if l.length ≤ 2048 then s' else (s'.setFld F.ID_REC_STAT_EFUSE_FULL 0 0 1).post Ev.EFUSE_FULL 0x9 0 none []
  else (s.setFld F.ID_REC_STAT_EFUSE_DIVERGED 0 0 1).post Ev.EFUSE_DIVERGED 0x9 0 none (leBytes 2 n ++ leBytes 2 l.length)

/-- Retirements in service that no copy holds yet (R24, R524): recorded and acted on at the bring-up boundary.
(Log 106: DEDUCED.) -/
def State.recordRooms (s : State) : State :=
  let due := (s.roomRetire.filter (fun e => decide (e.2 < 8))).map (fun e => (e.1, e.2))
  let s := { s with roomRetire := [] }
  let (s, pend) := due.foldl (fun (q : State × List Nat) e =>
    let s := q.1.recordEvent e.1 63 e.2
    s.mapEvent q.2 ⟨e.1, 63, e.2, s.nv.epoch % 65536⟩) (s, [])
  let old := (List.range 96).map s.physRoom
  let s := s.mapPending pend
  let new := (List.range 96).map s.physRoom
  { s with bring := { s.bring with subs := new.filter (fun r => !old.contains r) } }

/-- Stage 3: identity, vote and map; without agreement the device surveys itself (R509). -/
def State.vote3 (s : State) : State :=
  let s := { s with nv := { s.nv with epoch := s.nv.epoch + 1 } }
  let s := s.setFld F.ID_EPOCH_EPOCH 0 0 (s.nv.epoch % 65536)
  let s := s.loadIdentity
  match s.agreed with
  | some (l, all) =>
    -- a copy rewritten from the record carries the eFuse identity (R505, R508)
    let id := fun (f : FlashRec) => (s.idBank.map (fun q => q.2)).getD f.ident
    let fl := fun (f : FlashRec) => { intact := true, ident := id f, events := l }
    let s := { s with nv := { s.nv with record := l, flashA := fl s.nv.flashA, flashB := fl s.nv.flashB } }
    let s := (s.repairEfuse l).setFld F.ID_REC_STAT_VOTE 0 0 (if all then 0 else 1)
    (s.buildMap l).recordRooms.showRecord
  | none =>
    let s := (s.setFld F.ID_REC_STAT_VOTE 0 0 2).setFld F.TACK_BRINGUP_SURVEY 0 0 1
    { s with roomRetire := [] }.defaultMap.showRecord

/-! ### Power waves (R436) -/

/-- R436: the rooms a bring-up powers, with their waves: the rooms that back a logical room in service and are no holes, each
in the wave of its row, those that take over at this bring-up in the eleventh; in a survey all, unused spares in the
eleventh (R509). A wake from dark leaves a hole and its logical room as they are (R18, R427). -/
def State.planWaves (s : State) : List (Nat × Nat) :=
  let rooms := (List.range 100).filter (fun r => s.surveying || (!s.hole r && (match s.backs r with
    | some lr => s.fld F.GLB_ROOM_MAP_OUT_OF_SERVICE 0 lr == 0
    | none => false)))
  rooms.map (fun r => (if s.bring.subs.contains r || (s.backs r).isNone then 10 else r / 10, r))

/-- A room whose power-up has begun and not ended. -/
def State.powering (s : State) (r : Nat) : Bool := (s.room r).conv && (s.room r).seq != 10

def State.anyPowering (s : State) : Bool := (List.range 100).any s.powering

/-- R18, R501: a room leaves service at a bring-up, and its spare joins the eleventh wave. -/
def State.replaceRoom (s : State) (r cause : Nat) : State :=
  let s := s.roomOff r
  if s.surveying then { s with bring := { s.bring with badRooms := setAdd s.bring.badRooms r } }
  else
    let lr := s.backs r
    let s := (s.recordEvent r 63 cause).retireRoom r
    match lr with
    | none => s.setHole r true
    | some n =>
      -- R19: the on-wafer contents of the retired room are lost
      let s := (s.loseRoom n).subRoom n
      if s.fld F.GLB_ROOM_MAP_OUT_OF_SERVICE 0 n = 1 then s
      else { s with bring := { s.bring with waves := s.bring.waves ++ [(10, s.physRoom n)] } }

/-! ### Self-test and training (R500-R502) -/

/-- Stage 5 of one room, repeated while a spare tile brought in fails too. (Log 107: DEDUCED.) -/
def State.testRoom (s : State) (r : Nat) : Nat → State
  | 0 => s
  | fuel + 1 =>
    let bad := sortBy (fun (a b : Nat) => decide (a ≤ b)) ((s.testedTiles r).filter (fun t => s.bring.out.badTiles.contains (r, t)))
    if s.surveying then
      { s with bring := { s.bring with badTiles := s.bring.badTiles ++ bad.map (fun t => (r, t)) } }
    else
      match bad.filter (fun t => !s.tileRetired r t) with
      | [] => s
      | t :: _ => ((((s.recordEvent r t 1).disarmTile r t).mapEvent [] ⟨r, t, 1, s.nv.epoch % 65536⟩).1.closeHeaders r).testRoom r fuel

/-- Stage 5: the rooms not yet tested; one that cannot present 32 healthy tiles is replaced (R501). (Log 107: DEDUCED.) -/
def State.selfTest (s : State) : State :=
  let rooms := s.bring.untested
  let s := { s with bring := { s.bring with untested := [] } }
  rooms.foldl (fun (s : State) r =>
    let s := s.testRoom r 37
    match s.backs r with
    | some lr => if s.fld F.GLB_ROOM_MAP_SHORT 0 lr = 1 ∧ !s.surveying then s.replaceRoom r 1 else s
    | none => s) s

/-- R509: the list a survey finds, and the map it gives; unused spares go dark again. -/
def State.endSurvey (s : State) : State :=
  let e := s.nv.epoch % 65536
  let rooms := sortBy (fun (a b : Nat) => decide (a ≤ b)) s.bring.badRooms
  let tiles := sortBy (fun (a b : Nat × Nat) => decide (36 * a.1 + a.2 ≤ 36 * b.1 + b.2))
    (s.bring.badTiles.filter (fun q => !rooms.contains q.1))
  let l := [DefEv.mk 127 63 7 e] ++ rooms.map (fun r => DefEv.mk r 63 6 e) ++ tiles.map (fun q => DefEv.mk q.1 q.2 6 e)
  let s := { s with nv := { s.nv with record := l } }
  let s := (s.buildMap l).showRecord
  let s := (List.range 100).foldl (fun (s : State) r =>
    if (s.backs r).isNone then s.roomOff r else s.setHeaders r (s.mappedTiles r)) s
  -- a room the map brings in again, dark since an earlier pass of the survey, joins the eleventh wave
  let again := (List.range 100).filter (fun r => !s.hole r && (s.backs r).isSome && (s.room r).seq == 0)
  let s := { s with bring := { s.bring with waves := again.map (fun r => (10, r)) } }
  s.post Ev.SURVEY_MODE 0x9 0 none (leBytes 2 rooms.length ++ leBytes 2 tiles.length)

/-- Stage 7 (R188, R501). -/
def State.trainCellar (s : State) : State :=
  (List.range 96).foldl (fun (s : State) c =>
    let s := s.setFld F.CELL_STAT_SELF_REFRESH c 0 0
    if s.bring.out.badCells.contains c then
      let s := s.setFld F.CELL_STAT_TRAINED c 0 0
      let s := if s.fld F.TACK_BRINGUP_FAIL 0 0 = 0 then s.setFld F.TACK_BRINGUP_FAIL 0 0 3 else s
      s.post Ev.CELLAR_TRAIN_FAIL 0x30 c none (leBytes 1 c)
    else s.setFld F.CELL_STAT_TRAINED c 0 1) s

/-- R222: some other live room can be reached from a room. -/
def State.reachable (s : State) (r : Nat) : Bool :=
  s.liveRooms.any (fun q => q != r && (s.pathClear 0 q 20 r || s.pathClear 1 q 20 r || (midRoom s.hole r q).isSome))

/-- The step of some partition that includes a logical room runs. -/
def State.roomBusy (s : State) (lr : Nat) : Bool :=
  s.parts.any (fun e => e.2.stepRuns && e.2.tiles.any (fun t => decide (t / 32 = lr)))

/-- R502: stage 8 of a re-bring-up is that of its room and its links only. -/
def State.stage8Covers (s : State) (a b : Nat) : Bool :=
  s.bring.kind != 3 || a == s.physRoom s.bring.lr || b == s.physRoom s.bring.lr

/-- Stage 8 finds a link that fails training, or an unreachable room: the room to be retired (R501). -/
def State.hallFault (s : State) : Option Nat :=
  match s.bring.out.badLinks.find? (fun q => besides q.1 q.2 && s.stage8Covers q.1 q.2 && s.roomLive q.1 && s.roomLive q.2) with
  | some q => some (max q.1 q.2)
  | none => s.liveRooms.find? (fun r => s.stage8Covers r r && !s.reachable r)

/-- R18, R24, R501, R524: a room stage 8 retires. In a re-bring-up a room other than its own is substituted then only where
its logical room belongs to no running partition; else its retirement waits for the next bring-up boundary, and the link
stays down. (Log 160: DEDUCED.) -/
def State.retireStage8 (s : State) (r : Nat) : State :=
  if s.bring.kind = 3 ∧ r ≠ s.physRoom s.bring.lr ∧ s.roomBusy (s.logRoom r) then
    let bad := s.bring.out.badLinks.filter (fun q => max q.1 q.2 == r)
    let side := fun (a b : Nat) => ((List.range 4).find? (fun d => beside? a d == some b)).getD 0
    let s := bad.foldl (fun (s : State) q => ((s.setLink (4 * q.1 + side q.1 q.2) { s.link (4 * q.1 + side q.1 q.2) with down := true }).setLink
      (4 * q.2 + side q.2 q.1) { s.link (4 * q.2 + side q.2 q.1) with down := true })) s
    { s with
      roomRetire := tput s.roomRetire r 5 0
      bring := { s.bring with out := { s.bring.out with badLinks := s.bring.out.badLinks.filter (fun q => max q.1 q.2 != r) } } }
  else s.replaceRoom r 5

/-- The last order of a bring-up: Bridle links, then READY (R500, R502, R530). (Log 104: DEDUCED.) -/
def State.finishBringup (s : State) : State :=
  let k := s.bring.kind
  let s := if k = 3 then s
    else s.bring.out.ports.foldl (fun (s : State) q => if q.1 < 96 then s.trainPort q.1 q.2.1 q.2.2 else s) s
  let s := { s with bring := { faults := s.bring.faults } }
  if k = 3 then s
  else
    let s := (s.setFld F.TACK_BRINGUP_STAGE 0 0 (if k = 1 then 9 else 6)).setFld F.TACK_BRINGUP_READY 0 0 1
    if k = 1 ∧ s.fld F.PWR_TRIP_SEEN 0 0 = 1 then s.post Ev.PREV_THERMTRIP 0x5 0 none (leBytes 4 (s.reg RG.PWR_TRIP 0 0)) else s

/-- Goes on with a bring-up once no room is powering: self-test, zeroisation, cellar and hallway training, Bridle. A room
replaced on the way returns it to the power waves. -/
def State.bringGo (s : State) : Nat → State
  | 0 => s
  | fuel + 1 =>
    if s.bring.kind = 0 ∨ s.bring.waves ≠ [] ∨ s.anyPowering then s
    else if s.bring.untested ≠ [] then (s.selfTest).bringGo fuel
    else
      let k := s.bring.kind
      let s := if s.surveying then s.endSurvey else s
      if s.bring.waves ≠ [] then s
      else
      let s := if k = 3 then s else s.trainCellar
      -- a re-bring-up trains the links of its room only
      let lr := s.bring.lr
      let mine := fun (e : Nat × HLink) => k != 3 || hallRoom (e.1 / 4) == s.physRoom lr || (beside? (e.1 / 4) (e.1 % 4)) == some (s.physRoom lr)
      let busy := fun (e : Nat × HLink) => k == 3 && e.2.down && s.roomRetire.any (fun q => q.1 == e.1 / 4 ||
        (beside? (e.1 / 4) (e.1 % 4)) == some q.1)
      let s := { s with hall := { s.hall with links := s.hall.links.filter (fun e => !mine e || busy e) } }
      match s.hallFault with
      | some r => (s.retireStage8 r).bringGo fuel
      | none =>
        -- R222: the intermediate rooms are those of this boundary
        let s := { s with hall := { s.hall with holes := (List.range 100).filter s.hole } }
        s.rankSources.finishBringup

/-! ### Power-up of a room (R437-R439) -/

/-- R430: a room has 5 or fewer healthy phases: its tiles go dark, the headers open; its router rail stays up, so that it
forwards as a live room does. -/
def State.tilesDark (s : State) (r : Nat) : State :=
  let s := s.modRoom r (fun x => { x with
    seq := 10
    held := false
    heldUntil := none
    drooped := []
    retry := []
    headers := []
    knocks := []
    hbBack := false
    forcedOp := none
    chg := 0 })
  (s.setFld F.PWR_ROOM_STAT_DARK r 0 1).showRoom r

/-- A room of a wave starts: converter, router rail and the phases that have not failed. One that cannot be powered stays a
hole (R427); one with 5 or fewer healthy phases is powered with its tiles dark (R428, R430). -/
def State.startRoom (s : State) (r : Nat) : State :=
  if !s.canPower r then s.setHole r true
  else
    let s := (s.setReg RG.CLK_ROOM_STAT r 0 0).setHole r false
    let s := s.modRoom r (fun _ => { conv := true, seq := 1, waveAt := s.mono })
    let s := (List.range 12).foldl (fun (s : State) n =>
      if s.fld F.PWR_PHASE_STAT_FAULT r n = 0 then s.setFld F.PWR_PHASE_STAT_HEALTHY r n 1 else s) s
    -- R463: the thermal ceiling is OP4 at bring-up
    let s := ((s.setFld F.REIN_ROOM_STAT_THERM_CEIL r 0 4).setReason 2 r false).setFld F.PWR_ROOM_STAT_FAILED r 0 0
    if phaseLimit (s.healthyPhases r) = none then s.tilesDark r else s.showRoom r

/-- POWER_WAVE_START: the next wave starts 200 µs after the one before, and when that is complete (R436). -/
def execPowerWaveStart (t : Nat) (s : State) : Host.Outcome State Fault Refusal :=
  let s := s.toTime t
  match s.bring.waves with
  | [] => .next s
  | w0 :: ws =>
    let w := ws.foldl (fun n q => min n q.1) w0.1
    let late := match s.bring.waveAt with
      | some a => decide (s.mono < a + 200000)
      | none => false
    if late || s.anyPowering || s.pwr.off then .next s
    else
      let mine := s.bring.waves.filter (fun q => q.1 == w)
      let s := { s with bring := { s.bring with
        waves := s.bring.waves.filter (fun q => q.1 != w)
        waveAt := some s.mono } }
      .next ((mine.foldl (fun (s : State) q => s.startRoom q.2) s).bringGo 200)

/-- A room that has passed its full check is complete; while SHED_N is asserted it runs in the shed stretch (R459). (Log 112:
DEDUCED.) -/
def State.completeRoom (s : State) (r : Nat) : State :=
  let again := (s.room r).recheck
  let s := (s.modRoom r (fun x => { x with seq := 10, recheck := false, retry := [] })).closeHeaders r
  let s := if s.pwr.shed then s.setFld F.REIN_ROOM_STAT_SHED_STRETCH r 0 1 else s
  let s := if again then s else { s with bring := { s.bring with untested := setAdd s.bring.untested r } }
  (s.showRoom r).bringGo 200

/-- Edge neighbours and tie partner of a room. -/
def aroundRoom (r : Nat) : List Nat :=
  let es := (List.range 4).filterMap (beside? r)
  match tiePair r with
  | some (_, o) => setAdd es o
  | none => es

/-- R439: the short check of a room fails: it is isolated, its neighbours hold their stage, and it is failed, reported and
recorded; `drooped` are the rooms whose droop minimum fell below 0.4 V. -/
def State.inrush (s : State) (r peak : Nat) (drooped : List Nat) : State :=
  let stage := (s.room r).seq - 1
  let s := (s.roomOff r).setFld F.PWR_ROOM_STAT_FAILED r 0 1
  let s := (aroundRoom r).foldl (fun (s : State) q =>
    if 1 ≤ (s.room q).seq ∧ (s.room q).seq ≤ 8 then s.modRoom q (fun x => { x with held := true, heldUntil := none }) else s) s
  let s := drooped.foldl (fun (s : State) q =>
    if s.roomLive q ∧ q ≠ r then s.modRoom q (fun x => { x with drooped := setAdd x.drooped r }) else s) s
  let s := { s with bring := { s.bring with faults := setAdd s.bring.faults r } }
  let s := s.post Ev.INRUSH_FAULT 0x11 r none (leBytes 1 r ++ leBytes 1 stage ++ leBytes 2 peak)
  s.replaceRoom r 4

/-- HEADER_STAGE_END: a header stage of a room ends with its short check: core rail in mV, peak core current in 0.1 A
(`drawn.1`); where it fails, `drawn.2` are the live rooms whose droop minimum fell below 0.4 V. (Log 108: DESIGN CHOICE.) -/
def execHeaderStageEnd (room railMv : Nat) (drawn : Nat × List Nat) (t : Nat) (s : State) : Host.Outcome State Fault Refusal :=
  if room < 100 ∧ drawn.1 < 2 ^ 16 ∧ drawn.2.all (fun r => decide (r < 100)) then
    let s := s.toTime t
    let x := s.room room
    if x.seq < 1 ∨ 8 < x.seq ∨ x.held then .next s
    else
      let s := s.setReg RG.PWR_ROOM_AMPS room 0 drawn.1
      if railMv < 200 ∨ 2500 < drawn.1 then .next ((s.inrush room (drawn.1 / 10) drawn.2).bringGo 200)
      else
        let s := s.modRoom room (fun x => { x with seq := x.seq + 1 })
        .next (if x.seq = 8 then s.closeHeaders room else s)
  else .refused .illFormed

/-- INRUSH_SHORT_DETECT: the core current of a room passes 250 A during its header stages or full check.
(Log 109: DEDUCED.) -/
def execInrushShortDetect (room deciamps : Nat) (drooped : List Nat) (t : Nat) (s : State) : Host.Outcome State Fault Refusal :=
  if room < 100 ∧ deciamps < 2 ^ 16 ∧ drooped.all (fun r => decide (r < 100)) then
    let s := s.toTime t
    let x := s.room room
    if x.seq < 1 ∨ 9 < x.seq ∨ deciamps ≤ 2500 then .next s
    else .next (((s.setReg RG.PWR_ROOM_AMPS room 0 deciamps).inrush room (deciamps / 10) drooped).bringGo 200)
  else .refused .illFormed

/-- INRUSH_FAULT_CLEAR: the current of a faulty room has fallen below 1 A: rooms that drooped repeat their full check, and
rooms no other pending fault holds go on 50 µs later. (Log 109: DEDUCED.) -/
def execInrushFaultClear (room t : Nat) (s : State) : Host.Outcome State Fault Refusal :=
  if room < 100 then
    let s := s.toTime t
    if !s.bring.faults.contains room then .next s
    else
      let s := { s with bring := { s.bring with faults := setDel s.bring.faults room } }
      let s := (aroundRoom room).foldl (fun (s : State) q =>
        if (s.room q).held && !s.bring.faults.any (fun f => (aroundRoom f).contains q) then
          s.modRoom q (fun x => { x with heldUntil := some (s.mono + 50000) })
        else s) s
      .next ((List.range 100).foldl (fun (s : State) q =>
        if (s.room q).drooped.contains room then
          s.modRoom q (fun x => { x with drooped := setDel x.drooped room, seq := if x.seq = 10 then 9 else x.seq, recheck := true })
        else s) s)
  else .refused .illFormed

/-- HEADER_STAGE_HOLD_END: 50 µs after the fault cleared a held room repeats its stage from its start. -/
def execHeaderStageHoldEnd (room t : Nat) (s : State) : Host.Outcome State Fault Refusal :=
  if room < 100 then
    let s := s.toTime t
    match (s.room room).heldUntil with
    | some u => if s.mono < u then .next s else .next (s.modRoom room (fun x => { x with held := false, heldUntil := none }))
    | none => .next s
  else .refused .illFormed

/-- ROOM_FULL_CHECK: core rail of a room in mV, and its tiles whose switched rail lies more than 30 mV below it: a failing
tile repeats all stages once and is retired the second time; a room whose rail fails is marked failed (R438). -/
def execRoomFullCheck (room railMv : Nat) (tiles : List Nat) (t : Nat) (s : State) : Host.Outcome State Fault Refusal :=
  if room < 100 ∧ tiles.all (fun q => decide (q < 36)) then
    let s := s.toTime t
    let x := s.room room
    if x.seq ≠ 9 then .next s
    else if railMv + 20 < s.fld F.PWR_ROOM_MV_TARGET_MV room 0 then
      let s := s.setFld F.PWR_ROOM_STAT_FAILED room 0 1
      .next ((s.replaceRoom room 4).bringGo 200)
    else
      let bad := (s.testedTiles room).filter (fun q => tiles.contains q)
      let twice := sortBy (fun (a b : Nat) => decide (a ≤ b)) (bad.filter (fun q => x.retry.contains q))
      let once := bad.filter (fun q => !x.retry.contains q)
      let s := twice.foldl (fun (s : State) q =>
        if s.surveying then { s with bring := { s.bring with badTiles := s.bring.badTiles ++ [(room, q)] } }
        else ((((s.recordEvent room q 4).disarmTile room q).mapEvent [] ⟨room, q, 4, s.nv.epoch % 65536⟩).1.closeHeaders room)) s
      if once ≠ [] then .next (s.modRoom room (fun x => { x with retry := once }))
      else .next (s.completeRoom room)
  else .refused .illFormed

/-! ### Faults of converters and phases, in service or during power-up (R426, R427, R429, R430, R434) -/

/-- R427, R434: a room's converter stops and no tie takes the load: the room is a hole, and so is a partner that it carried. -/
def State.loseSupply (s : State) (r cause : Nat) : State :=
  let s := s.roomHole r cause
  match tiePair r with
  | some (q, other) => if s.tieClosed q ∧ !s.convOk other ∧ (s.room other).seq ≠ 0 then s.roomHole other 0 else s
  | none => s

/-- ROOM_CONVERTER_FAIL: the converter of a physical room fails: its partner takes the load through the tie, or the room
goes dark, with the room whose load it carried through a tie. -/
def execRoomConverterFail (room t : Nat) (s : State) : Host.Outcome State Fault Refusal :=
  if room < 100 then
    let s := s.toTime t
    if !s.convOk room then .next s
    else
      let s := s.setFld F.PWR_ROOM_STAT_CONV_FAIL room 0 1
      match tiePair room with
      | none => .next ((s.loseSupply room 0).bringGo 200)
      | some (q, other) =>
        if s.convOk other then
          let s := ((s.closeTie q).setFld F.PWR_ROOM_STAT_TIED room 0 1).setFld F.PWR_ROOM_STAT_TIED other 0 1
          let s := (s.showRoom room).showRoom other
          .next (s.post Ev.CONV_TIE 0x11 room none (leBytes 1 q ++ leBytes 1 room))
        else .next ((s.loseSupply room 0).bringGo 200)
  else .refused .illFormed

/-- PHASE_FAIL: a regulator phase fails and opens; `fault` is FAULT of R446. With 5 or fewer healthy phases left the tiles of a
powered room go dark. (Log 114: DEDUCED.) -/
def execPhaseFail (room phase fault t : Nat) (s : State) : Host.Outcome State Fault Refusal :=
  if room < 100 ∧ phase < 12 ∧ 1 ≤ fault ∧ fault ≤ 4 then
    let s := s.toTime t
    if s.fld F.PWR_PHASE_STAT_HEALTHY room phase = 0 then .next s
    else
      let s := s.setReg RG.PWR_PHASE_STAT room phase (2 * fault)
      let s := s.post Ev.PHASE_FAIL 0x11 room none (leBytes 1 room ++ leBytes 1 phase ++ leBytes 1 fault)
      let s := s.showRoom room
      if phaseLimit (s.healthyPhases room) = none ∧ (s.room room).seq ≠ 0 ∧ s.fld F.PWR_ROOM_STAT_DARK room 0 = 0 then
        let lr := s.logRoom room
        let s := (s.tilesDark room).stopRoom lr St.ROOM_DARK
        let s := { s.loseRoom lr with roomRetire := tput s.roomRetire room 4 0 }
        .next ((s.post Ev.ROOM_DARK 0x11 room none (leBytes 1 room ++ leBytes 1 1)).bringGo 200)
      else .next s
  else .refused .illFormed

/-- ROOM_OVERCURRENT: the core current of a room in service, in 0.1 A, is above 250 A: its converter stops, and R427 follows.
(Log 127: DEDUCED.) -/
def execRoomOvercurrent (room deciamps t : Nat) (s : State) : Host.Outcome State Fault Refusal :=
  if room < 100 ∧ deciamps < 2 ^ 16 then
    let s := (s.toTime t).setReg RG.PWR_ROOM_AMPS room 0 deciamps
    if deciamps ≤ 2500 ∨ !s.roomLive room then .next s
    else .next ((s.loseSupply room 2).bringGo 200)
  else .refused .illFormed

/-! ### Cold bring-up (R499, R500) -/

/-- What the firmware draws and the Meter finds at a cold bring-up (R365, R461, R473, R530). -/
def State.coldValues (s : State) : State :=
  let n := (Config.random s.free).toNat
  let old := s.nv.inc
  let v := if old = 0 then n % 65535 + 1 else n % 65534 + 1
  let inc := if old ≠ 0 ∧ old ≤ v then v + 1 else v
  let s := { s.setFld F.BRDL_NODE_INC 0 0 inc with
    free := s.free + 1
    nv := { s.nv with inc := inc } }
  let r := (s.nv.rth).getD (s.fld F.REIN_RTH_INIT_UKW 0 0)
  let s := s.setRth ((r : Nat) : Rat)
  let s := ((s.setFld F.MTR_STAT_RUNNING 0 0 1).setFld F.MTR_STAT_CAL_OK 0 0 (b2n s.nv.calOk)).setFld F.MTR_STAT_KEY_OK 0 0 (b2n s.nv.keyOk)
  let s := (s.setFld F.MTR_STAT_HOLDUP_OK 0 0 1).setReg RG.MTR_CAL_ID 0 0 s.nv.calId
  let s := (List.range 50).foldl (fun (s : State) k => s.setReg RG.MTR_COEF 0 k (s.nv.coef.getD k 0)) s
  let s := s.setReg RG.MTR_CERT_LEN 0 0 s.nv.cert.length
  let s := (List.range 512).foldl (fun (s : State) k => s.setReg RG.MTR_CERT_DATA 0 k (fieldAt s.nv.cert (4 * k) 4)) s
  { s with mtr := { s.mtr with fault := !(s.nv.calOk && s.nv.keyOk) } }

/-- Stages 2 to 4 of a cold bring-up, the boot ROM trying slots in `order`. -/
def State.bringCold (s : State) (out : BringOut) (order : List Nat) : State :=
  let s := s.boot order
  if s.recovery then s
  else
    let s := { s with bring := { kind := 1, out := out, startAt := s.mono } }
    let s := s.vote3
    let s := s.setFld F.TACK_BRINGUP_STAGE 0 0 4
    { s with bring := { s.bring with waves := s.planWaves } }

/-- Stage 1: busbars, porch converters and references as they are. -/
def State.powerGood (s : State) (out : BringOut) : State :=
  let s := s.setReg RG.PWR_BUS 0 0 (b2n (decide (46000 < out.busA)) + 2 * b2n (decide (46000 < out.busB)))
  let s := (s.setReg RG.PWR_BUS_MV 0 0 (out.busA + 2 ^ 16 * out.busB)).setFld F.PWR_PORCH_CONV_OK 0 0 255
  let none_ := b2n (!out.refA && !out.refB)
  let s := s.setReg RG.CLK_REF_STAT 0 0 (b2n out.refA + 2 * b2n out.refB + 4 * b2n (!out.refA && out.refB) + 8 * none_ + 16 * none_)
  { s with pwr := { s.pwr with off := false, pwrgd := true, rstLow := false, tripped := false, tripLow := false, addrSel := out.addrSel } }

/-- The environment's part of a bring-up names units that exist. -/
def bringOk (o : BringOut) : Bool :=
  decide (o.busA < 2 ^ 16) && decide (o.busB < 2 ^ 16) && o.badTiles.all (fun q => decide (q.1 < 100) && decide (q.2 < 36)) &&
    o.badCells.all (fun c => decide (c < 96)) && o.badLinks.all (fun q => decide (q.1 < 100) && decide (q.2 < 100)) &&
    o.ports.all (fun q => decide (q.1 < 96)) && decide (o.addrSel < 4)

/-- COLD_BRINGUP: RST_N rises after a reset, or the standby rails reach regulation, with a busbar above 46 V: everything
but what R499 keeps is reset, and the bring-up runs up to its power waves. -/
def execColdBringup (out : BringOut) (t : Nat) (s : State) : Host.Outcome State Fault Refusal :=
  if bringOk out then
    if out.busA ≤ 46000 ∧ out.busB ≤ 46000 then .next (s.toTime t)
    else
      let s := s.toTime t
      let trip := if s.pwr.tripped then s.reg RG.PWR_TRIP 0 0 else 0
      let wall := s.pwr.pwrgd
      let s := (s.coldReset wall).setReg RG.PWR_TRIP 0 0 trip
      let s := (s.powerGood out).coldValues
      .next ((s.bringCold out s.bootOrder).bringGo 200)
  else .refused .illFormed

/-- FW_TRIAL_WATCHDOG: 10 s after power good a trial image has not reached READY: the boot restarts from the other slot
(R511). -/
def execFwTrialWatchdog (t : Nat) (s : State) : Host.Outcome State Fault Refusal :=
  let s := s.toTime t
  if s.fld F.TACK_FW_STAT_TRIAL 0 0 = 0 ∨ s.fld F.TACK_BRINGUP_READY 0 0 = 1 ∨ s.bring.kind ≠ 1 ∨ s.mono < 10 ^ 10 then .next s
  else
    let failed := s.fld F.TACK_FW_STAT_SLOT 0 0
    let out := s.bring.out
    let s := { s.allRoomsOff with nv := { s.nv with trial := false, tried := false, prefer := 1 - failed, epoch := s.nv.epoch - 1 } }
    let s := s.post Ev.FW_TRIAL_FAILED 0x8 0 none (leBytes 1 failed)
    .next ((s.bringCold out [1 - failed, failed]).bringGo 200)

/-! ### Re-bring-up of a room (R18, R502) -/

/-- OPERATOR_ROOM_REBRINGUP: stages 4, 5, 6 and 8 for one logical room, substituted when it is retired or SHORT. -/
def execOperatorRoomRebringup (lr : Nat) (out : BringOut) (t : Nat) (s : State) : Host.Outcome State Fault Refusal :=
  if lr < 96 ∧ bringOk out then
    let s := s.toTime t
    if s.fld F.TACK_BRINGUP_READY 0 0 = 0 ∨ s.bring.kind ≠ 0 ∨ s.fld F.GLB_POWER_STATE_STATE 0 0 ≠ 0 ∨ s.roomBusy lr ∨
        s.fld F.GLB_ROOM_MAP_OUT_OF_SERVICE 0 lr = 1 ∨ s.pwr.off then .next s
    else
      let r := s.physRoom lr
      let cause := tget s.roomRetire r 0
      let s := (s.loseRoom lr).roomOff r
      let s := { s with bring := { kind := 3, lr := lr, out := out, startAt := s.mono }, roomRetire := tdel s.roomRetire r }
      let s := if 0 < cause ∧ cause < 8 then s.recordEvent r 63 cause else s
      let s := if 0 < cause ∨ s.fld F.GLB_ROOM_MAP_SHORT 0 lr = 1 ∨ s.hole r ∨ !s.canPower r then (s.retireRoom r).subRoom lr else s
      if s.fld F.GLB_ROOM_MAP_OUT_OF_SERVICE 0 lr = 1 then .next { s with bring := {} }
      else .next { s with bring := { s.bring with waves := [(s.physRoom lr / 10, s.physRoom lr)] } }
  else .refused .illFormed

end Sys2Proof.Machine
end

