-- ==== Sys2Proof/Machine/Manage.lean ====
section
/-! DEFINITION. The idle states (R1, R548, R549), survey confirmation (R509), firmware updates (R511, R512), the firmware
restart (R518) and the management bus (R561). -/

namespace Sys2Proof.Machine
open Sys2Proof

/-! ### Idle states (R548, R549) -/

/-- R548: a RUN_STEPS, SNAPSHOT, CHECKPOINT, RESTORE or REPLAY is in progress. -/
def State.busyWork (s : State) : Bool :=
  s.host.rings.any (fun e => match e.2.req with
    | some q => [2, 4, 5, 6, 7].contains q.op && q.status.isNone
    | none => false) || s.parts.any (fun e => e.2.stepRuns)

def State.powerState (s : State) : Nat := s.fld F.GLB_POWER_STATE_STATE 0 0

/-- A change of STATE begins. -/
def State.beginChange (s : State) (target : Nat) : State :=
  { s.setFld F.GLB_POWER_STATE_CHANGING 0 0 1 with pwr := { s.pwr with change := some (target, s.mono) } }

/-- Entry into dark: dirty lines written back, harnesses unloaded, rooms off, Bridle ports down; on-wafer contents are lost
(R1, R548). (Log 129: DESIGN CHOICE.) -/
def State.enterDark (s : State) : State :=
  let s := s.usedParts.foldl (fun (s : State) p => s.unload p) s
  let s := (List.range 96).foldl (fun (s : State) b => s.portDown b) s
  let s := s.allRoomsOff
  { s with
    cores := []
    pantry := []
    larder := []
    pantryMark := []
    larderMark := []
    cache := []
    roomStop := []
    hall := { s.hall with flits := [], staged := [], applied := [] } }

/-- The wake of R502 begins. -/
def State.startWake (s : State) (out : BringOut) : State :=
  let s := (((s.setFld F.TACK_BRINGUP_READY 0 0 0).setFld F.TACK_BRINGUP_WAKE 0 0 1).setFld F.TACK_BRINGUP_STAGE 0 0 1)
  let s := { s with bring := { kind := 2, out := out, startAt := s.mono } }
  { s with bring := { s.bring with waves := s.planWaves } }

/-- A request for an idle state, acted on now (R548). (Log 126: DEDUCED.) -/
def State.applyReq (s : State) (req : Nat) (out : BringOut) : State :=
  let from_ := s.powerState
  let st := fun (s : State) (n : Nat) => s.setFld F.GLB_POWER_STATE_REQ_STATUS 0 0 n
  if req = 3 ∨ (from_ = 2 ∧ req = 1) then st s 2
  else if req ≠ 0 ∧ req ≠ from_ ∧ s.busyWork then st s 1
  else
    let s := st s 0
    if req = from_ then s
    else match req with
      | 0 => if from_ = 2 then (s.beginChange 0).startWake out else s.beginChange 0
      | 1 => s.beginChange 1
      | _ => s.enterDark.beginChange 2

/-- A write of GLB_POWER_STATE.REQ: during a change the last request waits for its end. (Log 126: DEDUCED.) -/
def State.opGlbReq (s : State) (req : Nat) (out : BringOut) : State :=
  let s := if s.recovery then s else s.setFld F.GLB_POWER_STATE_REQ 0 0 req
  -- R435: without power the device resumes only through a cold reset
  if s.recovery ∨ s.pwr.off then s
  else if s.pwr.change.isSome then
    if req = 3 then s.setFld F.GLB_POWER_STATE_REQ_STATUS 0 0 2
    else { s.setFld F.GLB_POWER_STATE_REQ_STATUS 0 0 0 with pwr := { s.pwr with queued := some req } }
  else s.applyReq req out

/-- GLB_REQ_READY_IDLE; `out` is what the environment decides of a wake from dark. -/
def execGlbReqReadyIdle (out : BringOut) (t : Nat) (s : State) : Host.Outcome State Fault Refusal :=
  if bringOk out then .next ((s.toTime t).opGlbReq 0 out) else .refused .illFormed

/-- GLB_REQ_RETAIN. -/
def execGlbReqRetain (t : Nat) (s : State) : Host.Outcome State Fault Refusal := .next ((s.toTime t).opGlbReq 1 {})

/-- GLB_REQ_DARK. -/
def execGlbReqDark (t : Nat) (s : State) : Host.Outcome State Fault Refusal := .next ((s.toTime t).opGlbReq 2 {})

/-- Every controller's packages enter or leave self-refresh. -/
def State.selfRefresh (s : State) (on : Bool) : State :=
  (List.range 96).foldl (fun (s : State) c => s.setFld F.CELL_STAT_SELF_REFRESH c 0 (b2n on)) s

/-- A live room goes to OP0 in retention. -/
def State.roomRetain (s : State) (r : Nat) : State :=
  let s := (s.setFld F.CLK_ROOM_STAT_OP r 0 0).setFld F.CLK_ROOM_STAT_OP_TARGET r 0 0
  let s := ((s.setFld F.CLK_ROOM_STAT_SWITCHING r 0 0).setFld F.CLK_ROOM_STAT_RELOCK r 0 0).modRoom r (fun x => { x with chg := 0 })
  { s.showRoom r with roomStop := setDel s.roomStop r }

/-- POWER_STATE_CHANGE_DONE: the change in progress completes; a wake from dark, with READY; then the request that waits
takes effect. -/
def execPowerStateChangeDone (t : Nat) (s : State) : Host.Outcome State Fault Refusal :=
  let s := s.toTime t
  match s.pwr.change with
  | none => .next s
  | some (target, since) =>
    let from_ := s.powerState
    if target = 0 ∧ from_ = 2 ∧ s.fld F.TACK_BRINGUP_READY 0 0 = 0 then .next s
    else
      let s := (s.setFld F.GLB_POWER_STATE_STATE 0 0 target).setFld F.GLB_POWER_STATE_CHANGING 0 0 0
      let s := s.setReg RG.GLB_WAKE_US 0 0 (sat32 ((s.mono - since) / 1000))
      let s := match target with
        | 0 =>
          let s := s.selfRefresh false
          s.liveRooms.foldl (fun (s : State) r => s.issueChange r (min (s.fld F.REIN_ROOM_STAT_ASSIGNED r 0) 4)) s
        | 1 => (s.liveRooms.foldl (fun (s : State) r => s.roomRetain r) s).selfRefresh true
        | _ => s.selfRefresh true
      let q := s.pwr.queued
      let s := { s with pwr := { s.pwr with change := none, queued := none } }
      .next (match q with
        | some r => s.applyReq r {}
        | none => s)

/-- RETAIN_AUTO_WAKE: in retain a Bridle transaction other than PTP waits at `port`, or, with no port, a descriptor of
opcode `op` other than QUERY and FENCE waits on a ring. -/
def execRetainAutoWake (port : Option Nat) (fn ring op t : Nat) (s : State) : Host.Outcome State Fault Refusal :=
  if port.getD 0 < 97 ∧ fn ≤ 512 ∧ ring < 128 then
    let s := s.toTime t
    let due := match port with
      | some b => (s.port b).rx.any (fun q => fieldAt q.2 0 1 != 12)
      | none => s.requesting fn ring && op != 8 && op != 9
    .next (if due then s.autoWake else s)
  else .refused .illFormed

/-! ### Survey and firmware (R509, R511, R512) -/

/-- A write of ID_CTRL with CONFIRM. (Log 110: DEDUCED.) -/
def State.opConfirmSurvey (s : State) : State :=
  if s.fld F.TACK_BRINGUP_SURVEY 0 0 = 0 ∨ s.fld F.TACK_BRINGUP_READY 0 0 = 0 then s
  else
    let l := s.nv.record
    let all := s.nv.efuse ++ l
    let id := fun (f : FlashRec) => (s.idBank.map (fun q => q.2)).getD f.ident
    let fl := fun (f : FlashRec) => { intact := true, ident := id f, events := l.take 4096 }
    let s := { s with nv := { s.nv with
      flashA := fl s.nv.flashA
      flashB := fl s.nv.flashB
      efuse := all.take 2048 } }
    let s := (s.setFld F.TACK_BRINGUP_SURVEY 0 0 0).showRecord
    if all.length ≤ 2048 then s else (s.setFld F.ID_REC_STAT_EFUSE_FULL 0 0 1).post Ev.EFUSE_FULL 0x9 0 none []

/-- SURVEY_CONFIRM. (Log 110: DEDUCED.) -/
def execSurveyConfirm (t : Nat) (s : State) : Host.Outcome State Fault Refusal := .next (s.toTime t).opConfirmSurvey

/-- A write of TACK_FW_CTRL with STAGE: the image `img` is read through port A; while its link is down the read does not
end. (Log 125: DEDUCED.) -/
def State.opFwStage (s : State) (img : Bytes) : State :=
  if !s.linkUp 0 then s.setFld F.TACK_FW_STAT_STAGE_STATUS 0 0 1
  else
    let st := s.fwCheck img
    let s := s.setFld F.TACK_FW_STAT_STAGE_STATUS 0 0 st
    if st ≠ 0 then s
    else
      let k := 1 - s.fld F.TACK_FW_STAT_SLOT 0 0
      { s with nv := { s.nv with
          slotA := if k = 0 then img else s.nv.slotA
          slotB := if k = 0 then s.nv.slotB else img
          staged := some k } }

/-- FW_STAGE. (Log 125: DEDUCED.) -/
def execFwStage (img : Bytes) (t : Nat) (s : State) : Host.Outcome State Fault Refusal := .next ((s.toTime t).opFwStage img)

/-- A write of TACK_FW_CTRL with ARM. -/
def State.opFwArm (s : State) : State :=
  match s.nv.staged with
  | some k => { s with nv := { s.nv with prefer := k, trial := true, tried := false, staged := none } }
  | none => s

/-- FW_ARM. -/
def execFwArm (t : Nat) (s : State) : Host.Outcome State Fault Refusal := .next (s.toTime t).opFwArm

/-- A write of TACK_FW_CTRL with CONFIRM: the running trial is kept and the anti-rollback count raised. -/
def State.opFwConfirm (s : State) : State :=
  if s.fld F.TACK_FW_STAT_TRIAL 0 0 = 0 then s
  else
    let svn := max s.nv.svn (fieldAt (s.fwSlot (s.fld F.TACK_FW_STAT_SLOT 0 0)) 0x0C 4)
    let s := { s with nv := { s.nv with trial := false, tried := false, svn := svn } }
    (s.setFld F.TACK_FW_STAT_TRIAL 0 0 0).setFld F.TACK_FW_STAT_SVN_FUSE 0 0 svn

/-- FW_CONFIRM. -/
def execFwConfirm (t : Nat) (s : State) : Host.Outcome State Fault Refusal := .next (s.toTime t).opFwConfirm

/-- R512: a write of TACK_FW_ABI_SEL. -/
def State.opAbiSel (s : State) (v : Nat) : State :=
  if v < s.fld F.TACK_FW_ABI_RANGE_MIN 0 0 ∨ s.fld F.TACK_FW_ABI_RANGE_MAX 0 0 < v ∨ s.parts.any (fun e => e.2.harn.isSome) then s
  else { s.setReg RG.TACK_FW_ABI_SEL 0 0 v with nv := { s.nv with abiSaved := some v } }

/-- FW_ABI_SEL_WRITE. -/
def execFwAbiSelWrite (v : Nat) (s : State) : Host.Outcome State Fault Refusal :=
  if v < 2 ^ 32 then .next (s.opAbiSel v) else .refused .illFormed

/-- FIRMWARE_RESTART: an uncorrectable error at `addr` of a Tack Room memory; the registers of R516 read 0 until the
firmware runs again. (Log 102: DEDUCED.) -/
def execFirmwareRestart (addr t : Nat) (s : State) : Host.Outcome State Fault Refusal :=
  let s := s.toTime t
  let s := s.logError 11 1 none 0x8 0 (addr % 2 ^ 64)
  .next { s with pwr := { s.pwr with fwDown := some s.mono } }

/-- R500, R518: the firmware boots, for the 300 ms of stage 2. (Log 102: DEDUCED.) -/
def State.fwRestarting (s : State) : Bool := match s.pwr.fwDown with
  | some a => decide (s.mono < a + 300000000)
  | none => false

/-! ### The management bus (R561) -/

/-- The device state sensor: 0 bring-up, 1 ready, 2 survey, 3 recovery, 4 tripped. -/
def State.deviceState (s : State) : Nat :=
  if s.pwr.tripped then 4 else if s.recovery then 3 else if s.fld F.TACK_BRINGUP_READY 0 0 = 0 then 0
  else if s.fld F.TACK_BRINGUP_SURVEY 0 0 = 1 then 2 else 1

/-- A sensor's reading: 0 input power, 1 and 2 busbars, 3-6 inlet, 7 junction, 8-15 fans, 16 effective cap, 17 R_th, 18
device state. (Log 123: PRESUMED.) -/
def State.sensor (s : State) (n : Nat) : Option Int :=
  let nat := fun (x : Nat) => some ((x : Nat) : Int)
  if n = 0 then nat (s.reg RG.MTR_INPUT_MW 0 0 / 1000)
  else if n = 1 then nat (s.fld F.PWR_BUS_MV_A_MV 0 0)
  else if n = 2 then nat (s.fld F.PWR_BUS_MV_B_MV 0 0)
  else if n ≤ 6 then
    let v := bitsOf (s.reg RG.REIN_INLET 0 0) (8 * (n - 3) + 7) (8 * (n - 3))
    if v = 0x80 then none else some (toSigned 8 v)
  else if n = 7 then some (toSigned 8 (s.fld F.REIN_TEMP_TJ_MAX 0 0))
  else if n ≤ 15 then nat (s.fld F.REIN_FAN_RPM_RPM 0 (n - 8))
  else if n = 16 then nat (s.fld F.REIN_EFF_CAP_W 0 0)
  else if n = 17 then nat (s.fld F.REIN_RTH_UKW 0 0)
  else if n = 18 then nat s.deviceState
  else none

/-- MCTP_MESSAGE: a message to a 7-bit SMBus address: `kind` 0 MCTP control, 1 a PLDM reading of a sensor; what is not
offered gets no answer. (Log 123: PRESUMED; 124: DESIGN CHOICE.) -/
def execMctpMessage (addr kind sensor t : Nat) (s : State) : Host.Outcome State Fault Refusal :=
  if addr < 128 then
    let s := s.toTime t
    let say := fun (r : SmbRsp) => ({ s with smb := s.smb ++ [r] } : State)
    if addr ≠ 0x58 + s.pwr.addrSel ∨ !s.pwr.pwrgd then .next s
    else if kind = 0 then .next (say ⟨0, 0, 0⟩)
    else if kind = 1 ∧ !s.recovery ∧ s.fld F.TACK_BRINGUP_STAGE 0 0 ≠ 2 then
      match s.sensor sensor with
      | some v => .next (say ⟨1, sensor, v⟩)
      | none => .next s
    else .next s
  else .refused .illFormed

end Sys2Proof.Machine
end

