-- ==== Sys2Proof/Machine/Regs.lean ====
section
/-! DEFINITION. The register pages as a host sees them: which page an address names (R13, R542-R546), what each word reads,
the words the device derives among them (R536-R551), FREEZE (R538) and reads (R532, R533). -/

namespace Sys2Proof.Machine
open Sys2Proof

/-! ### Pages (R13, R542-R546)

A function is a partition 0-511 for its VF, 512 for the PF of port A, 513 for the PF of port B. A page is its type code and
instance of R542. -/

/-- Pages of a type in the device; 0 for a reserved type. -/
def pagesOf (typ : Nat) : Nat :=
  if 1 ≤ typ ∧ typ ≤ 10 then 1
  else if 0x10 ≤ typ ∧ typ ≤ 0x13 then 100
  else if 0x21 ≤ typ ∧ typ ≤ 0x27 then 512
  else match typ with
    | 0x20 => 375
    | 0x30 => 96
    | 0x31 => 96
    | 0x32 => 1
    | 0x33 => 2
    | 0x34 => 1
    | 0x35 => 1024
    | 0x36 => 4
    | 0x40 => 1
    | 0x41 => 1
    | 0x42 => 1
    | 0x50 => 513
    | 0x51 => 514
    | 0x52 => 512
    | 0x53 => 512
    | 0x54 => 2052
    | _ => 0

/-- R542: the capability of a type; `big` is a unit of 64 GiB packages. -/
def capOf (typ : Nat) (big : Bool) : Nat :=
  match typ with
  | 0x1 => 96
  | 0x2 => 4
  | 0x3 => 375
  | 0x4 => 16
  | 0x5 => 8
  | 0x6 => 2
  | 0x7 => 8
  | 0x8 => 2
  | 0x9 => 2048
  | 0xA => 4096
  | 0x10 => 36
  | 0x11 => 12
  | 0x12 => 4
  | 0x13 => 256
  | 0x20 => 64
  | 0x21 => 3072
  | 0x22 => 1
  | 0x23 => 16
  | 0x24 => 0xC
  | 0x25 => 1024
  | 0x26 => 2
  | 0x27 => 16
  | 0x30 => if big then 64 else 32
  | 0x31 => 400
  | 0x32 => 4096
  | 0x33 => 64
  | 0x34 => 1024
  | 0x35 => 64
  | 0x36 => 24
  | 0x40 => 20000
  | 0x41 => 2
  | 0x42 => 2048
  | 0x50 => 128
  | 0x51 => 65536
  | 0x52 => 512
  | 0x53 => 4
  | 0x54 => 32
  | _ => 0

/-- R543, R544: the page at page number `n` of PF BAR0. Before a cold bring-up has loaded the defect map, every logical room
window names physical room 0, which the reset value of GLB_ROOM_MAP gives. (Log 152: DESIGN CHOICE.) -/
def State.pfPage (s : State) (n : Nat) : Option (Nat × Nat) :=
  if n = 0 then some (1, 0)
  else if n = 1 then some (2, 0)
  else if n = 2 then none
  else if n ≤ 0xA then some (n, 0)
  else if n = 0x10 then some (0x50, 0x200)
  else if n = 0x11 then some (0x51, 0x200)
  else if n = 0x12 then some (0x51, 0x201)
  else if 0x14 ≤ n ∧ n < 0x18 then some (0x54, 0x800 + (n - 0x14))
  else if 0x80 ≤ n ∧ n < 0x80 + 375 then some (0x20, n - 0x80)
  else if 0x200 ≤ n ∧ n < 0x1000 then some (0x20 + n / 0x200, n % 0x200)
  else if 0x1000 ≤ n ∧ n < 0x7000 ∧ n % 256 < 4 then some (0x10 + n % 256, s.physRoom ((n - 0x1000) / 256))
  else if 0x8000 ≤ n ∧ n < 0xE400 ∧ n % 256 < 4 then some (0x10 + n % 256, (n - 0x8000) / 256)
  else if 0xF000 ≤ n ∧ n < 0xF060 then some (0x30, n - 0xF000)
  else if 0xF100 ≤ n ∧ n < 0xF160 then some (0x31, n - 0xF100)
  else if n = 0xF200 then some (0x32, 0)
  else if n = 0xF300 ∨ n = 0xF301 then some (0x33, n - 0xF300)
  else if n = 0xF302 then some (0x34, 0)
  else if 0xF400 ≤ n ∧ n < 0xF800 then some (0x35, n - 0xF400)
  else if 0xF800 ≤ n ∧ n < 0xF804 then some (0x36, n - 0xF800)
  else if 0xFF00 ≤ n ∧ n < 0xFF03 then some (0x40 + (n - 0xFF00), 0)
  else none

/-- R546: the page at page number `n` of the VF BAR0 of partition `p`. -/
def vfPage (p n : Nat) : Option (Nat × Nat) :=
  if n < 4 then some (0x50 + n, p) else if n < 8 then some (0x54, 4 * p + (n - 4)) else none

/-- The page an address of a function names; in recovery only the firmware registers, through port A (R501). -/
def State.pageAt (s : State) (fn addr : Nat) : Option (Nat × Nat) :=
  let q := if fn < 512 then vfPage fn (addr / 4096) else s.pfPage (addr / 4096)
  if s.recovery ∧ (fn ≠ 512 ∨ q ≠ some (8, 0)) then none else q

/-- The partition a page serves (R542). -/
def pagePart (typ inst : Nat) : Option Nat :=
  if 0x21 ≤ typ ∧ typ ≤ 0x27 then some inst
  else if 0x50 ≤ typ ∧ typ ≤ 0x53 then (if inst < 512 then some inst else none)
  else if typ = 0x54 then (if inst < 2048 then some (inst / 4) else none)
  else none

/-- R543: a page of a free partition, other than the one the operator fills to create it (R402). -/
def State.pageFree (s : State) (typ inst : Nat) : Bool :=
  match pagePart typ inst with
  | some p => (s.part p).pstate == .free && typ != 0x27
  | none => false

/-- The ring context of R417 at an offset of a page of type 0x54: function and ring. -/
def ctxRing (inst off : Nat) : Nat × Nat := (inst / 4, inst % 4 * 32 + (off - 0x40) / 32)

/-- R390: a context beyond the allotment of its function. -/
def State.ctxGone (s : State) (typ inst off : Nat) : Bool :=
  typ == 0x54 && decide (0x40 ≤ off) && decide (s.allot (ctxRing inst off).1 ≤ (ctxRing inst off).2)

/-! ### Words the device derives -/

/-- R537: FAULT of BLK_STAT. -/
def State.blkFault (s : State) (typ inst : Nat) : Bool :=
  match typ with
  | 0x11 => s.fld F.PWR_ROOM_STAT_FAILED inst 0 == 1 || s.fld F.PWR_ROOM_STAT_DARK inst 0 == 1
  | 0x30 => s.fld F.CELL_STAT_TRAINED inst 0 == 0 && (s.fld F.TACK_BRINGUP_READY 0 0 == 1 ||
      (s.fld F.TACK_BRINGUP_WAKE 0 0 == 0 && decide (7 < s.fld F.TACK_BRINGUP_STAGE 0 0)))
  | 0x31 => s.fld F.BRDL_PORT_STAT_DEAD inst 0 == 1
  | 0x40 => s.fld F.MTR_STAT_CAL_OK 0 0 == 0 || s.fld F.MTR_STAT_KEY_OK 0 0 == 0
  | _ => false

/-- R541: OWNER. -/
def State.ownerOf (s : State) (typ inst : Nat) : Nat :=
  if typ = 0x35 then if s.fld F.BRDL_RGN_CTRL_VALID inst 0 = 1 then s.fld F.BRDL_RGN_CTRL_PART inst 0 else 0x3FF
  else match pagePart typ inst with
  | some p => if (s.part p).pstate = .live then p else 0x3FF
  | none => 0x3FF

/-- R536: a word of the first 64 bytes of a page. (Log 12: DESIGN CHOICE.) -/
def State.commonWord (s : State) (typ inst off : Nat) : Nat :=
  let c := fun (r : Reg) => s.creg typ inst r
  if off = 0x00 then typ * 65536 + inst
  else if off = 0x04 then 0x100 + (Config.blkMinor typ).toNat
  else if off = 0x08 then pagesOf typ
  else if off = 0x0C then capOf typ (s.fld F.ID_UNIT_ORDER 0 0 == 1)
  else if off = 0x14 then
    b2n (bitOf (c RG.BLK_CTRL) 0) + 4 * b2n (bitOf (c RG.BLK_CTRL) 2) + 8 * b2n (bitOf (c RG.CFG_LOCK) 0) +
      16 * b2n (s.blkFault typ inst)
  else if off = 0x34 then s.ownerOf typ inst
  else (s.regAt typ inst off).toNat

/-- The defect-map vote of bring-up order 3 has loaded the room map (R25-R27, R550). -/
def State.mapLoaded (s : State) : Bool := s.reg RG.GLB_ROOM_MAP 0 0 != 0

/-- R550: the logical room a physical room backs. -/
def State.backed (s : State) (r : Nat) : Option Nat :=
  if s.mapLoaded then
    (List.range 96).find? (fun lr => s.physRoom lr == r && s.fld F.GLB_ROOM_MAP_OUT_OF_SERVICE 0 lr == 0)
  else none

/-- R550: STATE of a room: 0 dark spare, 1 live, 2 retired, 3 live but not backing. (Log 139: DEDUCED.) -/
def State.roomState (s : State) (r : Nat) : Nat :=
  if (s.backed r).isSome then 1
  else if s.bring.kind = 3 ∧ (s.room r).conv then 3
  else match spareRooms.find? (fun q => q.1 == r) with
  | some q => if s.spareFree q.2 then 0 else 2
  | none => 2

/-- R550: ROOM_STAT. (Log 139: DEDUCED.) -/
def State.roomStat (s : State) (r : Nat) : Nat :=
  if s.mapLoaded then
    r % 10 + 16 * (r / 10) + (match s.backed r with
      | some lr => 256 + 512 * lr
      | none => 0) + 65536 * s.roomState r
  else 0

/-- R550: ROOM_TILE_PART of logical tile `t` of logical room `lr`. -/
def State.tilePart (s : State) (lr t : Nat) : Nat :=
  match s.partOfSlice (32 * lr + t) with
  | some p => p + 512 + 1024 * b2n ((s.part p).pstate == .zeroising)
  | none => 0

/-- R134: ROOM_STITCH_STRIKES of logical tile `t` of the logical room behind physical room `r`: 0 to 2 live failures of
each of its arrays; the third has retired the tile (R132). -/
def State.strikeWord (s : State) (r lr t : Nat) : Nat :=
  (List.range 8).foldl (fun (n : Nat) j =>
    n + 4 ^ j * min 2 (tget s.strikes ((36 * r + s.physTile lr t) * 8 + j) []).length) 0

/-- A word of a ROOM page; in a room that backs nothing the map, partition and stitching registers read 0 (R550). -/
def State.roomWord (s : State) (r off : Nat) : Nat :=
  if off = 0xC8 then s.roomStat r
  else if off = 0xC0 ∨ off = 0xC4 then (s.regAt 0x10 r off).toNat
  else match s.backed r with
  | none => 0
  | some lr =>
    if 0x140 ≤ off ∧ off < 0x1C0 then s.strikeWord r lr ((off - 0x140) / 4)
    else if 0x200 ≤ off ∧ off < 0x280 then s.tilePart lr ((off - 0x200) / 4)
    else (s.regAt 0x10 r off).toNat

/-- R551: a word of a porch side page. -/
def State.sideWord (s : State) (sd off : Nat) : Nat :=
  let bits := fun (n : Nat) (f : Nat → Nat) => (List.range n).foldl (fun (a : Nat) i => a + f i) 0
  if off = 0x40 then bits 24 (fun i => s.fld F.CELL_STAT_TRAINED (24 * sd + i) 0 * 2 ^ i)
  else if off = 0x44 then bits 24 (fun i => b2n (s.fld F.BRDL_PORT_STAT_STATE (24 * sd + i) 0 == 2) * 2 ^ i)
  else if off = 0x48 then bits 6 (fun j => s.heatLevel (6 * sd + j) * 4 ^ j)
  else if off = 0x4C then
    bitsOf (s.fld F.PWR_PORCH_CONV_OK 0 0) (2 * sd + 1) (2 * sd) + 4 * b2n (s.sideDown sd)
  else 0

/-- R547: GLB_STAT. (Log 128: DEDUCED.) -/
def State.glbStat (s : State) : Nat :=
  let live := s.parts.filter (fun e => e.2.pstate == .live)
  s.fld F.TACK_BRINGUP_READY 0 0 + 2 * s.fld F.HALL_CFG_SHARED 0 0 + 4 * live.length +
    4096 * b2n (live.any (fun e => e.2.stopped.isSome)) +
    8192 * b2n (live.any (fun e => e.2.shortW.isSome || e.2.shortB.isSome))

/-- The 32 bytes of an error record (R526). -/
def ErrRec.bytes (r : ErrRec) : Bytes :=
  leBytes 4 r.seq ++ leBytes 1 r.kind ++ leBytes 1 r.sev ++ leBytes 2 r.part ++ leBytes 2 r.typ ++ leBytes 2 r.inst ++
    leBytes 2 r.count ++ leBytes 2 0 ++ leBytes 8 r.addr ++ leBytes 8 r.mono

/-- R531: the record ERR_LOG_SEL names, while it is still in the ring. -/
def State.errSel (s : State) : Option ErrRec := s.err.log.find? (fun r => r.seq == s.reg RG.ERR_LOG_SEL 0 0)

/-- R504: a defect event as its 32 bits. -/
def defWord (e : DefEv) : Nat := e.room % 128 + 128 * (e.tile % 64) + 8192 * (e.cause % 8) + 65536 * (e.epoch % 65536)

/-- A request of a kind is in progress on a ring of the partition. (Log 140: DEDUCED.) -/
def State.inProgress (s : State) (p : Nat) (ops : List Nat) : Bool :=
  (List.range 128).any (fun r => match s.req (ringKey p r) with
    | some q => ops.contains q.op && q.status.isNone
    | none => false)

/-- R337: a hold of an open snapshot is in force: a core waits at a PHASE of kind 6, or the boundary waits.
(Log 140: DEDUCED.) -/
def State.snapHolds (s : State) (p : Nat) : Bool :=
  let x := s.part p
  (x.boundaryHeld && x.closed) || (x.long.snap.isSome && x.running && x.cores.any (fun c => match s.atGate c 5 with
    | some (_, w) => x.phaseHeld (bitsOf w 11 4)
    | none => false))

/-- R339: the derived words of a long-run page. -/
def State.longWord (s : State) (p off : Nat) : Nat :=
  let l := (s.part p).long
  let st := (s.regAt 0x26 p off).toNat
  if off = 0x5C then withBits st 2 2 (b2n l.replay.isSome)
  else if off = 0x60 then
    let v0 := (s.judgeSlot p 0).isSome
    let v1 := (s.judgeSlot p 1).isSome
    b2n v0 + 2 * b2n v1 + 4 * b2n (v1 && (!v0 || decide (l.ck0.order < l.ck1.order))) + 8 * b2n l.ck0.stale +
      16 * b2n l.ck1.stale + 32 * b2n (s.inProgress p [5, 6])
  else if off = 0x64 then l.ck0.step % 2 ^ 32
  else if off = 0x68 then l.ck0.step / 2 ^ 32
  else if off = 0x6C then l.ck1.step % 2 ^ 32
  else if off = 0x70 then l.ck1.step / 2 ^ 32
  else if off = 0x74 then withBits st 1 0 (b2n l.snap.isSome + 2 * b2n (s.snapHolds p))
  else st

/-- R497: the derived words of the time page. (Log 93: DEDUCED.) -/
def State.timeWord (s : State) (off : Nat) : Nat :=
  if off = 0x40 then s.mono % 2 ^ 32
  else if off = 0x44 then s.mono / 2 ^ 32 % 2 ^ 32
  else if off = 0x48 then s.tai % 2 ^ 32
  else if off = 0x4C then s.tai / 2 ^ 32 % 2 ^ 32
  else if off = 0x78 then ofSigned 32 (s.time.slew - slewed s.time.slew (s.mono - s.time.mono))
  else (s.regAt 0x41 0 off).toNat

/-- R467: the count of a throttle reason, up to now. -/
def State.thrNow (s : State) (k : Nat) : Nat :=
  (s.countReason k).reg64 RG.REIN_THR_NS_LO RG.REIN_THR_NS_HI 0 k

/-- A word of the block-specific part of a page. (Log 141: DEDUCED.) -/
def State.blockWord (s : State) (typ inst off : Nat) : Nat :=
  let st := (s.regAt typ inst off).toNat
  if typ = 0x1 ∧ off = 0x44 then s.glbStat
  else if typ = 0x7 ∧ 0x100 ≤ off ∧ off < 0x158 then
    let n := s.thrNow ((off - 0x100) / 8)
    if off % 8 = 0 then n % 2 ^ 32 else n / 2 ^ 32
  else if typ = 0x8 then if s.fwRestarting then 0 else st
  else if typ = 0x9 ∧ 0x400 ≤ off then
    (match s.nv.record[(off - 0x400) / 4]? with
      | some e => if 3 ≤ s.fld F.TACK_BRINGUP_STAGE 0 0 ∨ s.fld F.TACK_BRINGUP_READY 0 0 = 1 then defWord e else 0
      | none => 0)
  else if typ = 0xA ∧ off = 0x40 then s.err.count % 2 ^ 32
  else if typ = 0xA ∧ off = 0x48 then b2n s.errSel.isSome
  else if typ = 0xA ∧ 0x60 ≤ off ∧ off < 0x80 then
    (match s.errSel with
      | some r => fieldAt r.bytes (off - 0x60) 4
      | none => 0)
  else if typ = 0x10 then s.roomWord inst off
  else if typ = 0x22 ∧ off = 0x48 then (if (s.part inst).pstate = .live then s.cellCap inst / 2 ^ 20 else 0)
  else if typ = 0x25 ∧ off = 0x48 then s.xgVote inst
  else if typ = 0x25 ∧ off = 0x4C then (s.part inst).step % 2 ^ 32
  else if typ = 0x25 ∧ off = 0x50 then (s.part inst).step / 2 ^ 32
  else if typ = 0x26 then s.longWord inst off
  else if (typ = 0x27 ∧ off = 0x44) ∨ (typ = 0x52 ∧ off = 0x40) then s.partStat inst
  else if typ = 0x52 ∧ off = 0x44 then s.reg RG.MTR_CERT_LEN 0 0
  else if typ = 0x52 ∧ 0x800 ≤ off then s.reg RG.MTR_CERT_DATA 0 ((off - 0x800) / 4)
  else if typ = 0x36 then s.sideWord inst off
  else if typ = 0x41 then s.timeWord off
  else if s.ctxGone typ inst off then 0
  else st

/-- The live value of a word of a page. -/
def State.liveWord (s : State) (typ inst off : Nat) : Nat :=
  if off < 64 then s.commonWord typ inst off
  else if s.pageFree typ inst then 0
  else s.blockWord typ inst off

/-! ### FREEZE (R538) -/

/-- The bits of a word that software writes; FREEZE leaves them live. (Log 131: DEDUCED.) -/
def softBits (typ off : Nat) : Nat :=
  match findRow typ off with
  | some r => r.rw ||| r.rwl ||| r.w1c
  | none => 0

/-- The page holds its updated fields. (Log 131: DEDUCED.) -/
def State.isFrozen (s : State) (typ inst : Nat) : Bool := bitOf (s.creg typ inst RG.BLK_CTRL) 2

/-- A word as a read returns it; BLK_STAT, which tells of FREEZE, stays live. -/
def State.readWord (s : State) (typ inst off : Nat) : Nat :=
  let live := s.liveWord typ inst off
  if s.isFrozen typ inst ∧ off ≠ 0x14 then
    let m := softBits typ off
    (live &&& m) ||| ((tget s.frozen (regKey typ inst off) 0).toNat &&& (0xFFFFFFFF - m))
  else live

/-- Holds every word of a page as it stands. -/
def State.capture (s : State) (typ inst : Nat) : State :=
  { s with frozen := (List.range 1024).foldl (fun (t : Table Word) i =>
      tput t (regKey typ inst (4 * i)) (BitVec.ofNat 32 (s.liveWord typ inst (4 * i))) 0) s.frozen }

/-- Lets the held words of a page go. -/
def State.thaw (s : State) (typ inst : Nat) : State := { s with frozen := tclear s.frozen (regKey typ inst 0) 1024 }

/-! ### Reads (R532, R533) -/

/-- The _LO register of an RO pair that the device updates lies at this offset; its _HI register follows it.
(Log 142: DEDUCED.) -/
def latches (typ off : Nat) : Bool :=
  off == 0x28 || (typ == 0x7 && decide (0x100 ≤ off) && decide (off < 0x158) && off % 8 == 0) ||
  [(0x5, 0x4C), (0x9, 0x40), (0x10, 0xC0), (0x24, 0x48), (0x24, 0x70), (0x25, 0x4C), (0x25, 0x60), (0x26, 0x4C),
    (0x26, 0x64), (0x26, 0x6C), (0x40, 0x4C), (0x40, 0x54), (0x41, 0x40), (0x41, 0x48), (0x52, 0x50)].contains (typ, off)

/-- A 4-byte read of a word: the value, and the latch it sets or releases. (Log 142: DEDUCED.) -/
def State.read4 (s : State) (typ inst off : Nat) : State × Nat :=
  let held := tget s.latch (regKey typ inst off) 0
  if held ≠ 0 then ({ s with latch := tdel s.latch (regKey typ inst off) }, held - 1)
  else
    let v := s.readWord typ inst off
    if latches typ off then
      ({ s with latch := tput s.latch (regKey typ inst (off + 4)) (s.readWord typ inst (off + 4) + 1) 0 }, v)
    else (s, v)

/-- R532: a read of `n` bytes at an address of a function. (Log 144: DESIGN CHOICE.) -/
def State.regRead (s : State) (fn addr n : Nat) : State × Nat :=
  match s.pageAt fn addr with
  | none => (s, 0)
  | some (typ, inst) =>
    let off := addr % 4096
    if addr % n ≠ 0 then (s, 0)
    else if n = 8 then (s, s.readWord typ inst off + 2 ^ 32 * s.readWord typ inst (off + 4))
    else if n = 4 then s.read4 typ inst off
    else (s, s.readWord typ inst (off / 4 * 4) / 2 ^ (8 * (off % 4)) % 2 ^ (8 * n))

/-- Bytes of BAR0 of a function (R385). -/
def barBytes (fn : Nat) : Nat := if fn < 512 then 2 ^ 16 else 2 ^ 28

/-- LO_REGISTER_READ: a register read of 1, 2, 4 or 8 bytes; the value goes to the requester. (Log 89: DESIGN CHOICE.) -/
def execLoRegisterRead (fn addr n t : Nat) (s : State) : Host.Outcome State Fault Refusal :=
  if fn ≤ 513 ∧ addr < barBytes fn ∧ [1, 2, 4, 8].contains n then
    let r := (s.toTime t).regRead fn addr n
    .next { r.1 with host := { r.1.host with reads := r.1.host.reads ++ [r.2] } }
  else .refused .illFormed

end Sys2Proof.Machine
end

