-- ==== Sys2Proof/Machine/RegWrite.lean ====
section
/-! DEFINITION. Register writes (R5, R532, R534, R535, R546): the rows that name one register, and the write of any
register, which acts through the same operations. -/

namespace Sys2Proof.Machine
open Sys2Proof

/-! ### The access types of R5 -/

/-- CFG_LOCK of a page is set. -/
def State.locked (s : State) (typ inst : Nat) : Bool := bitOf (s.creg typ inst RG.CFG_LOCK) 0

/-- The bits of a word that a write takes: RW, and RWL while the page is not locked. (Log 130, 143: DEDUCED.) -/
def State.takes (s : State) (typ inst off : Nat) : Nat :=
  match findRow typ off with
  | some r => r.rw ||| (if s.locked typ inst then 0 else r.rwl)
  | none => 0

/-- R5: a word after a write by access type: `w1c` false for a VF, which writes RW and RWL fields only (R546). -/
def State.plainWrite (s : State) (typ inst off v : Nat) (w1c : Bool) : State :=
  let old := (s.regAt typ inst off).toNat
  let m := s.takes typ inst off
  let c := match findRow typ off with
    | some r => if w1c then r.w1c else 0
    | none => 0
  let new := (old &&& (0xFFFFFFFF - m)) ||| (v &&& m)
  if m = 0 ∧ c = 0 then s else s.setRegAt typ inst off (BitVec.ofNat 32 (new &&& (0xFFFFFFFF - (v &&& c))))

/-- The partition holds a harness. -/
def State.hasHarness (s : State) (p : Nat) : Bool := (s.part p).harn.isSome

/-- A write of a register of type `typ` through the PF; in recovery only the firmware registers are there (R501). -/
def viaPf (typ : Nat) (f : State → State) (s : State) : Host.Outcome State Fault Refusal :=
  .next (if s.recovery ∧ typ ≠ 8 then s else f s)

/-- R543: the partition a page serves is free. (Log 85, 130: DEDUCED.) -/
def State.pageIdle (s : State) (typ inst : Nat) : Bool :=
  match pagePart typ inst with
  | some p => (s.part p).pstate == .free
  | none => false

/-! ### The hallway mode and the slot tables (R237, R238, R382, R409, R420) -/

/-- Shared by HALL_SHARED_WRITE and REGISTER_WRITE: a write of HALL_CFG. -/
def State.opHallCfg (s : State) (v : Nat) : State :=
  let s := s.setFld F.HALL_CFG_COMBINE_EN 0 0 (v / 2 % 2)
  if v % 2 = s.fld F.HALL_CFG_SHARED 0 0 ∨ s.parts.any (fun e => e.2.harn.isSome) ∨
      (v % 2 = 0 ∧ 1 < s.usedParts.length) then s
  else (s.setFld F.HALL_CFG_SHARED 0 0 (v % 2)).bandShort

/-- HALL_SHARED_WRITE: a write of the value `v` to HALL_CFG. -/
def execHallSharedWrite (v : Nat) (s : State) : Host.Outcome State Fault Refusal :=
  if v < 2 ^ 32 then viaPf 0x3 (fun s => s.opHallCfg v) s else .refused .illFormed

/-- The owner of a slot: 512 + partition when owned, else 0. -/
def slotOwner (owned part : Nat) : Nat := if owned = 1 then 512 + part else 0

/-- A slot's owner may not change from or to a partition that holds a harness. (Log 135: DEDUCED.) -/
def State.slotFixed (s : State) (old new : Nat) : Bool :=
  old != new && ((decide (512 ≤ old) && s.hasHarness (old - 512)) || (decide (512 ≤ new) && s.hasHarness (new - 512)))

/-- A write of one slot in bits `[lo + 9:lo]` of element `k` of a slot register. (Log 135: DEDUCED.) -/
def State.writeSlot (s : State) (r : Reg) (inst k lo v : Nat) : State :=
  let w := s.reg r inst k
  let old := slotOwner (bitsOf w (lo + 9) (lo + 9)) (bitsOf w (lo + 8) lo)
  let new := slotOwner (bitsOf v (lo + 9) (lo + 9)) (bitsOf v (lo + 8) lo)
  if s.slotFixed old new then s else s.setReg r inst k (withBits w (lo + 9) lo (bitsOf v (lo + 9) lo))

/-- HALL_SLOT_WRITE: slot `slot` of lane `lane`; the owner comes into force at the senders' next frame boundary. -/
def execHallSlotWrite (lane slot v : Nat) (s : State) : Host.Outcome State Fault Refusal :=
  if lane < 375 ∧ slot < 64 ∧ v < 2 ^ 32 then viaPf 0x20 (fun s => s.writeSlot RG.HALL_SLOT lane slot 0 v) s else .refused .illFormed

/-- A write of a register of two slots, each judged by itself (R409, R420). -/
def State.writeSlots (s : State) (r : Reg) (inst k v : Nat) : State := (s.writeSlot r inst k 0 v).writeSlot r inst k 16 v

/-- R415: a write of a cellar slot register, after which a partition may have slots that a heat level leaves unserved. -/
def State.writeCellSlots (s : State) (k v : Nat) : State := (s.writeSlots RG.PRCH_CELL_SLOT 0 k v).bandShort

/-- PORCH_SLOT_WRITE: kind 0 PRCH_CELL_SLOT[idx], 1 PCIE_SLOT[idx] of port `inst`, 2 BRDL_PORT_SLOT[idx] of port `inst`. -/
def execPorchSlotWrite (kind inst idx v : Nat) (s : State) : Host.Outcome State Fault Refusal :=
  if kind = 0 ∧ inst = 0 ∧ idx < 512 ∧ v < 2 ^ 32 then viaPf 0x34 (fun s => s.writeCellSlots idx v) s
  else if kind = 1 ∧ inst < 2 ∧ idx < 512 ∧ v < 2 ^ 32 then viaPf 0x33 (fun s => s.writeSlots RG.PCIE_SLOT inst idx v) s
  else if kind = 2 ∧ inst < 96 ∧ idx < 64 ∧ v < 2 ^ 32 then viaPf 0x31 (fun s => s.writeSlot RG.BRDL_PORT_SLOT inst idx 0 v) s
  else .refused .illFormed

/-! ### Tags, regions, inline ECC (R207, R381, R383) -/

/-- Shared by BRDL_PART_ALLOT_WRITE and REGISTER_WRITE. -/
def State.opTagAllot (s : State) (p v : Nat) : State :=
  let others := (List.range 512).foldl (fun (n : Nat) q => if q = p then n else n + s.fld F.BRDL_PART_ALLOT_TAGS 0 q) 0
  if 40960 < others + v % 65536 then s else s.setFld F.BRDL_PART_ALLOT_TAGS 0 p (v % 65536)

/-- BRDL_PART_ALLOT_WRITE. -/
def execBrdlPartAllotWrite (part v : Nat) (s : State) : Host.Outcome State Fault Refusal :=
  if part < 512 ∧ v < 2 ^ 32 then viaPf 0x32 (fun s => s.opTagAllot part v) s else .refused .illFormed

/-- R383: the target of a region lies within its partition's larder (R175) or addressable cellar, and its Bridle range
below the ownership offsets. (Log 136: DEDUCED.) -/
def State.regionOk (s : State) (r : Nat) : Bool :=
  let p := s.fld F.BRDL_RGN_CTRL_PART r 0
  let len := s.fld F.BRDL_RGN_LEN_LEN r 0
  let x := s.part p
  let size := if x.pstate ≠ .live then 0
    else if s.fld F.BRDL_RGN_CTRL_SPACE r 0 = 0 then x.tiles.length * (3072 - x.harness.cachePages) * 4096
    else s.cellCap p
  decide (65536 * (s.fld F.BRDL_RGN_TARGET_TARGET r 0 + len) ≤ size) &&
    decide (65536 * (s.fld F.BRDL_RGN_BASE_BASE r 0 + len) ≤ 0xF0000000000)

/-- Shared by BRDL_REGION_VALID_WRITE and REGISTER_WRITE: a write of BRDL_RGN_CTRL; PART holds while VALID is 1.
(Log 136: DEDUCED.) -/
def State.opRegionCtrl (s : State) (r v : Nat) : State :=
  let was := s.fld F.BRDL_RGN_CTRL_VALID r 0
  let part := if was = 1 then s.fld F.BRDL_RGN_CTRL_PART r 0 else bitsOf v 24 16
  let s := s.setReg RG.BRDL_RGN_CTRL r 0 (withBits (v % 64) 24 16 part)
  let s := if was = 0 ∧ v % 2 = 1 ∧ !s.regionOk r then s.setFld F.BRDL_RGN_CTRL_VALID r 0 0 else s
  s.pumpGrants

/-- BRDL_REGION_VALID_WRITE. -/
def execBrdlRegionValidWrite (region v : Nat) (s : State) : Host.Outcome State Fault Refusal :=
  if region < 1024 ∧ v < 2 ^ 32 then viaPf 0x35 (fun s => s.opRegionCtrl region v) s else .refused .illFormed

/-- R207: no burst of a partition's cellar range has been written since its zeroisation. (Log 137: DEDUCED.) -/
def State.cellarFresh (s : State) (p : Nat) : Bool :=
  (trange s.cellar (s.cellBase p) (s.cellLen p)).isEmpty && (trange s.cellKey (s.cellBase p / 64) (s.cellLen p / 64)).isEmpty

/-- Shared by ECC_ON_WRITE and REGISTER_WRITE: a write of CELL_PART_CFG. (Log 137: DEDUCED.) -/
def State.opEccOn (s : State) (p v : Nat) : State :=
  if (s.part p).pstate ≠ .live ∨ s.locked 0x22 p ∨ s.hasHarness p ∨ !s.cellarFresh p then s
  else s.setFld F.CELL_PART_CFG_ECC_ON p 0 (v % 2)

/-- ECC_ON_WRITE. -/
def execEccOnWrite (part v : Nat) (s : State) : Host.Outcome State Fault Refusal :=
  if part < 512 ∧ v < 2 ^ 32 then viaPf 0x22 (fun s => s.opEccOn part v) s else .refused .illFormed

/-! ### Rings (R390, R391, R416, R417) -/

/-- Ring contexts allotted to every function but one. (Log 80: DEDUCED.) -/
def State.allotOthers (s : State) (fn : Nat) : Nat :=
  let ps := (List.range 512).foldl (fun (n : Nat) q => if q = fn then n else n + s.fld F.TACK_PART_RINGS_ALLOT q 0) 0
  if fn = 512 then ps else ps + s.fld F.TACK_PF_RINGS_ALLOT 0 0

/-- Some PF ring is enabled. -/
def State.pfRingOn (s : State) : Bool := (List.range 128).any (fun r => s.rf F.RING_CTX_CFG_EN 512 r == 1)

/-- Shared by RING_ALLOT_WRITE and REGISTER_WRITE: TACK_PART_RINGS of a partition, or TACK_PF_RINGS. (Log 80: DEDUCED.) -/
def State.opAllot (s : State) (fn v : Nat) : State :=
  let n := v % 256
  if 128 < n ∨ 65536 < s.allotOthers fn + n then s
  else if fn = 512 then if s.pfRingOn then s else s.setFld F.TACK_PF_RINGS_ALLOT 0 0 n
  else if (s.part fn).pstate ≠ .free then s
  else s.setFld F.TACK_PART_RINGS_ALLOT fn 0 n

/-- RING_ALLOT_WRITE. -/
def execRingAllotWrite (fn v : Nat) (s : State) : Host.Outcome State Fault Refusal :=
  if fn ≤ 512 ∧ v < 2 ^ 32 then viaPf (if fn = 512 then 8 else 0x27) (fun s => s.opAllot fn v) s else .refused .illFormed

/-- Shared by RING_CTX_ENABLE and REGISTER_WRITE: a write of RING_CTX_CFG; while EN is 1 only EN is taken. -/
def State.opRingCfg (s : State) (fn r v : Nat) : State :=
  if s.allot fn ≤ r then s
  else
    let on := v / 2 ^ 31 % 2
    if s.rf F.RING_CTX_CFG_EN fn r = 1 then (s.setRf F.RING_CTX_CFG_EN fn r on).leaveNow fn
    else
      let s := (s.setRf F.RING_CTX_CFG_LOG2 fn r (v % 32)).setRf F.RING_CTX_CFG_TYPE fn r (bitsOf v 6 5)
      let s := s.setRf F.RING_CTX_CFG_VECTOR fn r (bitsOf v 12 8)
      if on = 0 then s
      else
        let s := (s.setRf F.RING_CTX_CFG_EN fn r 1).setRf F.RING_CTX_CFG_STOPPED fn r 0
        let s := (s.setRf F.RING_CTX_PTR_HEAD fn r 0).setRf F.RING_CTX_PTR_TAIL fn r 0
        s.setRingX (ringKey fn r) { s.ringX (ringKey fn r) with phase := true, lost := 0 }

/-- RING_CTX_ENABLE: a write of RING_CTX_CFG of a ring. -/
def execRingCtxEnable (fn ring v : Nat) (s : State) : Host.Outcome State Fault Refusal :=
  if fn ≤ 512 ∧ ring < 128 ∧ v < 2 ^ 32 then viaPf 0x54 (fun s => s.opRingCfg fn ring v) s else .refused .illFormed

/-- Shared by RING_EVT_ENABLE and REGISTER_WRITE: a write of RING_EVT_CFG of event ring `e`. -/
def State.opEvtCfg (s : State) (e v : Nat) : State :=
  if e < 512 ∧ (s.part e).pstate ≠ .live then s
  else
    let was := s.fld F.RING_EVT_CFG_EN e 0
    let s := s.plainWrite 0x51 e 0x48 v false
    if was = 0 ∧ v / 2 ^ 31 % 2 = 1 then
      let s := (s.setFld F.RING_EVT_HEAD_HEAD e 0 0).setFld F.RING_EVT_TAIL_TAIL e 0 0
      { s with host := { s.host with evs := tput s.host.evs e { tget s.host.evs e {} with phase := true } {} } }
    else s

/-- RING_EVT_ENABLE: event ring of a partition, or 0x200 and 0x201 of the PFs. -/
def execRingEvtEnable (e v : Nat) (s : State) : Host.Outcome State Fault Refusal :=
  if e < 514 ∧ v < 2 ^ 32 then viaPf 0x51 (fun s => s.opEvtCfg e v) s else .refused .illFormed

/-! ### Rein (R457) -/

/-- R457: a cap between 1,000 W and 10,000 W. (Log 122: DEDUCED.) -/
def clampCap (v : Nat) : Nat := max 1000 (min 10000 v)

def State.opOpCap (s : State) (v : Nat) : State := s.setFld F.REIN_OP_CAP_W 0 0 (clampCap (v % 2 ^ 14))
def State.opFacTarget (s : State) (v : Nat) : State := s.setFld F.REIN_FAC_TARGET_W 0 0 (clampCap (v % 2 ^ 14))
/-- SHED_LEVEL is RWL, from 3,000 W to 10,000 W (R457, R469). (Log 122: DEDUCED.) -/
def State.opShedLevel (s : State) (v : Nat) : State :=
  if s.locked 0x7 0 then s else s.setFld F.REIN_SHED_LEVEL_W 0 0 (max 3000 (min 10000 (v % 2 ^ 14)))

/-- REIN_OP_CAP_WRITE. -/
def execReinOpCapWrite (v : Nat) (s : State) : Host.Outcome State Fault Refusal :=
  if v < 2 ^ 32 then viaPf 0x7 (fun s => s.opOpCap v) s else .refused .illFormed

/-- REIN_FAC_TARGET_WRITE. -/
def execReinFacTargetWrite (v : Nat) (s : State) : Host.Outcome State Fault Refusal :=
  if v < 2 ^ 32 then viaPf 0x7 (fun s => s.opFacTarget v) s else .refused .illFormed

/-- REIN_SHED_LEVEL_WRITE. -/
def execReinShedLevelWrite (v : Nat) (s : State) : Host.Outcome State Fault Refusal :=
  if v < 2 ^ 32 then viaPf 0x7 (fun s => s.opShedLevel v) s else .refused .illFormed

/-! ### The journal floor (R316) -/

/-- JOURNAL_FLOOR_WRITE: an 8-byte write of TACK_JRNL_FLOOR. (Log 138: DEDUCED.) -/
def execJournalFloorWrite (part v : Nat) (s : State) : Host.Outcome State Fault Refusal :=
  if part < 512 ∧ v < 2 ^ 64 then
    viaPf 0x26 (fun s => if (s.part part).pstate = .free then s
      else (s.setReg64 RG.TACK_JRNL_FLOOR_LO RG.TACK_JRNL_FLOOR_HI part 0 v).jrnlRelease part) s
  else .refused .illFormed

/-! ### Lock, reset, freeze, Bridle ports (R537, R538, R540) -/

/-- CFG_LOCK_WRITE: a write of CFG_LOCK of a page; a 1 stays. -/
def execCfgLockWrite (typ inst v : Nat) (s : State) : Host.Outcome State Fault Refusal :=
  if inst < pagesOf typ ∧ v < 2 ^ 32 then
    viaPf typ (fun s => if s.pageIdle typ inst ∨ v % 2 = 0 then s else s.setCreg typ inst RG.CFG_LOCK 1) s
  else .refused .illFormed

/-- R542: a soft reset of the page acts now. (Log 132: DEDUCED.) -/
def State.mayReset (s : State) (typ inst : Nat) : Bool :=
  let clean := fun (own part : Fld) =>
    (List.range 64).all (fun i => !(s.fld own inst i == 1 && s.hasHarness (s.fld part inst i)))
  match typ with
  | 0x20 => clean F.HALL_SLOT_OWNED F.HALL_SLOT_PART
  | 0x31 => clean F.BRDL_PORT_SLOT_OWNED F.BRDL_PORT_SLOT_PART
  | 0x35 => true
  | _ => false

/-- Every field of the page at its reset value but LOCK, which only a cold reset clears (R7, R537, R540); a port goes down,
a region's queue of requesters empties. (Log 132: DEDUCED.) -/
def State.opSoftReset (s : State) (typ inst : Nat) : State :=
  if !s.mayReset typ inst then s
  else
    let lock := s.creg typ inst RG.CFG_LOCK
    let s := if typ = 0x31 then s.portDown inst else s
    let s := if typ = 0x35 then s.setOwnQueue inst [] else s
    ((s.thaw typ inst).resetPage typ inst).setCreg typ inst RG.CFG_LOCK lock

/-- SOFT_RESET: a write of BLK_CTRL with SOFT_RESET. -/
def execSoftReset (typ inst : Nat) (s : State) : Host.Outcome State Fault Refusal :=
  if inst < pagesOf typ then viaPf typ (fun s => s.opSoftReset typ inst) s else .refused .illFormed

/-- A bit of BLK_CTRL. -/
def State.setCtrlBit (s : State) (typ inst b : Nat) (on : Bool) : State :=
  s.setCreg typ inst RG.BLK_CTRL (withBits (s.creg typ inst RG.BLK_CTRL) b b (b2n on))

/-- ENABLE of a Bridle port written 0: the port goes down and stays down. -/
def State.opPortDisable (s : State) (port : Nat) : State := (s.setCtrlBit 0x31 port 0 false).portDown port

/-- ENABLE of a Bridle port written 1: the port trains, on a cable of `medium` and `mw` (R350, R567). -/
def State.opPortEnable (s : State) (port medium mw : Nat) : State := (s.setCtrlBit 0x31 port 0 true).trainPort port medium mw

/-- PORT_DISABLE. -/
def execPortDisable (port t : Nat) (s : State) : Host.Outcome State Fault Refusal :=
  if port < 96 then viaPf 0x31 (fun s => (s.toTime t).opPortDisable port) s else .refused .illFormed

/-- PORT_ENABLE. -/
def execPortEnable (port medium mw t : Nat) (s : State) : Host.Outcome State Fault Refusal :=
  if port < 96 then viaPf 0x31 (fun s => (s.toTime t).opPortEnable port medium mw) s else .refused .illFormed

/-- FREEZE of a page written. -/
def State.opFreeze (s : State) (typ inst : Nat) (on : Bool) : State :=
  if on = s.isFrozen typ inst then s
  else if on then (s.capture typ inst).setCtrlBit typ inst 2 true
  else (s.thaw typ inst).setCtrlBit typ inst 2 false

/-- FREEZE_WRITE. -/
def execFreezeWrite (typ inst : Nat) (on : Bool) (t : Nat) (s : State) : Host.Outcome State Fault Refusal :=
  if inst < pagesOf typ then
    let s := s.toTime t
    viaPf typ (fun s => if s.pageIdle typ inst then s else s.opFreeze typ inst on) s
  else .refused .illFormed

/-- A write of BLK_CTRL: ENABLE where it is RW, FREEZE, then a soft reset; a VF writes FREEZE only (R546).
(Log 134: DEDUCED.) -/
def State.opBlkCtrl (s : State) (vf : Bool) (typ inst v : Nat) (env : WriteEnv) : State :=
  let s := if typ ≠ 0x31 then s
    else if bitOf v 0 then s.opPortEnable inst env.medium env.mw else s.opPortDisable inst
  let s := s.opFreeze typ inst (bitOf v 2)
  if bitOf v 1 && !vf then s.opSoftReset typ inst else s

/-! ### The write of any register -/

/-- TACK_FW_CTRL: its bits act in their order (R511). -/
def State.opFwCtrl (s : State) (v : Nat) (env : WriteEnv) : State :=
  let s := if bitOf v 0 then s.opFwStage env.img else s
  let s := if bitOf v 1 then s.opFwArm else s
  if bitOf v 2 then s.opFwConfirm else s

/-- TACK_PART_CTRL: its bits act in their order (R402, R405, R406). (Log 134: DEDUCED.) -/
def State.opPartCtrl (s : State) (p v : Nat) : State :=
  let s := if bitOf v 0 then s.opCreate p else s
  let s := if bitOf v 1 then s.opDestroy p else s
  if bitOf v 2 then s.opMove p else s

/-- R391: a doorbell, ignored where RING_DOORBELL is. -/
def State.opDoorbell (s : State) (fn r v : Nat) : State :=
  match execRingDoorbell fn r (v % 65536) s with
  | .next s' => s'
  | _ => s

/-- R417: BASE and SEQ hold while the ring is enabled. -/
def State.writeCtx (s : State) (inst off v : Nat) : State :=
  let (fn, r) := ctxRing inst off
  let k := (off - 0x40) % 32
  if s.allot fn ≤ r then s
  else if k = 8 then s.opRingCfg fn r v
  else if k = 0x18 ∨ s.rf F.RING_CTX_CFG_EN fn r = 0 then s.plainWrite 0x54 inst off v false
  else s

/-- A write to a word of the block-specific part of a page. -/
def State.blockWrite (s : State) (typ inst off v : Nat) (env : WriteEnv) : State :=
  let plain := s.plainWrite typ inst off v true
  match typ with
  | 0x1 => if off = 0x40 then s.opGlbReq (v % 4) env.out else plain
  | 0x3 => if off = 0x40 then s.opHallCfg v else plain
  | 0x7 =>
    if off = 0x44 then s.opOpCap v else if off = 0x48 then s.opFacTarget v else if off = 0x54 then s.opShedLevel v
    -- R563: a fan of which no pulses are expected is OK
    else if off = 0x74 ∧ v % 2 ^ 16 = 0 then plain.setFld F.REIN_FAN_OK 0 0 255 else plain
  | 0x8 =>
    if off = 0x48 then s.opFwCtrl v env else if off = 0x54 then s.opAbiSel v else if off = 0x5C then s.opAllot 512 v else plain
  | 0x9 => if off = 0x58 ∧ v % 2 = 1 then s.opConfirmSurvey else plain
  | 0x10 => if off = 0x100 ∧ (s.backed inst).isNone then s else plain
  | 0x20 => if 0x40 ≤ off ∧ off < 0x140 then s.writeSlot RG.HALL_SLOT inst ((off - 0x40) / 4) 0 v else plain
  | 0x22 => if off = 0x40 then s.opEccOn inst v else plain
  | 0x26 => if off = 0x54 ∨ off = 0x58 then plain.jrnlRelease inst else plain
  | 0x27 =>
    if off = 0x40 then s.opPartCtrl inst v
    else if off = 0x4C then s.opAllot inst v
    else if (off = 0x48 ∨ (0x200 ≤ off ∧ off < 0x380)) ∧ (s.part inst).pstate ≠ .free then s
    else plain
  | 0x31 => if 0x100 ≤ off ∧ off < 0x200 then s.writeSlot RG.BRDL_PORT_SLOT inst ((off - 0x100) / 4) 0 v else plain
  | 0x32 => if 0x800 ≤ off then s.opTagAllot ((off - 0x800) / 4) v else plain
  | 0x33 => if 0x100 ≤ off ∧ off < 0x900 then s.writeSlots RG.PCIE_SLOT inst ((off - 0x100) / 4) v else plain
  | 0x34 => if 0x100 ≤ off ∧ off < 0x900 then s.writeCellSlots ((off - 0x100) / 4) v else plain
  | 0x35 =>
    if off = 0x40 then s.opRegionCtrl inst v
    else if 0x44 ≤ off ∧ off ≤ 0x4C ∧ s.fld F.BRDL_RGN_CTRL_VALID inst 0 = 1 then s
    else plain.pumpGrants
  | 0x40 => if off = 0x64 ∧ bitOf v 18 then plain.opResend (v % 2 ^ 18) else plain
  | 0x41 =>
    if off = 0x60 then s.opSetYmd v else if off = 0x64 then s.opSetHms v else if off = 0x68 then s.opSetNs v
    else if off = 0x6C then s.opSetCtrl (bitOf v 0) (bitOf v 1) else plain
  | 0x50 =>
    if 0x40 ≤ off ∧ off < 0x240 then s.opDoorbell inst ((off - 0x40) / 4) v else plain
  | 0x51 => if off = 0x48 then s.opEvtCfg inst v else plain
  | 0x54 => if 0x40 ≤ off ∧ off < 0x440 then s.writeCtx inst off v else plain
  | _ => plain

/-- R546: the pages of a VF are its own from creation to destruction. -/
def State.pageShut (s : State) (typ inst : Nat) : Bool :=
  s.pageFree typ inst || (match pagePart typ inst with
    | some p => decide (0x50 ≤ typ) && (s.part p).pstate != .live
    | none => false)

/-- A 4-byte write to a page. (Log 85: DEDUCED.) -/
def State.writeWord (s : State) (vf : Bool) (typ inst off v : Nat) (env : WriteEnv) : State :=
  if s.pageShut typ inst then s
  else if off < 0x40 ∧ s.pageIdle typ inst then s
  else if off = 0x10 then s.opBlkCtrl vf typ inst v env
  else if off = 0x30 then if v % 2 = 1 then s.setCreg typ inst RG.CFG_LOCK 1 else s
  else if off < 0x40 then s.plainWrite typ inst off v (!vf)
  else s.blockWrite typ inst off v env

/-- R532, R534: a write of `n` bytes at an address of a function. Two adjacent registers written at once are both stored
before what the write starts acts: the upper word goes first, but for TIME_SET_NS and the command above it.
(Log 133: DEDUCED.) -/
def State.regWrite (s : State) (fn addr n v : Nat) (env : WriteEnv) : State :=
  match s.pageAt fn addr with
  | none => s
  | some (typ, inst) =>
    let off := addr % 4096
    let vf := decide (fn < 512)
    if addr % n ≠ 0 then s
    else if n = 4 then s.writeWord vf typ inst off (v % 2 ^ 32) env
    else if n = 8 then
      let lo := v % 2 ^ 32
      let hi := v / 2 ^ 32 % 2 ^ 32
      if typ = 0x41 ∧ off = 0x68 then (s.writeWord vf typ inst off lo env).writeWord vf typ inst (off + 4) hi env
      else (s.writeWord vf typ inst (off + 4) hi env).writeWord vf typ inst off lo env
    else s

/-- REGISTER_WRITE: a write of 1, 2, 4 or 8 bytes by a function. (Log 89: DESIGN CHOICE.) -/
def execRegisterWrite (fn addr n v : Nat) (env : WriteEnv) (t : Nat) (s : State) : Host.Outcome State Fault Refusal :=
  if fn ≤ 513 ∧ addr < barBytes fn ∧ [1, 2, 4, 8].contains n ∧ bringOk env.out then
    .next ((s.toTime t).regWrite fn addr n v env)
  else .refused .illFormed

end Sys2Proof.Machine
end

