-- ==== Sys2Proof/Machine/Dispatch.lean ====
section
/-! DEFINITION. Every command and the meaning it has: one arm per constructor of Instr, one direct call each. -/

namespace Sys2Proof.Machine
open Sys2Proof

def exec (i : Instr) (s : State) : Host.Outcome State Fault Refusal :=
  match i with
  | .arraySlotIssue core arr det => Sys2Proof.Machine.execArraySlotIssue core arr det s
  | .mac core arr faults => Sys2Proof.Machine.execMac core arr faults s
  | .mac3 core arr faults => Sys2Proof.Machine.execMac3 core arr faults s
  | .minplus core arr => Sys2Proof.Machine.execMinplus core arr s
  | .maxplus core arr => Sys2Proof.Machine.execMaxplus core arr s
  | .l1 core arr => Sys2Proof.Machine.execL1 core arr s
  | .l2sq core arr => Sys2Proof.Machine.execL2sq core arr s
  | .cmpcount core arr => Sys2Proof.Machine.execCmpcount core arr s
  | .ham core arr => Sys2Proof.Machine.execHam core arr s
  | .arrayDrain core arr quarter => Sys2Proof.Machine.execArrayDrain core arr quarter s
  | .shadowWriteoutDone core arr => Sys2Proof.Machine.execShadowWriteoutDone core arr s
  | .vld core det => Sys2Proof.Machine.execVld core det s
  | .vst core => Sys2Proof.Machine.execVst core s
  | .vadd core => Sys2Proof.Machine.execVadd core s
  | .vsub core => Sys2Proof.Machine.execVsub core s
  | .vmul core => Sys2Proof.Machine.execVmul core s
  | .vfma core => Sys2Proof.Machine.execVfma core s
  | .vmin core => Sys2Proof.Machine.execVmin core s
  | .vmax core => Sys2Proof.Machine.execVmax core s
  | .vabs core => Sys2Proof.Machine.execVabs core s
  | .vneg core => Sys2Proof.Machine.execVneg core s
  | .vcmp core => Sys2Proof.Machine.execVcmp core s
  | .vsel core => Sys2Proof.Machine.execVsel core s
  | .vexp2 core => Sys2Proof.Machine.execVexp2 core s
  | .vlog2 core => Sys2Proof.Machine.execVlog2 core s
  | .vrcp core => Sys2Proof.Machine.execVrcp core s
  | .vrsqrt core => Sys2Proof.Machine.execVrsqrt core s
  | .vrsum core => Sys2Proof.Machine.execVrsum core s
  | .vrmax core => Sys2Proof.Machine.execVrmax core s
  | .vbcast core => Sys2Proof.Machine.execVbcast core s
  | .vlds core det => Sys2Proof.Machine.execVlds core det s
  | .vlda core det => Sys2Proof.Machine.execVlda core det s
  | .vsts core => Sys2Proof.Machine.execVsts core s
  | .vstr core => Sys2Proof.Machine.execVstr core s
  | .scalarLoadReturn core vd => Sys2Proof.Machine.execScalarLoadReturn core vd s
  | .quant core => Sys2Proof.Machine.execQuant core s
  | .dequant core => Sys2Proof.Machine.execDequant core s
  | .wstore core => Sys2Proof.Machine.execWstore core s
  | .aadd core => Sys2Proof.Machine.execAadd core s
  | .fadd core => Sys2Proof.Machine.execFadd core s
  | .smin core => Sys2Proof.Machine.execSmin core s
  | .smax core => Sys2Proof.Machine.execSmax core s
  | .umin core => Sys2Proof.Machine.execUmin core s
  | .umax core => Sys2Proof.Machine.execUmax core s
  | .fmin core => Sys2Proof.Machine.execFmin core s
  | .fmax core => Sys2Proof.Machine.execFmax core s
  | .cas core => Sys2Proof.Machine.execCas core s
  | .fenceSt core => Sys2Proof.Machine.execFenceSt core s
  | .fenceFull core => Sys2Proof.Machine.execFenceFull core s
  | .fenceFabric core => Sys2Proof.Machine.execFenceFabric core s
  | .fabricFenceProbe core t => Sys2Proof.Machine.execFabricFenceProbe core t s
  | .barrier core => Sys2Proof.Machine.execBarrier core s
  | .barrierComplete part group => Sys2Proof.Machine.execBarrierComplete part group s
  | .safepoint core cycles t => Sys2Proof.Machine.execSafepoint core cycles t s
  | .knock core => Sys2Proof.Machine.execKnock core s
  | .knockHoldEnd room ended => Sys2Proof.Machine.execKnockHoldEnd room ended s
  | .phase core => Sys2Proof.Machine.execPhase core s
  | .loop core => Sys2Proof.Machine.execLoop core s
  | .waitv core sev off => Sys2Proof.Machine.execWaitv core sev off s
  | .endStep core det => Sys2Proof.Machine.execEndStep core det s
  | .copyLinear core => Sys2Proof.Machine.execCopyLinear core s
  | .copyStrided core => Sys2Proof.Machine.execCopyStrided core s
  | .copyGather core => Sys2Proof.Machine.execCopyGather core s
  | .copyScatter core => Sys2Proof.Machine.execCopyScatter core s
  | .copyTable core => Sys2Proof.Machine.execCopyTable core s
  | .copyReduce core => Sys2Proof.Machine.execCopyReduce core s
  | .copyWait core => Sys2Proof.Machine.execCopyWait core s
  | .copyUnitMove core slot unit ext det link t => Sys2Proof.Machine.execCopyUnitMove core slot unit ext det link t s
  | .copyComplete core slot => Sys2Proof.Machine.execCopyComplete core slot s
  | .flitForward id hop => Sys2Proof.Machine.execFlitForward id hop s
  | .hallSlotFrameBoundary lane => Sys2Proof.Machine.execHallSlotFrameBoundary lane s
  | .flitArrive id crcBad host det t => Sys2Proof.Machine.execFlitArrive id crcBad host det t s
  | .reduceWriteArrive id det => Sys2Proof.Machine.execReduceWriteArrive id det s
  | .hallLinkRetrainEnd room side ok t => Sys2Proof.Machine.execHallLinkRetrainEnd room side ok t s
  | .cellarAccess ctrl det link => Sys2Proof.Machine.execCellarAccess ctrl det link s
  | .cellarMr4Poll pkg mr4 range t => Sys2Proof.Machine.execCellarMr4Poll pkg mr4 range t s
  | .attemptStart part t => Sys2Proof.Machine.execAttemptStart part t s
  | .attemptClose part t => Sys2Proof.Machine.execAttemptClose part t s
  | .finalVote part t => Sys2Proof.Machine.execFinalVote part t s
  | .quiesceDone part => Sys2Proof.Machine.execQuiesceDone part s
  | .migrationDone moved => Sys2Proof.Machine.execMigrationDone moved s
  | .currierOrtho part job fails => Sys2Proof.Machine.execCurrierOrtho part job fails s
  | .kronStats part job fails => Sys2Proof.Machine.execKronStats part job fails s
  | .kronRoot part job fails => Sys2Proof.Machine.execKronRoot part job fails s
  | .kronApply part job fails => Sys2Proof.Machine.execKronApply part job fails s
  | .gradcheck part job => Sys2Proof.Machine.execGradcheck part job s
  | .pack part job => Sys2Proof.Machine.execPack part job s
  | .unpack part job => Sys2Proof.Machine.execUnpack part job s
  | .unpackChunkDecode part job => Sys2Proof.Machine.execUnpackChunkDecode part job s
  | .currierJobDone part job => Sys2Proof.Machine.execCurrierJobDone part job s
  | .xgMessageReceive part t => Sys2Proof.Machine.execXgMessageReceive part t s
  | .exchangeStallTimeout part t => Sys2Proof.Machine.execExchangeStallTimeout part t s
  | .brdlRead port det t => Sys2Proof.Machine.execBrdlRead port det t s
  | .brdlWrite port met => Sys2Proof.Machine.execBrdlWrite port met s
  | .brdlFence port t => Sys2Proof.Machine.execBrdlFence port t s
  | .brdlExchange port t => Sys2Proof.Machine.execBrdlExchange port t s
  | .atomicAdd port met => Sys2Proof.Machine.execAtomicAdd port met s
  | .atomicMin port met => Sys2Proof.Machine.execAtomicMin port met s
  | .atomicMax port met => Sys2Proof.Machine.execAtomicMax port met s
  | .atomicCas port met => Sys2Proof.Machine.execAtomicCas port met s
  | .ownReq port t => Sys2Proof.Machine.execOwnReq port t s
  | .ownGrant port t => Sys2Proof.Machine.execOwnGrant port t s
  | .ownRelease port t => Sys2Proof.Machine.execOwnRelease port t s
  | .ptp port err t => Sys2Proof.Machine.execPtp port err t s
  | .readRsp port t => Sys2Proof.Machine.execReadRsp port t s
  | .writeAck port t => Sys2Proof.Machine.execWriteAck port t s
  | .fenceRsp port t => Sys2Proof.Machine.execFenceRsp port t s
  | .exchangeAck port t => Sys2Proof.Machine.execExchangeAck port t s
  | .atomicRsp port t => Sys2Proof.Machine.execAtomicRsp port t s
  | .ownAck port t => Sys2Proof.Machine.execOwnAck port t s
  | .grantAck port t => Sys2Proof.Machine.execGrantAck port t s
  | .releaseAck port t => Sys2Proof.Machine.execReleaseAck port t s
  | .txnHeldRetry tag t => Sys2Proof.Machine.execTxnHeldRetry tag t s
  | .txnAttemptTimeout tag t => Sys2Proof.Machine.execTxnAttemptTimeout tag t s
  | .txnLifetimeExpiry tag t => Sys2Proof.Machine.execTxnLifetimeExpiry tag t s
  | .linkPacketReceive port pkt marked t => Sys2Proof.Machine.execLinkPacketReceive port pkt marked t s
  | .linkAck port pkt t => Sys2Proof.Machine.execLinkAck port pkt t s
  | .linkNak port pkt t => Sys2Proof.Machine.execLinkNak port pkt t s
  | .linkCredit port pkt t => Sys2Proof.Machine.execLinkCredit port pkt t s
  | .linkAckDelayExpiry port t => Sys2Proof.Machine.execLinkAckDelayExpiry port t s
  | .linkReplayTimeout port t => Sys2Proof.Machine.execLinkReplayTimeout port t s
  | .linkRetrainComplete port peerE t => Sys2Proof.Machine.execLinkRetrainComplete port peerE t s
  | .linkDown port t => Sys2Proof.Machine.execLinkDown port t s
  | .portLinkUp port medium mw t => Sys2Proof.Machine.execPortLinkUp port medium mw t s
  | .bridleStartDelayEnd t => Sys2Proof.Machine.execBridleStartDelayEnd t s
  | .ringDoorbell fn ring val => Sys2Proof.Machine.execRingDoorbell fn ring val s
  | .descriptorFetch fn ring desc t => Sys2Proof.Machine.execDescriptorFetch fn ring desc t s
  | .arbiterDecision port slot => Sys2Proof.Machine.execArbiterDecision port slot s
  | .loadHarness part ring img img2 t => Sys2Proof.Machine.execLoadHarness part ring img img2 t s
  | .runSteps part ring t => Sys2Proof.Machine.execRunSteps part ring t s
  | .hostCopy part ring read t => Sys2Proof.Machine.execHostCopy part ring read t s
  | .snapshot part ring ext t => Sys2Proof.Machine.execSnapshot part ring ext t s
  | .snapshotDone part t => Sys2Proof.Machine.execSnapshotDone part t s
  | .checkpoint part ring ext t => Sys2Proof.Machine.execCheckpoint part ring ext t s
  | .restore part ring ext img t => Sys2Proof.Machine.execRestore part ring ext img t s
  | .replay part ring ext jbytes t => Sys2Proof.Machine.execReplay part ring ext jbytes t s
  | .queryStatus fn ring t => Sys2Proof.Machine.execQueryStatus fn ring t s
  | .queryTime fn ring t => Sys2Proof.Machine.execQueryTime fn ring t s
  | .hostFence fn ring t => Sys2Proof.Machine.execHostFence fn ring t s
  | .completionRecordWrite fn ring t => Sys2Proof.Machine.execCompletionRecordWrite fn ring t s
  | .receiptSign t => Sys2Proof.Machine.execReceiptSign t s
  | .signBudgetTick t => Sys2Proof.Machine.execSignBudgetTick t s
  | .functionLevelReset fn t => Sys2Proof.Machine.execFunctionLevelReset fn t s
  | .perstN port us t => Sys2Proof.Machine.execPerstN port us t s
  | .pcieLinkChange port rate width flit t => Sys2Proof.Machine.execPcieLinkChange port rate width flit t s
  | .hostWindowTimeout kind a b t => Sys2Proof.Machine.execHostWindowTimeout kind a b t s
  | .partCreate part t => Sys2Proof.Machine.execPartCreate part t s
  | .partDestroy part t => Sys2Proof.Machine.execPartDestroy part t s
  | .partMove part t => Sys2Proof.Machine.execPartMove part t s
  | .partZeroised part t => Sys2Proof.Machine.execPartZeroised part t s
  | .operatorRoomRebringup lr out t => Sys2Proof.Machine.execOperatorRoomRebringup lr out t s
  | .glbReqReadyIdle out t => Sys2Proof.Machine.execGlbReqReadyIdle out t s
  | .glbReqRetain t => Sys2Proof.Machine.execGlbReqRetain t s
  | .glbReqDark t => Sys2Proof.Machine.execGlbReqDark t s
  | .powerStateChangeDone t => Sys2Proof.Machine.execPowerStateChangeDone t s
  | .retainAutoWake port fn ring op t => Sys2Proof.Machine.execRetainAutoWake port fn ring op t s
  | .busbarChange aMv bMv t => Sys2Proof.Machine.execBusbarChange aMv bMv t s
  | .busUndervoltage t => Sys2Proof.Machine.execBusUndervoltage t s
  | .porchConverterFail conv t => Sys2Proof.Machine.execPorchConverterFail conv t s
  | .roomConverterFail room t => Sys2Proof.Machine.execRoomConverterFail room t s
  | .phaseFail room phase fault t => Sys2Proof.Machine.execPhaseFail room phase fault t s
  | .roomOvercurrent room deciamps t => Sys2Proof.Machine.execRoomOvercurrent room deciamps t s
  | .droopStretchStart room mv t => Sys2Proof.Machine.execDroopStretchStart room mv t s
  | .droopStretchEnd room mv cycles t => Sys2Proof.Machine.execDroopStretchEnd room mv cycles t s
  | .thermtrip room t => Sys2Proof.Machine.execThermtrip room t s
  | .shedAssert t => Sys2Proof.Machine.execShedAssert t s
  | .shedRelease t => Sys2Proof.Machine.execShedRelease t s
  | .neighbourTempSkew a ta b tb t => Sys2Proof.Machine.execNeighbourTempSkew a ta b tb t s
  | .powerWaveStart t => Sys2Proof.Machine.execPowerWaveStart t s
  | .headerStageEnd room railMv drawn t => Sys2Proof.Machine.execHeaderStageEnd room railMv drawn t s
  | .roomFullCheck room railMv tiles t => Sys2Proof.Machine.execRoomFullCheck room railMv tiles t s
  | .inrushShortDetect room deciamps drooped t => Sys2Proof.Machine.execInrushShortDetect room deciamps drooped t s
  | .inrushFaultClear room t => Sys2Proof.Machine.execInrushFaultClear room t s
  | .headerStageHoldEnd room t => Sys2Proof.Machine.execHeaderStageHoldEnd room t s
  | .refclkLoss input t => Sys2Proof.Machine.execRefclkLoss input t s
  | .refclkReturn input t => Sys2Proof.Machine.execRefclkReturn input t s
  | .roomRefLoss room t => Sys2Proof.Machine.execRoomRefLoss room t s
  | .holdoverCap room t => Sys2Proof.Machine.execHoldoverCap room t s
  | .roomStopped room t => Sys2Proof.Machine.execRoomStopped room t s
  | .clockSwitchDone room t => Sys2Proof.Machine.execClockSwitchDone room t s
  | .voltageRampDone room t => Sys2Proof.Machine.execVoltageRampDone room t s
  | .reinDecision seen inputMw t => Sys2Proof.Machine.execReinDecision seen inputMw t s
  | .inletPoll a b c d t => Sys2Proof.Machine.execInletPoll a b c d t s
  | .rthEstimate calm meanMw t => Sys2Proof.Machine.execRthEstimate calm meanMw t s
  | .thermalCeilingRaise room t => Sys2Proof.Machine.execThermalCeilingRaise room t s
  | .fanDutyUpdate seen => Sys2Proof.Machine.execFanDutyUpdate seen s
  | .fanFail fan rpm t => Sys2Proof.Machine.execFanFail fan rpm t s
  | .throttleEnd k room t => Sys2Proof.Machine.execThrottleEnd k room t s
  | .meterInterval input rooms counts t => Sys2Proof.Machine.execMeterInterval input rooms counts t s
  | .ledgerResend day => Sys2Proof.Machine.execLedgerResend day s
  | .meterIntegrityFault cal key => Sys2Proof.Machine.execMeterIntegrityFault cal key s
  | .standbyFail t => Sys2Proof.Machine.execStandbyFail t s
  | .epochRoll t => Sys2Proof.Machine.execEpochRoll t s
  | .timeSetGo t => Sys2Proof.Machine.execTimeSetGo t s
  | .timeSetAtPps t => Sys2Proof.Machine.execTimeSetAtPps t s
  | .ppsEdge falling t => Sys2Proof.Machine.execPpsEdge falling t s
  | .timeSetYmdWrite v => Sys2Proof.Machine.execTimeSetYmdWrite v s
  | .timeSetHmsWrite v => Sys2Proof.Machine.execTimeSetHmsWrite v s
  | .timeSetNsWrite v => Sys2Proof.Machine.execTimeSetNsWrite v s
  | .utcOffsetChange t => Sys2Proof.Machine.execUtcOffsetChange t s
  | .wallTimeUnsyncTimeout t => Sys2Proof.Machine.execWallTimeUnsyncTimeout t s
  | .coldBringup out t => Sys2Proof.Machine.execColdBringup out t s
  | .resetAssert t => Sys2Proof.Machine.execResetAssert t s
  | .surveyConfirm t => Sys2Proof.Machine.execSurveyConfirm t s
  | .fwStage img t => Sys2Proof.Machine.execFwStage img t s
  | .fwArm t => Sys2Proof.Machine.execFwArm t s
  | .fwConfirm t => Sys2Proof.Machine.execFwConfirm t s
  | .fwTrialWatchdog t => Sys2Proof.Machine.execFwTrialWatchdog t s
  | .fwAbiSelWrite v => Sys2Proof.Machine.execFwAbiSelWrite v s
  | .mctpMessage addr kind sensor t => Sys2Proof.Machine.execMctpMessage addr kind sensor t s
  | .hallSharedWrite v => Sys2Proof.Machine.execHallSharedWrite v s
  | .hallSlotWrite lane slot v => Sys2Proof.Machine.execHallSlotWrite lane slot v s
  | .porchSlotWrite kind inst idx v => Sys2Proof.Machine.execPorchSlotWrite kind inst idx v s
  | .brdlPartAllotWrite part v => Sys2Proof.Machine.execBrdlPartAllotWrite part v s
  | .brdlRegionValidWrite region v => Sys2Proof.Machine.execBrdlRegionValidWrite region v s
  | .eccOnWrite part v => Sys2Proof.Machine.execEccOnWrite part v s
  | .ringAllotWrite fn v => Sys2Proof.Machine.execRingAllotWrite fn v s
  | .ringCtxEnable fn ring v => Sys2Proof.Machine.execRingCtxEnable fn ring v s
  | .ringEvtEnable e v => Sys2Proof.Machine.execRingEvtEnable e v s
  | .reinOpCapWrite v => Sys2Proof.Machine.execReinOpCapWrite v s
  | .reinFacTargetWrite v => Sys2Proof.Machine.execReinFacTargetWrite v s
  | .reinShedLevelWrite v => Sys2Proof.Machine.execReinShedLevelWrite v s
  | .journalFloorWrite part v => Sys2Proof.Machine.execJournalFloorWrite part v s
  | .cfgLockWrite typ inst v => Sys2Proof.Machine.execCfgLockWrite typ inst v s
  | .softReset typ inst => Sys2Proof.Machine.execSoftReset typ inst s
  | .portDisable port t => Sys2Proof.Machine.execPortDisable port t s
  | .portEnable port medium mw t => Sys2Proof.Machine.execPortEnable port medium mw t s
  | .freezeWrite typ inst on t => Sys2Proof.Machine.execFreezeWrite typ inst on t s
  | .loRegisterRead fn addr n t => Sys2Proof.Machine.execLoRegisterRead fn addr n t s
  | .registerWrite fn addr n v env t => Sys2Proof.Machine.execRegisterWrite fn addr n v env t s
  | .roomRefLock room rank t => Sys2Proof.Machine.execRoomRefLock room rank t s
  | .cableSupplyOverload conn t => Sys2Proof.Machine.execCableSupplyOverload conn t s
  | .rthFlashSave t => Sys2Proof.Machine.execRthFlashSave t s
  | .wallTimeSlewDone t => Sys2Proof.Machine.execWallTimeSlewDone t s
  | .fanOk fan rpm t => Sys2Proof.Machine.execFanOk fan rpm t s
  | .firmwareRestart addr t => Sys2Proof.Machine.execFirmwareRestart addr t s

end Sys2Proof.Machine
end

