-- ==== Sys2Proof/WellFormed.lean ====
section
/-! DEFINITION. Well-formed commands: every operand names a unit the device has, in the range the spec gives. -/

namespace Sys2Proof
open Sys2Proof.Machine

/-- A command names units that exist. -/
def Instr.wf (i : Instr) : Bool :=
  match i with
  | .arraySlotIssue core arr _ => decide (core < 12288 ∧ arr < 2)
  | .mac core arr _ => decide (core < 12288 ∧ arr < 2)
  | .mac3 core arr _ => decide (core < 12288 ∧ arr < 2)
  | .minplus core arr => decide (core < 12288 ∧ arr < 2)
  | .maxplus core arr => decide (core < 12288 ∧ arr < 2)
  | .l1 core arr => decide (core < 12288 ∧ arr < 2)
  | .l2sq core arr => decide (core < 12288 ∧ arr < 2)
  | .cmpcount core arr => decide (core < 12288 ∧ arr < 2)
  | .ham core arr => decide (core < 12288 ∧ arr < 2)
  | .arrayDrain core arr quarter => decide (core < 12288 ∧ arr < 2 ∧ quarter < 5)
  | .shadowWriteoutDone core arr => decide (core < 12288 ∧ arr < 2)
  | .vld core _ => decide (core < 12288)
  | .vst core => decide (core < 12288)
  | .vadd core => decide (core < 12288)
  | .vsub core => decide (core < 12288)
  | .vmul core => decide (core < 12288)
  | .vfma core => decide (core < 12288)
  | .vmin core => decide (core < 12288)
  | .vmax core => decide (core < 12288)
  | .vabs core => decide (core < 12288)
  | .vneg core => decide (core < 12288)
  | .vcmp core => decide (core < 12288)
  | .vsel core => decide (core < 12288)
  | .vexp2 core => decide (core < 12288)
  | .vlog2 core => decide (core < 12288)
  | .vrcp core => decide (core < 12288)
  | .vrsqrt core => decide (core < 12288)
  | .vrsum core => decide (core < 12288)
  | .vrmax core => decide (core < 12288)
  | .vbcast core => decide (core < 12288)
  | .vlds core _ => decide (core < 12288)
  | .vlda core _ => decide (core < 12288)
  | .vsts core => decide (core < 12288)
  | .vstr core => decide (core < 12288)
  | .scalarLoadReturn core vd => decide (core < 12288 ∧ vd < 32)
  | .quant core => decide (core < 12288)
  | .dequant core => decide (core < 12288)
  | .wstore core => decide (core < 12288)
  | .aadd core => decide (core < 12288)
  | .fadd core => decide (core < 12288)
  | .smin core => decide (core < 12288)
  | .smax core => decide (core < 12288)
  | .umin core => decide (core < 12288)
  | .umax core => decide (core < 12288)
  | .fmin core => decide (core < 12288)
  | .fmax core => decide (core < 12288)
  | .cas core => decide (core < 12288)
  | .fenceSt core => decide (core < 12288)
  | .fenceFull core => decide (core < 12288)
  | .fenceFabric core => decide (core < 12288)
  | .fabricFenceProbe core _ => decide (core < 12288)
  | .barrier core => decide (core < 12288)
  | .barrierComplete part group => decide (part < 512 ∧ group < 256)
  | .safepoint core _ _ => decide (core < 12288)
  | .knock core => decide (core < 12288)
  | .knockHoldEnd room _ => decide (room < 100)
  | .phase core => decide (core < 12288)
  | .loop core => decide (core < 12288)
  | .waitv core _ _ => decide (core < 12288)
  | .endStep core _ => decide (core < 12288)
  | .copyLinear core => decide (core < 12288)
  | .copyStrided core => decide (core < 12288)
  | .copyGather core => decide (core < 12288)
  | .copyScatter core => decide (core < 12288)
  | .copyTable core => decide (core < 12288)
  | .copyReduce core => decide (core < 12288)
  | .copyWait core => decide (core < 12288)
  | .copyUnitMove core slot _ _ _ _ _ => decide (core < 12288 ∧ slot < 48)
  | .copyComplete core slot => decide (core < 12288 ∧ slot < 48)
  | .flitForward _ hop => decide (hop.2 < 64)
  | .hallSlotFrameBoundary lane => decide (lane < 375)
  | .flitArrive _ _ _ _ _ => true
  | .reduceWriteArrive _ _ => true
  | .hallLinkRetrainEnd room side _ _ => decide ((if 200 ≤ room then room - 200 else room) < 100 ∧ side < 4)
  | .cellarAccess ctrl _ _ => decide (ctrl < 96)
  | .cellarMr4Poll pkg mr4 range _ => decide (pkg < 192 ∧ mr4 < 32 ∧ range < 4)
  | .attemptStart part _ => decide (part < 512)
  | .attemptClose part _ => decide (part < 512)
  | .finalVote part _ => decide (part < 512)
  | .quiesceDone part => decide (part < 512)
  | .migrationDone moved => decide (moved.1 < 512)
  | .currierOrtho part _ _ => decide (part < 512)
  | .kronStats part _ _ => decide (part < 512)
  | .kronRoot part _ _ => decide (part < 512)
  | .kronApply part _ _ => decide (part < 512)
  | .gradcheck part _ => decide (part < 512)
  | .pack part _ => decide (part < 512)
  | .unpack part _ => decide (part < 512)
  | .unpackChunkDecode part _ => decide (part < 512)
  | .currierJobDone part _ => decide (part < 512)
  | .xgMessageReceive part _ => decide (part < 512)
  | .exchangeStallTimeout part _ => decide (part < 512)
  | .brdlRead port _ _ => decide (port < 97)
  | .brdlWrite port _ => decide (port < 97)
  | .brdlFence port _ => decide (port < 97)
  | .brdlExchange port _ => decide (port < 97)
  | .atomicAdd port _ => decide (port < 97)
  | .atomicMin port _ => decide (port < 97)
  | .atomicMax port _ => decide (port < 97)
  | .atomicCas port _ => decide (port < 97)
  | .ownReq port _ => decide (port < 97)
  | .ownGrant port _ => decide (port < 97)
  | .ownRelease port _ => decide (port < 97)
  | .ptp port err _ => decide (port < 97 ∧ err ≤ 16)
  | .readRsp port _ => decide (port < 97)
  | .writeAck port _ => decide (port < 97)
  | .fenceRsp port _ => decide (port < 97)
  | .exchangeAck port _ => decide (port < 97)
  | .atomicRsp port _ => decide (port < 97)
  | .ownAck port _ => decide (port < 97)
  | .grantAck port _ => decide (port < 97)
  | .releaseAck port _ => decide (port < 97)
  | .txnHeldRetry tag _ => decide (tag < 65536)
  | .txnAttemptTimeout tag _ => decide (tag < 65536)
  | .txnLifetimeExpiry tag _ => decide (tag < 65536)
  | .linkPacketReceive port _ _ _ => decide (port < 96)
  | .linkAck port _ _ => decide (port < 96)
  | .linkNak port _ _ => decide (port < 96)
  | .linkCredit port _ _ => decide (port < 96)
  | .linkAckDelayExpiry port _ => decide (port < 96)
  | .linkReplayTimeout port _ => decide (port < 96)
  | .linkRetrainComplete port peerE _ => decide (port < 96 ∧ peerE < 4096)
  | .linkDown port _ => decide (port < 96)
  | .portLinkUp port _ _ _ => decide (port < 96)
  | .bridleStartDelayEnd _ => true
  | .ringDoorbell fn ring val => decide (fn ≤ 512 ∧ ring < 128 ∧ val < 65536)
  | .descriptorFetch fn ring _ _ => decide (fn ≤ 512 ∧ ring < 128)
  | .arbiterDecision port slot => decide (port < 2 ∧ slot < 1024)
  | .loadHarness part ring _ _ _ => decide (part < 512 ∧ ring < 128)
  | .runSteps part ring _ => decide (part < 512 ∧ ring < 128)
  | .hostCopy part ring _ _ => decide (part < 512 ∧ ring < 128)
  | .snapshot part ring _ _ => decide (part < 512 ∧ ring < 128)
  | .snapshotDone part _ => decide (part < 512)
  | .checkpoint part ring _ _ => decide (part < 512 ∧ ring < 128)
  | .restore part ring _ _ _ => decide (part < 512 ∧ ring < 128)
  | .replay part ring _ _ _ => decide (part < 512 ∧ ring < 128)
  | .queryStatus fn ring _ => decide (fn ≤ 512 ∧ ring < 128)
  | .queryTime fn ring _ => decide (fn ≤ 512 ∧ ring < 128)
  | .hostFence fn ring _ => decide (fn ≤ 512 ∧ ring < 128)
  | .completionRecordWrite fn ring _ => decide (fn ≤ 512 ∧ ring < 128)
  | .receiptSign _ => true
  | .signBudgetTick _ => true
  | .functionLevelReset fn _ => decide (fn < 514)
  | .perstN port _ _ => decide (port < 2)
  | .pcieLinkChange port rate width flit _ => decide (port < 2 ∧ rate ≤ 6 ∧ width ≤ 16 ∧ flit < 2 ∧ (rate = 0 ∨ 1 ≤ width))
  | .hostWindowTimeout kind a b _ => decide ((kind = 0 ∧ a < 12288 ∧ b < 48) ∨ kind = 1 ∨ (kind = 2 ∧ a < 512 ∧ b < 128))
  | .partCreate part _ => decide (part < 512)
  | .partDestroy part _ => decide (part < 512)
  | .partMove part _ => decide (part < 512)
  | .partZeroised part _ => decide (part < 512)
  | .operatorRoomRebringup lr out _ => decide (lr < 96 ∧ bringOk out)
  | .glbReqReadyIdle out _ => decide (bringOk out)
  | .glbReqRetain _ => true
  | .glbReqDark _ => true
  | .powerStateChangeDone _ => true
  | .retainAutoWake port fn ring _ _ => decide (port.getD 0 < 97 ∧ fn ≤ 512 ∧ ring < 128)
  | .busbarChange aMv bMv _ => decide (aMv < 2 ^ 16 ∧ bMv < 2 ^ 16)
  | .busUndervoltage _ => true
  | .porchConverterFail conv _ => decide (conv < 8)
  | .roomConverterFail room _ => decide (room < 100)
  | .phaseFail room ph fault _ => decide (room < 100 ∧ ph < 12 ∧ 1 ≤ fault ∧ fault ≤ 4)
  | .roomOvercurrent room deciamps _ => decide (room < 100 ∧ deciamps < 2 ^ 16)
  | .droopStretchStart room mv _ => decide (room < 100 ∧ mv < 1024)
  | .droopStretchEnd room mv _ _ => decide (room < 100 ∧ mv < 1024)
  | .thermtrip room _ => decide (room.getD 0 < 100)
  | .shedAssert _ => true
  | .shedRelease _ => true
  | .neighbourTempSkew a ta b tb _ => decide (a < 100 ∧ b < 100 ∧ ta < 128 ∧ tb < 128 ∧ besides a b)
  | .powerWaveStart _ => true
  | .headerStageEnd room _ drawn _ => decide (room < 100 ∧ drawn.1 < 2 ^ 16 ∧ drawn.2.all (fun r => decide (r < 100)))
  | .roomFullCheck room _ tiles _ => decide (room < 100 ∧ tiles.all (fun q => decide (q < 36)))
  | .inrushShortDetect room deciamps drooped _ => decide (room < 100 ∧ deciamps < 2 ^ 16 ∧ drooped.all (fun r => decide (r < 100)))
  | .inrushFaultClear room _ => decide (room < 100)
  | .headerStageHoldEnd room _ => decide (room < 100)
  | .refclkLoss input _ => decide (input < 2)
  | .refclkReturn input _ => decide (input < 2)
  | .roomRefLoss room _ => decide (room < 100)
  | .holdoverCap room _ => decide (room < 100)
  | .roomStopped room _ => decide (room < 100)
  | .clockSwitchDone room _ => decide (room < 100)
  | .voltageRampDone room _ => decide (room < 100)
  | .reinDecision seen _ _ => decide (seen.1.all (fun q => decide (q.1 < 100)) ∧ seen.2.all (fun q => decide (q.1 < 100) &&
      decide (q.2.1 < 1024) && decide (q.2.2.1 < 2 ^ 16) && q.2.2.2.all (fun a => decide (a < 256))))
  | .inletPoll _ _ _ _ _ => true
  | .rthEstimate _ _ _ => true
  | .thermalCeilingRaise room _ => decide (room < 100)
  | .fanDutyUpdate seen => decide (seen.1.all (fun v => decide (v < 2 ^ 16)))
  | .fanFail fan rpm _ => decide (fan < 8 ∧ rpm < 2 ^ 16)
  | .throttleEnd k room _ => decide (k < 11 ∧ (room < 100 ∨ room = devScope))
  | .meterInterval _ _ _ _ => true
  | .ledgerResend day => decide (day < 2 ^ 18)
  | .meterIntegrityFault _ _ => true
  | .standbyFail _ => true
  | .epochRoll _ => true
  | .timeSetGo _ => true
  | .timeSetAtPps _ => true
  | .ppsEdge _ _ => true
  | .timeSetYmdWrite v => decide (v < 2 ^ 32)
  | .timeSetHmsWrite v => decide (v < 2 ^ 32)
  | .timeSetNsWrite v => decide (v < 2 ^ 32)
  | .utcOffsetChange _ => true
  | .wallTimeUnsyncTimeout _ => true
  | .coldBringup out _ => decide (bringOk out)
  | .resetAssert _ => true
  | .surveyConfirm _ => true
  | .fwStage _ _ => true
  | .fwArm _ => true
  | .fwConfirm _ => true
  | .fwTrialWatchdog _ => true
  | .fwAbiSelWrite v => decide (v < 2 ^ 32)
  | .mctpMessage addr _ _ _ => decide (addr < 128)
  | .hallSharedWrite v => decide (v < 2 ^ 32)
  | .hallSlotWrite lane slot v => decide (lane < 375 ∧ slot < 64 ∧ v < 2 ^ 32)
  | .porchSlotWrite kind inst idx v => decide (v < 2 ^ 32 ∧ ((kind = 0 ∧ inst = 0 ∧ idx < 512) ∨ (kind = 1 ∧ inst < 2 ∧ idx < 512) ∨ (kind = 2 ∧ inst < 96 ∧ idx < 64)))
  | .brdlPartAllotWrite part v => decide (part < 512 ∧ v < 2 ^ 32)
  | .brdlRegionValidWrite region v => decide (region < 1024 ∧ v < 2 ^ 32)
  | .eccOnWrite part v => decide (part < 512 ∧ v < 2 ^ 32)
  | .ringAllotWrite fn v => decide (fn ≤ 512 ∧ v < 2 ^ 32)
  | .ringCtxEnable fn ring v => decide (fn ≤ 512 ∧ ring < 128 ∧ v < 2 ^ 32)
  | .ringEvtEnable e v => decide (e < 514 ∧ v < 2 ^ 32)
  | .reinOpCapWrite v => decide (v < 2 ^ 32)
  | .reinFacTargetWrite v => decide (v < 2 ^ 32)
  | .reinShedLevelWrite v => decide (v < 2 ^ 32)
  | .journalFloorWrite part v => decide (part < 512 ∧ v < 2 ^ 64)
  | .cfgLockWrite typ inst v => decide (inst < pagesOf typ ∧ v < 2 ^ 32)
  | .softReset typ inst => decide (inst < pagesOf typ)
  | .portDisable port _ => decide (port < 96)
  | .portEnable port _ _ _ => decide (port < 96)
  | .freezeWrite typ inst _ _ => decide (inst < pagesOf typ)
  | .loRegisterRead fn addr n _ => decide (fn ≤ 513 ∧ addr < barBytes fn ∧ [1, 2, 4, 8].contains n)
  | .registerWrite fn addr n _ env _ => decide (fn ≤ 513 ∧ addr < barBytes fn ∧ [1, 2, 4, 8].contains n ∧ bringOk env.out)
  | .roomRefLock room rank _ => decide (room < 100 ∧ rank < 4)
  | .cableSupplyOverload conn _ => decide (conn < 24)
  | .rthFlashSave _ => true
  | .wallTimeSlewDone _ => true
  | .fanOk fan rpm _ => decide (fan < 8 ∧ rpm < 2 ^ 16)
  | .firmwareRestart _ _ => true

end Sys2Proof
end

