-- ==== Sys2Proof/Safety.lean ====
section
/-! DEFINITION. What claims call a sound state: memories and tables in their canonical form. -/

namespace Sys2Proof.Machine
open Sys2Proof

/-- The canonical form of a byte memory: addresses strictly rising, no entry equal to the 0 that an unlisted byte reads.
(Log 9: DESIGN CHOICE.) -/
def Memory.wf (m : List Host.Cell) : Bool := tableWf (fun _ => (0 : Byte)) m

/-- Every byte memory of the device is in canonical form. -/
def State.memOk (s : State) : Bool := Memory.wf s.pantry && Memory.wf s.larder && Memory.wf s.cellar

/-- Every key at or above `lo`, strictly rising. -/
def keysFrom {α : Type} (lo : Nat) (t : Table α) : Bool :=
  match t with
  | [] => true
  | (k, _) :: rest => decide (lo ≤ k) && keysFrom (k + 1) rest

/-- A table lists no key twice: its keys rise strictly. -/
def keysRise {α : Type} (t : Table α) : Bool := keysFrom 0 t

/-- The tables of registers, cores and partitions, and every core's vector lanes, list no key twice. -/
def State.tablesOk (s : State) : Bool :=
  keysRise s.regs && keysRise s.cores && keysRise s.parts && s.cores.all (fun e => keysRise e.2.vr)

/-- The state as every step leaves it: memories canonical, no table listing a key twice. -/
def State.canon (s : State) : Bool := s.memOk && s.tablesOk

/-- `t` is `s` but for core `c`. -/
def State.OnlyCore (s t : State) (c : Nat) : Prop :=
  t = { s with cores := t.cores } ∧ ∀ d, d ≠ c → t.core d = s.core d

/-- `y` is `x` but for its place in the program and the orderings that a fence puts in force. -/
def CoreSt.SamePlace (x y : CoreSt) : Prop :=
  y = { x with pc := y.pc, slotPos := y.slotPos, gate := y.gate, need := y.need }

/-- `t` is `s` but for register `vd` of core `c`, whose lane `l` holds `f l`, and for the core's place in its program. -/
def State.LanesSet (s t : State) (c vd : Nat) (f : Nat → Word) : Prop :=
  s.OnlyCore t c ∧ (∀ l, l < 64 → (t.core c).lane vd l = f l) ∧
    (∀ r l, l < 64 → r ≠ vd → (t.core c).lane r l = (s.core c).lane r l) ∧
    (s.core c).SamePlace { t.core c with vr := (s.core c).vr }

/-- Every register word of `t` is that of `s` but the one at `off` of page `inst` of type `typ`. -/
def State.SameRegsBut (s t : State) (typ inst off : Nat) : Prop :=
  ∀ ty i o, regKey ty i o ≠ regKey typ inst off → t.regAt ty i o = s.regAt ty i o

/-- `t` is `s` but for one register word. -/
def State.OnlyWord (s t : State) (typ inst off : Nat) : Prop :=
  t = { s with regs := t.regs } ∧ s.SameRegsBut t typ inst off

/-- `t` is `s` but for the word of element `k` of register `r` of page `inst`, which is `w`. -/
def State.RegSet (s t : State) (r : Reg) (inst k w : Nat) : Prop :=
  s.OnlyWord t r.typ inst (r.offAt k) ∧ t.reg r inst k = w

/-- `t` is `s` but for a field, which holds `v`. -/
def State.FieldSet (s t : State) (f : Fld) (inst k v : Nat) : Prop :=
  s.RegSet t f.reg inst k (withBits (s.reg f.reg inst k) f.hi f.lo v)

end Sys2Proof.Machine
end

