-- ==== Sys2Proof/Certificates/Slice0/Obligations.lean ====
section
/-! DEFINITION. The statements for the provers. -/

open Sys2Proof Sys2Proof.Machine

/-! ## The block: its queue of commands -/

/-- One step takes the front command and runs it on the state with the queue's rest. (Log 1: DESIGN CHOICE.) -/
def Obligations.StepRunsFront : Prop :=
  ∀ (c : Instr) (rest : List Instr) (s : State),
    step { s with pending := c :: rest } = exec c { s with pending := rest }

/-! ## The vector unit -/

/-- R144: VADD, VSUB, VMUL, VMIN, VMAX and VCMP write `f (VA lane) (VB lane)` to every lane of VD, for every lane of any
registers, and change nothing else but the core's place in its program. -/
def Claims.VectorBinaryLanes : Prop :=
  ∀ (core p : Nat) (v : VSlot) (s : State), core < 12288 → s.canon = true →
    let a := fun l => (s.core core).lane v.va l
    let b := fun l => (s.core core).lane v.vb l
    (s.vecSlot core 0x03 = some (p, v) →
      ∃ t, exec (.vadd core) s = .next t ∧ s.LanesSet t core v.vd (fun l => fl ((f32 (a l)).add (f32 (b l))))) ∧
    (s.vecSlot core 0x04 = some (p, v) →
      ∃ t, exec (.vsub core) s = .next t ∧ s.LanesSet t core v.vd (fun l => fl ((f32 (a l)).add (f32 (b l)).negate))) ∧
    (s.vecSlot core 0x05 = some (p, v) →
      ∃ t, exec (.vmul core) s = .next t ∧ s.LanesSet t core v.vd (fun l => fl ((f32 (a l)).mul (f32 (b l))))) ∧
    (s.vecSlot core 0x07 = some (p, v) →
      ∃ t, exec (.vmin core) s = .next t ∧ s.LanesSet t core v.vd (fun l => fmin (a l) (b l))) ∧
    (s.vecSlot core 0x08 = some (p, v) →
      ∃ t, exec (.vmax core) s = .next t ∧ s.LanesSet t core v.vd (fun l => fmax (a l) (b l))) ∧
    (s.vecSlot core 0x0B = some (p, v) →
      ∃ t, exec (.vcmp core) s = .next t ∧
        s.LanesSet t core v.vd (fun l => if relHolds (v.imm % 4) (f32 (a l)) (f32 (b l)) then 0x3F800000 else 0))

/-- R144, R145: VABS, VNEG, VEXP2, VLOG2, VRCP and VRSQRT write their function of VA's lane to every lane of VD, VFMA one
rounding of VA × VB + VC, VSEL picks by VC's lane, and nothing else changes but the core's place in its program. -/
def Claims.VectorLanes : Prop :=
  ∀ (core p : Nat) (v : VSlot) (s : State), core < 12288 → s.canon = true →
    let a := fun l => (s.core core).lane v.va l
    let b := fun l => (s.core core).lane v.vb l
    let c := fun l => (s.core core).lane v.vc l
    (s.vecSlot core 0x06 = some (p, v) →
      ∃ t, exec (.vfma core) s = .next t ∧
        s.LanesSet t core v.vd (fun l => fl (((f32 (a l)).mul (f32 (b l))).add (f32 (c l))))) ∧
    (s.vecSlot core 0x09 = some (p, v) →
      ∃ t, exec (.vabs core) s = .next t ∧ s.LanesSet t core v.vd (fun l => fl (f32 (a l)).abs)) ∧
    (s.vecSlot core 0x0A = some (p, v) →
      ∃ t, exec (.vneg core) s = .next t ∧ s.LanesSet t core v.vd (fun l => fl (f32 (a l)).negate)) ∧
    (s.vecSlot core 0x0C = some (p, v) →
      ∃ t, exec (.vsel core) s = .next t ∧
        s.LanesSet t core v.vd (fun l => if c l = 0 ∨ c l = 0x80000000 then b l else a l)) ∧
    (s.vecSlot core 0x0D = some (p, v) →
      ∃ t, exec (.vexp2 core) s = .next t ∧ s.LanesSet t core v.vd (fun l => fexp2 (a l))) ∧
    (s.vecSlot core 0x0E = some (p, v) →
      ∃ t, exec (.vlog2 core) s = .next t ∧ s.LanesSet t core v.vd (fun l => flog2 (a l))) ∧
    (s.vecSlot core 0x0F = some (p, v) →
      ∃ t, exec (.vrcp core) s = .next t ∧ s.LanesSet t core v.vd (fun l => frcp (a l))) ∧
    (s.vecSlot core 0x10 = some (p, v) →
      ∃ t, exec (.vrsqrt core) s = .next t ∧ s.LanesSet t core v.vd (fun l => frsqrt (a l)))

/-- R144, R145: VRSUM and VRMAX give every lane of VD the combination of VA's 64 lanes in six levels, at each of which
element j combines elements 2j and 2j + 1 of the level before; VBCAST gives every lane lane IMM[5:0] of VA. -/
def Claims.VectorAcrossLanes : Prop :=
  ∀ (core p : Nat) (v : VSlot) (s : State), core < 12288 → s.canon = true →
    let a := fun l => (s.core core).lane v.va l
    (s.vecSlot core 0x11 = some (p, v) →
      ∃ t, exec (.vrsum core) s = .next t ∧ ∃ L : Nat → Nat → Word, L 0 = a ∧
        (∀ k j, k < 6 → j < 2 ^ (5 - k) → L (k + 1) j = fadd (L k (2 * j)) (L k (2 * j + 1))) ∧
        s.LanesSet t core v.vd (fun _ => L 6 0)) ∧
    (s.vecSlot core 0x12 = some (p, v) →
      ∃ t, exec (.vrmax core) s = .next t ∧ ∃ L : Nat → Nat → Word, L 0 = a ∧
        (∀ k j, k < 6 → j < 2 ^ (5 - k) → L (k + 1) j = fmax (L k (2 * j)) (L k (2 * j + 1))) ∧
        s.LanesSet t core v.vd (fun _ => L 6 0)) ∧
    (s.vecSlot core 0x13 = some (p, v) →
      ∃ t, exec (.vbcast core) s = .next t ∧ s.LanesSet t core v.vd (fun _ => a (v.imm % 64)))

/-- R144, R46, R52: VLD widens 64 elements of the own pantry exactly into VD, an FP32 element bit for bit; VST writes VA's
lanes rounded into the format, and no other byte. Both leave every other register and memory. (Log 16: DEDUCED.) -/
def Claims.VectorLoadStore : Prop :=
  ∀ (core p : Nat) (v : VSlot) (s : State), core < 12288 → s.canon = true →
    let w := wideBytes v.fmt
    let k := pantryKey core v.imm
    v.imm + 64 * w ≤ 2 ^ 21 →
    (s.vecSlot core 0x01 = some (p, v) → s.mayRead p core (s.nowSq core) [(v.imm, 64 * w)] = true →
      (s.core core).loadOk = true → markRead s.pantryMark 32 k (64 * w) = false →
      ∃ t, exec (.vld core none) s = .next t ∧ s.LanesSet t core v.vd (fun l =>
        if v.fmt = 0 then BitVec.ofNat 32 (leNat (memRead s.pantry (k + w * l) w))
        else fl (decodeF (wideFmt v.fmt) (leNat (memRead s.pantry (k + w * l) w))))) ∧
    (s.vecSlot core 0x02 = some (p, v) → s.mayWrite p core (s.nowSq core) [(v.imm, 64 * w)] = true →
      (s.core core).storeOk = true → (s.part p).inProgram core v.imm (64 * w) = false →
      ∃ t, exec (.vst core) s = .next t ∧
        (∀ l, l < 64 → memRead t.pantry (k + w * l) w = leBytes w (if v.fmt = 0 then ((s.core core).lane v.va l).toNat
          else encodeF (wideFmt v.fmt) (rndOf v.rnd) 0 (f32 ((s.core core).lane v.va l)))) ∧
        (∀ a, a < k ∨ k + 64 * w ≤ a → tget t.pantry a 0 = tget s.pantry a 0) ∧
        t = { s with pantry := t.pantry, pantryMark := t.pantryMark, cores := t.cores } ∧
        (s.core core).SamePlace (t.core core) ∧ ∀ d, d ≠ core → t.core d = s.core d)

/-- R146, R100: QUANT, DEQUANT and WSTORE run on the operands their record names, when these lie in the own pantry and
inside both tensors, and the core then goes past its slot; DEQUANT and WSTORE store to no byte outside the destination
row's range. A record whose operands are refused with a status stops the partition with that status. -/
def Claims.VectorRecords : Prop :=
  ∀ (core p : Nat) (v : VSlot) (s : State), core < 12288 → s.canon = true → s.vecSlot core 0x18 = some (p, v) →
    let r := s.vecRecord p core v.imm
    (∀ st, s.vrecOperands p r = .error st → (s.part p).pstate = .live → (s.part p).stopped = none →
      (r.rop = 1 → ∃ t, exec (.quant core) s = .next t ∧ (t.part p).stopped = some st) ∧
      (r.rop = 2 → ∃ t, exec (.dequant core) s = .next t ∧ (t.part p).stopped = some st) ∧
      (r.rop = 3 → ∃ t, exec (.wstore core) s = .next t ∧ (t.part p).stopped = some st)) ∧
    (∀ (a b : Desc) (x y : WDesc) (m n : NDesc) (u : State), s.vrecOperands p r = .ok (a, b) →
      (s.core core).storeOk = true →
      (let sp := r.span a.k
       s.mayRead p core (s.nowSq core) (a.ranges r.row 1 sp.1 sp.2) = true ∧
        s.mayWrite p core (s.nowSq core) (b.ranges r.row 1 sp.1 sp.2) = true) →
      let outside := fun (k : Nat) => (b.ranges r.row 1 (r.span a.k).1 (r.span a.k).2).all (fun q =>
        decide (k < pantryKey core q.1) || decide (pantryKey core (q.1 + q.2) ≤ k))
      (r.rop = 1 → a = .wide x → b = .narrow n → s.runQuant p core r x n = .ok u →
        exec (.quant core) s = .next (u.slotDone p core 1)) ∧
      (r.rop = 2 → a = .narrow m → b = .wide y → s.runDequant p core r m y = .ok u →
        exec (.dequant core) s = .next (u.slotDone p core 1) ∧
        u = { s with pantry := u.pantry, pantryMark := u.pantryMark, parts := u.parts } ∧
        ∀ k, outside k = true → tget u.pantry k 0 = tget s.pantry k 0) ∧
      (r.rop = 3 → a = .wide x → b = .wide y → s.runWstore p core r x y = .ok u →
        exec (.wstore core) s = .next (u.slotDone p core 1) ∧
        u = { s with pantry := u.pantry, pantryMark := u.pantryMark, parts := u.parts } ∧
        ∀ k, outside k = true → tget u.pantry k 0 = tget s.pantry k 0))

/-! ## Scalar accesses and atomics -/

/-- R147: the scalar load a vector slot asks for. -/
def loadAsked (x : CoreSt) (v : VSlot) (acq : Bool) : Scalar :=
  { kind := 0, width := v.width, addr := x.lane64 v.va 0, vd := v.vd, acq := acq }

/-- R147: the scalar store a vector slot asks for. -/
def storeAsked (x : CoreSt) (v : VSlot) (rel : Bool) : Scalar :=
  { kind := 2, width := v.width, addr := x.lane64 v.va 0, data := x.scalarVal v.vb v.width, rel := rel }

/-- R177, R178: the atomic `op` a vector slot asks for. -/
def atomicAsked (x : CoreSt) (v : VSlot) (op : Nat) : Scalar :=
  { kind := 4, op := op, width := v.width, addr := x.lane64 v.va 0, vd := v.vd, ret := bitOf v.imm 1,
    data := x.scalarVal v.vb v.width, cmp := x.scalarVal v.vc v.width, acq := bitOf v.imm 2, rel := bitOf v.imm 3 }

/-- R147, R177, R210: a scalar access of a core to the larder or the cellar goes out as one request flit at its source
room with the access's kind, address, width and data, the partition's generation and the core's next sequence number; a
register that is to be loaded awaits its value. No memory and no register changes yet. -/
def SentAsFlit (s t : State) (p core : Nat) (a : Scalar) (l : Loc) : Prop :=
  (∃ f, t.hall.flits = s.hall.flits ++ [f] ∧ f.kind = a.kind ∧ f.part = p ∧ f.core = core ∧ f.addr = a.addr ∧
    f.width = a.width ∧ f.data = a.data ∧ f.cmp = a.cmp ∧ f.op = a.op ∧ f.ret = a.ret ∧ f.dst = l ∧ f.inj = false ∧
    f.gen = s.fld F.HALL_GEN_GEN p 0 ∧ f.sq = (s.core core).sq ∧ f.vd = a.vd) ∧
  t = { s with cores := t.cores, hall := { s.hall with flits := t.hall.flits, nextId := s.hall.nextId + 1 } } ∧
  (t.core core).vr = (s.core core).vr ∧ (t.core core).sq = (s.core core).sq + 1 ∧
  (a.returns = true → (t.core core).awaits a.vd = true) ∧ ∀ d, d ≠ core → t.core d = s.core d

/-- R147, R168, R177, R210: every scalar access and atomic of the vector unit that is granted a place in the larder or
the cellar issues as one request flit; the value, when there is one, is still to come. -/
def Claims.ScalarAccessesIssue : Prop :=
  ∀ (core p : Nat) (v : VSlot) (l : Loc) (s : State), core < 12288 → s.canon = true →
    let x := s.core core
    let addr := x.lane64 v.va 0
    (addr / 2 ^ 60 % 16 = 2 ∨ addr / 2 ^ 60 % 16 = 3) →
    (s.vecSlot core 0x14 = some (p, v) → s.scalarLoc p core (loadAsked x v false) = .ok l →
      ∃ t, exec (.vlds core none) s = .next t ∧ SentAsFlit s t p core (loadAsked x v false) l) ∧
    (s.vecSlot core 0x15 = some (p, v) → s.scalarLoc p core (loadAsked x v true) = .ok l →
      ∃ t, exec (.vlda core none) s = .next t ∧ SentAsFlit s t p core (loadAsked x v true) l ∧ (t.core core).need.acq = x.sq + 1) ∧
    (s.vecSlot core 0x16 = some (p, v) → s.scalarLoc p core (storeAsked x v false) = .ok l →
      ∃ t, exec (.vsts core) s = .next t ∧ SentAsFlit s t p core (storeAsked x v false) l) ∧
    (s.vecSlot core 0x17 = some (p, v) → s.scalarLoc p core (storeAsked x v true) = .ok l →
      ∃ t, exec (.vstr core) s = .next t ∧ SentAsFlit s t p core (storeAsked x v true) l ∧
        ∃ f, t.hall.flits = s.hall.flits ++ [f] ∧ x.sq ≤ f.need.all) ∧
    (s.vecSlot core 0x20 = some (p, v) → s.scalarLoc p core (atomicAsked x v 0x20) = .ok l →
      ∃ t, exec (.aadd core) s = .next t ∧ SentAsFlit s t p core (atomicAsked x v 0x20) l) ∧
    (s.vecSlot core 0x21 = some (p, v) → s.scalarLoc p core (atomicAsked x v 0x21) = .ok l →
      ∃ t, exec (.fadd core) s = .next t ∧ SentAsFlit s t p core (atomicAsked x v 0x21) l) ∧
    (s.vecSlot core 0x22 = some (p, v) → s.scalarLoc p core (atomicAsked x v 0x22) = .ok l →
      ∃ t, exec (.smin core) s = .next t ∧ SentAsFlit s t p core (atomicAsked x v 0x22) l) ∧
    (s.vecSlot core 0x23 = some (p, v) → s.scalarLoc p core (atomicAsked x v 0x23) = .ok l →
      ∃ t, exec (.smax core) s = .next t ∧ SentAsFlit s t p core (atomicAsked x v 0x23) l) ∧
    (s.vecSlot core 0x24 = some (p, v) → s.scalarLoc p core (atomicAsked x v 0x24) = .ok l →
      ∃ t, exec (.umin core) s = .next t ∧ SentAsFlit s t p core (atomicAsked x v 0x24) l) ∧
    (s.vecSlot core 0x25 = some (p, v) → s.scalarLoc p core (atomicAsked x v 0x25) = .ok l →
      ∃ t, exec (.umax core) s = .next t ∧ SentAsFlit s t p core (atomicAsked x v 0x25) l) ∧
    (s.vecSlot core 0x26 = some (p, v) → s.scalarLoc p core (atomicAsked x v 0x26) = .ok l →
      ∃ t, exec (.fmin core) s = .next t ∧ SentAsFlit s t p core (atomicAsked x v 0x26) l) ∧
    (s.vecSlot core 0x27 = some (p, v) → s.scalarLoc p core (atomicAsked x v 0x27) = .ok l →
      ∃ t, exec (.fmax core) s = .next t ∧ SentAsFlit s t p core (atomicAsked x v 0x27) l) ∧
    (s.vecSlot core 0x28 = some (p, v) → s.scalarLoc p core (atomicAsked x v 0x28) = .ok l →
      ∃ t, exec (.cas core) s = .next t ∧ SentAsFlit s t p core (atomicAsked x v 0x28) l)

/-- R147: a scalar load or store whose address is not a multiple of its size stops the partition with ADDR_FAULT. -/
def Claims.MisalignedScalarStops : Prop :=
  ∀ (core p : Nat) (v : VSlot) (s : State), core < 12288 → s.canon = true →
    (s.part p).pstate = .live → (s.part p).stopped = none → (s.core core).lane64 v.va 0 % v.width ≠ 0 →
    (s.vecSlot core 0x14 = some (p, v) → ∃ t, exec (.vlds core none) s = .next t ∧ (t.part p).stopped = some St.ADDR_FAULT) ∧
    (s.vecSlot core 0x15 = some (p, v) → ∃ t, exec (.vlda core none) s = .next t ∧ (t.part p).stopped = some St.ADDR_FAULT) ∧
    (s.vecSlot core 0x16 = some (p, v) → ∃ t, exec (.vsts core) s = .next t ∧ (t.part p).stopped = some St.ADDR_FAULT) ∧
    (s.vecSlot core 0x17 = some (p, v) → ∃ t, exec (.vstr core) s = .next t ∧ (t.part p).stopped = some St.ADDR_FAULT)

/-- R147, R178: a value come back for a scalar load of the larder or cellar is written to the register's lane 0, its upper
word to lane 1 of an 8-byte load, every other lane becomes +0, and the register no longer awaits that load. -/
def Claims.ScalarLoadReturns : Prop :=
  ∀ (core vd p val : Nat) (l : PendLoad) (s : State), core < 12288 → vd < 32 → s.canon = true →
    s.partOfCore core = some p → (s.core core).loads.find? (fun m => m.vd == vd) = some l → l.value = some val →
    l.addr / 2 ^ 60 % 16 ≠ 4 → l.addr / 2 ^ 60 % 16 ≠ 5 →
    ∃ t, exec (.scalarLoadReturn core vd) s = .next t ∧ s.OnlyCore t core ∧
      (∀ i, i < 64 → (t.core core).lane vd i = if i = 0 then BitVec.ofNat 32 val
        else if i = 1 ∧ l.width = 8 then BitVec.ofNat 32 (val / 2 ^ 32) else 0) ∧
      (∀ r i, i < 64 → r ≠ vd → (t.core core).lane r i = (s.core core).lane r i) ∧
      (t.core core).loads = (s.core core).loads.filter (fun m => m.sq != l.sq)

/-! ## The control slot -/

/-- R168: a fence issues at once and puts its ordering in force for every access the core issues afterwards, over every
access issued before it: stores for FENCE.ST, loads and stores for FENCE.FULL, and for FENCE.FABRIC writes to other nodes
and to the host as well; nothing else changes but the core's place. -/
def Claims.FencesOrderLater : Prop :=
  ∀ (core p w : Nat) (s : State), core < 12288 → s.canon = true → s.ctlSlot core 1 = some (p, w) →
    let x := s.core core
    (bitsOf w 5 4 = 0 → ∃ t, exec (.fenceSt core) s = .next t ∧ s.OnlyCore t core ∧ x.SamePlace (t.core core) ∧
      (t.core core).need = { x.need with st := x.sq }) ∧
    (bitsOf w 5 4 = 1 → ∃ t, exec (.fenceFull core) s = .next t ∧ s.OnlyCore t core ∧ x.SamePlace (t.core core) ∧
      (t.core core).need = { x.need with all := x.sq }) ∧
    (bitsOf w 5 4 = 2 → ∃ t, exec (.fenceFabric core) s = .next t ∧ s.OnlyCore t core ∧ x.SamePlace (t.core core) ∧
      (t.core core).need = { x.need with all := x.sq, fab := x.sq })

/-- R377: while a FENCE.FABRIC of the core waits for a write to a node that has been unanswered for 100 µs, a FENCE
transaction to that node opens, when one may be opened. -/
def Claims.FabricFenceProbes : Prop :=
  ∀ (core p node t : Nat) (s : State), core < 12288 → s.partOfCore core = some p →
    (s.core core).outs.any (fun o => o.fabric && decide (o.sq < (s.core core).need.fab)) = true →
    (s.toTime t).fenceNodes = [node] → s.chartered node 3 = true → (s.toTime t).mayOpen p node 3 = true →
    ∃ u o, exec (.fabricFenceProbe core t) s = .next u ∧ u.brdl.txns = s.brdl.txns ++ [o] ∧ o.t.op = 3 ∧ o.t.dst = node ∧
      o.part = p ∧ o.t.wseq = tget s.brdl.egress node 0 ∧ u = { s with mono := max s.mono t, brdl := u.brdl }

/-- R150, R168: BARRIER first applies its fence; a core whose fence has done its work, or that has none, arrives at its
group, once more in this attempt, and waits there; one whose fence still waits stays at the bundle. (Log 14: DEDUCED.) -/
def Claims.BarrierArrives : Prop :=
  ∀ (core p w : Nat) (s : State), core < 12288 → s.canon = true → s.atGate core 2 = some (p, w) →
    keysRise (s.core core).arrivals = true →
    let x := s.core core
    let g := bitsOf w 15 8
    ∃ t, exec (.barrier core) s = .next t ∧ s.OnlyCore t core ∧ (t.core core).vr = x.vr ∧ (t.core core).pc = x.pc ∧
      (t.core core).need = (match bitsOf w 6 4 with
        | 0 => x.need
        | 1 => { x.need with st := x.sq }
        | 2 => { x.need with all := x.sq }
        | _ => { x.need with all := x.sq, fab := x.sq }) ∧
      ((∀ k, barrierFence w = some k → x.fenceDone k = true) → (t.core core).atBarrier = some g ∧
        ∀ h, tget (t.core core).arrivals h 0 = tget x.arrivals h 0 + if h = g then 1 else 0) ∧
      (∀ k, barrierFence w = some k → x.fenceDone k = false →
        (t.core core).atBarrier = x.atBarrier ∧ (t.core core).arrivals = x.arrivals)

/-- R150, R154, R280: once every member of a group has made as many arrivals as a core that waits there, that core goes on,
unless its room is stopped; every other core is as before, and the Currier jobs of the group whose arrival every member has
made start waiting. -/
def Claims.BarrierCompletes : Prop :=
  ∀ (part group : Nat) (s : State), part < 512 → group < 256 → s.canon = true → (s.part part).active = true →
    let members := (s.part part).members group
    let goes := fun (c : Nat) => c ∈ (s.part part).cores ∧ (s.core c).atBarrier = some group ∧
      (∀ m, m ∈ members → tget (s.core c).arrivals group 0 ≤ tget (s.core m).arrivals group 0) ∧
      s.physRoom (c / 128) ∉ s.roomStop
    ∃ t, exec (.barrierComplete part group) s = .next t ∧
      (∀ c, goes c → (t.core c).atBarrier = none ∧ (t.core c).vr = (s.core c).vr) ∧
      (∀ c, ¬goes c → t.core c = s.core c) ∧
      (∀ i, i < (s.part part).harness.cur.jobs.length → ((s.part part).job i).group = group → members ≠ [] →
        (∀ m, m ∈ members → ((s.part part).job i).arrival ≤ tget (s.core m).arrivals group 0) →
        i ∈ (t.part part).jobsRun) ∧
      t = { s with cores := t.cores, parts := t.parts }

/-- R149: LOOP at the top entry of the loop stack counts it down and jumps while it is not spent, pops it when it is, and
otherwise pushes an entry of COUNT − 1 when COUNT is 2 or more. -/
def Claims.LoopStack : Prop :=
  ∀ (core p w : Nat) (s : State), core < 12288 → s.canon = true → s.ctlSlot core 6 = some (p, w) →
    let x := s.core core
    let count := bitsOf w 55 32
    let target := bitsOf w 31 8
    ∃ t, exec (.loop core) s = .next t ∧ s.OnlyCore t core ∧ (t.core core).vr = x.vr ∧
      (∀ n rest, x.loops = (x.pc, n) :: rest → n = 1 → (t.core core).loops = rest ∧ x.pc < (t.core core).pc) ∧
      (∀ n rest, x.loops = (x.pc, n) :: rest → 2 ≤ n →
        (t.core core).loops = (x.pc, n - 1) :: rest ∧ target ≤ (t.core core).pc) ∧
      ((∀ n rest, x.loops ≠ (x.pc, n) :: rest) → 2 ≤ count →
        (t.core core).loops = (x.pc, count - 1) :: x.loops ∧ target ≤ (t.core core).pc) ∧
      ((∀ n rest, x.loops ≠ (x.pc, n) :: rest) → count ≤ 1 → (t.core core).loops = x.loops ∧ x.pc < (t.core core).pc)

/-- The core has passed the gate of its control slot: it goes on with its bundle's other slots, or past the bundle. -/
def GatePassed (s t : State) (core : Nat) : Prop :=
  s.OnlyCore t core ∧ (t.core core).vr = (s.core core).vr ∧
    ((t.core core).gate = true ∨ (s.core core).pc < (t.core core).pc)

/-- R148: PHASE sets the core's current phase. R151, R171, R172: SAFEPOINT closes the segment and opens the next; with LOG it
also writes the segment's time record through the time log. (Log 13: DEDUCED.) -/
def Claims.PhaseAndSafepoint : Prop :=
  ∀ (core p w : Nat) (s : State), core < 12288 → s.canon = true →
    let x := s.core core
    (s.ctlSlot core 5 = some (p, w) → ∃ t, exec (.phase core) s = .next t ∧ s.OnlyCore t core ∧
      (t.core core).phase = bitsOf w 11 4 ∧ (t.core core).vr = x.vr ∧ (t.core core).loops = x.loops) ∧
    (∀ cycles t, (s.toTime t).ctlSlot core 3 = some (p, w) →
      let now := max s.mono t
      let y := s.part p
      let record := leBytes 2 (bitsOf w 19 4) ++ leBytes 2 (core % 2 ^ 14 + y.attempt % 4 * 2 ^ 14) ++ leBytes 4 y.step ++
        leBytes 4 (min cycles (2 ^ 32 - 1)) ++ leBytes 4 (min (now - x.segNs) (2 ^ 32 - 1))
      let logged := if bitOf w 20 then (s.toTime t).timeLog p record else s.toTime t
      ∃ u, exec (.safepoint core cycles t) s = .next u ∧ logged.OnlyCore u core ∧ (u.core core).segNs = now ∧
        (u.core core).vr = x.vr ∧ ∀ d, d ≠ core → u.core d = s.core d)

/-- R148, R168, R178, R331: WAITV reads its word as LD.ACQ: at once when it lies in the own pantry, else by a request whose
value comes back; it passes its gate when the word equals VA's lanes 2-3 and stays, to read again, while it differs. It waits
while VA awaits a load, passes a word of space 0x4 or 0x5 at once in a replay, and stops the partition where the access is
refused. (Log 13: DEDUCED.) -/
def Claims.WaitvWaits : Prop :=
  ∀ (core p w : Nat) (s : State), core < 12288 → s.canon = true → s.atGate core 7 = some (p, w) →
    let x := s.core core
    let r := bitsOf w 8 4
    let a := x.waitRead w
    let want := x.lane64 r 2
    let read := x.loads.find? (fun l => l.vd == 32)
    (read = none → x.awaits r = true → exec (.waitv core none 0) s = .next s) ∧
    (read = none → x.awaits r = false →
      (∀ k, s.scalarLoc p core a = .ok (.pantry k) → k / 2 ^ 21 = core → x.loadOk = true →
        s.mayRead p core x.sq [(k % 2 ^ 21, 8)] = true → markRead s.pantryMark 32 k 8 = false →
        (leNat (memRead s.pantry k 8) = want → ∃ t, exec (.waitv core none 0) s = .next t ∧ GatePassed s t core) ∧
        (leNat (memRead s.pantry k 8) ≠ want → exec (.waitv core none 0) s = .next s)) ∧
      (∀ l, s.scalarLoc p core a = .ok l → (∀ k, l = .pantry k → k / 2 ^ 21 ≠ core) →
        ((spaceOf a.addr ≠ 4 ∧ spaceOf a.addr ≠ 5) ∨ (s.part p).replaying = false) →
        ∃ t, exec (.waitv core none 0) s = .next t ∧ SentAsFlit s t p core a l) ∧
      (∀ l, s.scalarLoc p core a = .ok l → (∀ k, l ≠ .pantry k) → (spaceOf a.addr = 4 ∨ spaceOf a.addr = 5) →
        (s.part p).replaying = true → ∃ t, exec (.waitv core none 0) s = .next t ∧ GatePassed s t core) ∧
      (∀ e, s.scalarLoc p core a = .error e → (s.part p).pstate = .live → (s.part p).stopped = none →
        ∃ t, exec (.waitv core none 0) s = .next t ∧ (t.part p).stopped = some e)) ∧
    (∀ l, read = some l →
      (l.value = none → exec (.waitv core none 0) s = .next s) ∧
      (l.value = some want → ∃ t, exec (.waitv core none 0) s = .next t ∧ GatePassed s t core ∧
        (t.core core).loads = x.loads.filter (fun m => m.vd != 32)) ∧
      (∀ v, l.value = some v → v ≠ want → ∃ t, exec (.waitv core none 0) s = .next t ∧ s.OnlyCore t core ∧
        (t.core core).loads = x.loads.filter (fun m => m.vd != 32) ∧ (t.core core).pc = x.pc ∧
        (t.core core).gate = x.gate ∧ (t.core core).vr = x.vr))

/-- R152, R158, R165: END_STEP frees the copy slots, all of them FREE or DONE, and the core reports the end of the step; a
slot DONE with DATA_UE or LINK_LOST raises the partition's vote to REPLAY or SKIP, one DONE with another status but OK stops
the partition with it. -/
def Claims.EndOfStep : Prop :=
  ∀ (core p w : Nat) (s : State), core < 12288 → s.canon = true → s.ctlSlot core 8 = some (p, w) → (s.part p).active = true →
    let x := s.core core
    keysRise x.slots = true →
    ((∀ i y, i < 48 → tget x.slots i none = some y → y.status = some St.OK) →
      ∃ t, exec (.endStep core none) s = .next t ∧ s.OnlyCore t core ∧ (t.core core).ended = true ∧
        (∀ i, i < 48 → tget (t.core core).slots i none = none) ∧ (t.core core).vr = x.vr) ∧
    (∀ i y st, i < 48 → tget x.slots i none = some y → y.status = some st → st ≠ St.OK →
      (∀ j z, j < 48 → j ≠ i → tget x.slots j none = some z → z.status = some St.OK) →
      ∃ t, exec (.endStep core none) s = .next t ∧
        ((st = St.DATA_UE ∨ st = St.LINK_LOST) → (t.core core).ended = true ∧ (t.core core).vr = x.vr ∧
          (∀ j, j < 48 → tget (t.core core).slots j none = none) ∧
          (t.part p).vote = max (s.part p).vote (if st = St.DATA_UE then voteReplay else voteSkip)) ∧
        (st ≠ St.DATA_UE → st ≠ St.LINK_LOST → (s.part p).pstate = .live → (t.part p).stopped = some st))

/-! ## Copies -/

/-- R157, R158, R160: an ISSUE into a FREE slot starts the copy of the descriptor it names, whatever its kind: the slot
holds the descriptor, ordered after what the core has issued, with no unit moved yet; every other slot and every register
stays. -/
def Claims.CopiesIssue : Prop :=
  ∀ (core p w : Nat) (s : State), core < 12288 → s.canon = true → s.atSlot core 0 = some (p, w) → w % 4 = 1 →
    let x := s.core core
    let d := s.copyRecord p core w
    let i := bitsOf w 7 2
    tget x.slots i none = none →
    let issued := fun (t : State) => s.OnlyCore t core ∧ (t.core core).vr = x.vr ∧ (t.core core).sq = x.sq + 1 ∧
      (∃ y, tget (t.core core).slots i none = some y ∧ y.desc = d ∧ y.sq = x.sq ∧ y.need = x.need ∧ y.phase = x.phase ∧
        y.status = none ∧ y.next = 0 ∧ y.moved = [] ∧ y.outstanding = 0) ∧
      ∀ j, j ≠ i → tget (t.core core).slots j none = tget x.slots j none
    (d.kind = 0 → ∃ t, exec (.copyLinear core) s = .next t ∧ issued t) ∧
    (d.kind = 1 → ∃ t, exec (.copyStrided core) s = .next t ∧ issued t) ∧
    (d.kind = 2 → ∃ t, exec (.copyGather core) s = .next t ∧ issued t) ∧
    (d.kind = 3 → ∃ t, exec (.copyScatter core) s = .next t ∧ issued t) ∧
    (d.kind = 4 → ∃ t, exec (.copyTable core) s = .next t ∧ issued t) ∧
    (d.kind = 5 → ∃ t, exec (.copyReduce core) s = .next t ∧ issued t)

/-- R158, R164, R165: WAIT over slots that are FREE or DONE with OK frees them and leaves the others; a copy all of whose
units have moved, with nothing outstanding, becomes DONE with its worst status. -/
def Claims.CopiesEnd : Prop :=
  ∀ (core p w slot : Nat) (y : CopySlot) (s : State), core < 12288 → s.canon = true →
    keysRise (s.core core).slots = true →
    (s.atSlot core 0 = some (p, w) → w % 4 = 2 →
      (∀ i z, i < 48 → bitOf w (16 + i) = true → tget (s.core core).slots i none = some z → z.status = some St.OK) →
      ∃ t, exec (.copyWait core) s = .next t ∧ s.OnlyCore t core ∧ (t.core core).vr = (s.core core).vr ∧
        (∀ i, i < 48 → bitOf w (16 + i) = true → tget (t.core core).slots i none = none) ∧
        (∀ i, i < 48 → bitOf w (16 + i) = false →
          tget (t.core core).slots i none = tget (s.core core).slots i none)) ∧
    (slot < 48 → tget (s.core core).slots slot none = some y → y.status = none → y.desc.rows ≤ y.moved.length →
      y.outstanding = 0 → y.bufs = [] →
      ∃ t, exec (.copyComplete core slot) s = .next t ∧ s.OnlyCore t core ∧ (t.core core).vr = (s.core core).vr ∧
        tget (t.core core).slots slot none = some { y with status := some y.worst } ∧
        ∀ j, j ≠ slot → tget (t.core core).slots j none = tget (s.core core).slots j none)

/-- R160, R162: the next unit of the copy whose turn it is, of any kind but REDUCE, between places of the issuing core's own
pantry outside its program and met by no error: a unit that moves bytes leaves at its destination what its source held, one of
zeros leaves zeros there, one without a place does nothing; no other byte of any memory changes, and the unit counts as moved.
Any other unit that has not begun waits for its turn. -/
def Claims.CopyUnitMovesBytes : Prop :=
  ∀ (core slot p unit t : Nat) (ext : Bytes) (y : CopySlot) (s : State), core < 12288 → slot < 48 → s.canon = true →
    s.partOfCore core = some p → (s.part p).active = true → tget (s.core core).slots slot none = some y → y.status = none →
    y.bufs = [] →
    let s0 := ({ s with mono := max s.mono t } : State).modCore core (fun x => { x with turn := slot })
    let own := fun (dst n : Nat) => 0 < n ∧ dst + n ≤ 2 ^ 21 ∧ (s.part p).inProgram core dst n = false
    let ran := fun (u : State) => (∃ z, tget (u.core core).slots slot none = some z ∧ z.moved = y.moved ++ [unit] ∧
        z.next = max y.next (unit + 1) ∧ z.stopped = y.stopped) ∧
      u = { s with mono := max s.mono t, pantry := u.pantry, pantryMark := u.pantryMark, cores := u.cores } ∧
      (u.core core).vr = (s.core core).vr ∧ ∀ d, d ≠ core → u.core d = s.core d
    let others := fun (u : State) (dst n : Nat) =>
      ∀ a, a < pantryKey core dst ∨ pantryKey core (dst + n) ≤ a → tget u.pantry a 0 = tget s.pantry a 0
    (unit = y.next → (s.core core).copyTurn = some slot → (s.part p).harness.taps = [] → y.desc.kind ≠ 5 →
      (∀ src dst n, s0.planUnit p core y.desc unit = (s0, .move src dst n, false) → own dst n → src + n ≤ 2 ^ 21 →
        markRead s.pantryMark 32 (pantryKey core src / 32 * 32) (n + 64) = false →
        ∃ u, exec (.copyUnitMove core slot unit ext none (0, 0) t) s = .next u ∧ ran u ∧ others u dst n ∧
          memRead u.pantry (pantryKey core dst) n = memRead s.pantry (pantryKey core src) n) ∧
      (∀ dst n, s0.planUnit p core y.desc unit = (s0, .zeros dst n, false) → own dst n →
        ∃ u, exec (.copyUnitMove core slot unit ext none (0, 0) t) s = .next u ∧ ran u ∧ others u dst n ∧
          memRead u.pantry (pantryKey core dst) n = List.replicate n 0) ∧
      (s0.planUnit p core y.desc unit = (s0, .nothing, false) →
        ∃ u, exec (.copyUnitMove core slot unit ext none (0, 0) t) s = .next u ∧ ran u ∧ u.pantry = s.pantry)) ∧
    (y.desc.kind = 0 → s0.planUnit p core y.desc unit = (s0, .move y.desc.src y.desc.dst y.desc.len, false)) ∧
    ((unit ≠ y.next ∨ (s.core core).copyTurn ≠ some slot) →
      exec (.copyUnitMove core slot unit ext none (0, 0) t) s = .next { s with mono := max s.mono t })

/-! ## The hallway -/

/-- R218, R221-R226, R229: a flit, the oldest of its queue, crosses to the next place of its route when the link is up, a
credit is free and, in shared mode, the slot of the frame and the turn of its input are its owner's; at its intermediate room
it begins its second leg, on the other network. One still at its source first takes a route and is then injected. A
reduce-write that it may be combined with leaves with it, with the addends and sources of both. Nothing else moves, and
nothing but the hallway changes. -/
def Claims.FlitsForward : Prop :=
  ∀ (id slot : Nat) (f h : Flit) (u s : State), s.hall.flits.find? (fun g => g.id == id) = some f → slot < 64 →
    f.queued = false → (f.at_ ≠ f.to_ ∨ f.mid ≠ none) → s.inject f = some (u, h) →
    u.atHead h = true → u.deadPlace h.at_ = false → u.deadPlace h.next = false →
    (u.link (linkKey h.at_ h.next)).retraining = false → (u.link (linkKey h.at_ h.next)).down = false →
    0 < u.credits h h.at_ h.next h.net →
    (s.sharedMode = true → tget s.hall.slots (h.lane * 64 + slot) 0 = h.owner ∧ u.turnOk h = true) →
    let moved := fun (g : Flit) => { g with
      at_ := h.next, from_ := h.at_, mid := if h.mid = some h.next then none else h.mid,
      net := if h.mid = some h.next then 1 else h.net, leg := if h.mid = some h.next then 1 else h.leg }
    let crossed := fun (t : State) (gone : Nat → Bool) (g : Flit) =>
      t.hall.flits = s.hall.flits.filter (fun e => e.id != id && !gone e.id) ++ [moved g] ∧
      t = { s with hall := { s.hall with flits := t.hall.flits, lastNet := t.hall.lastNet, rr := t.hall.rr } } ∧
      (s.sharedMode = false → t.hall.rr = s.hall.rr)
    ((f.inj = true → u = s ∧ h = f) ∧
      (f.inj = false → s.injectOk f = true ∧ ∃ net mid, s.route f = some (net, mid) ∧
        h = { f with inj := true, net := net, mid := mid, leg := 0 })) ∧
    (∃ t, exec (.flitForward id (none, slot)) s = .next t ∧ crossed t (fun _ => false) h) ∧
    (∀ j g, u.hall.flits.find? (fun e => e.id == j) = some g → u.mayCombine f g = true →
      ∃ t, exec (.flitForward id ((some j), slot)) s = .next t ∧ crossed t (fun i => i == j)
        { h with srcs := h.srcs ++ g.srcs, mark := h.mark || g.mark, addends := (List.range 16).map (fun i =>
            match h.addends.getD i none, g.addends.getD i none with
            | some x, some y => some (fadd x y)
            | some x, none => some x
            | none, y => y) })

/-- R170, R177, R192, R210, R234: a request in its destination room whose generation is the partition's is performed on the
larder or on a pantry: a load is answered with the bytes, a store writes them, an atomic stores its new value and, when it
returns one, answers the old; a store or atomic writes no other byte. A request to the cellar is accepted by its controller,
which makes a store visible. A request of another generation is dropped and counted, and the memory is unchanged. -/
def Claims.FlitsArrive : Prop :=
  ∀ (id host t k : Nat) (f : Flit) (s : State), s.canon = true → s.hall.flits.find? (fun g => g.id == id) = some f →
    f.inj = true → f.queued = false → f.at_ = f.to_ → f.mid = none → s.atHead f = true → s.deadPlace f.at_ = false →
    f.part < 512 →
    let g := s.fld F.HALL_GEN_GEN f.part 0
    let others := s.hall.flits.filter (fun h => h.id != f.id)
    (f.dst = .larder k → f.addr / 2 ^ 60 % 16 = 2 → f.gen = g →
      let old := leNat (memRead s.larder k f.width)
      let kept := fun (u : State) => (∀ a, a < k ∨ k + f.width ≤ a → tget u.larder a 0 = tget s.larder a 0) ∧
        u.pantry = s.pantry ∧ u.cellar = s.cellar ∧ u.regs = s.regs ∧ u.parts = s.parts
      (markRead s.larderMark 64 k f.width = false → f.kind = 0 →
        ∃ u r, exec (.flitArrive id false host none t) s = .next u ∧ u.larder = s.larder ∧ kept u ∧
          u.hall.flits = others ++ [r] ∧ r.kind = 1 ∧ r.data = old ∧ r.ep = f.core) ∧
      (f.kind = 2 →
        ∃ u r, exec (.flitArrive id false host none t) s = .next u ∧ kept u ∧
          memRead u.larder k f.width = leBytes f.width f.data ∧
          u.hall.flits = others ++ [r] ∧ r.kind = 3 ∧ r.ep = f.core) ∧
      (markRead s.larderMark 64 k f.width = false → f.kind = 4 →
        ∃ u r, exec (.flitArrive id false host none t) s = .next u ∧ kept u ∧
          memRead u.larder k f.width = leBytes f.width (atomicNew f.op f.width old f.data f.cmp) ∧
          u.hall.flits = others ++ [r] ∧ r.ep = f.core ∧
          (f.ret = true → r.kind = 5 ∧ r.data = old) ∧ (f.ret = false → r.kind = 3))) ∧
    (f.dst = .pantry k → f.addr / 2 ^ 60 % 16 ≤ 1 → f.gen = g →
      (markRead s.pantryMark 32 k f.width = false → f.kind = 0 →
        ∃ u r, exec (.flitArrive id false host none t) s = .next u ∧ u.pantry = s.pantry ∧ u.larder = s.larder ∧
          u.hall.flits = others ++ [r] ∧ r.kind = 1 ∧ r.data = leNat (memRead s.pantry k f.width) ∧ r.ep = f.core) ∧
      (f.kind = 2 →
        ∃ u r, exec (.flitArrive id false host none t) s = .next u ∧ u.larder = s.larder ∧ u.cellar = s.cellar ∧
          memRead u.pantry k f.width = leBytes f.width f.data ∧
          (∀ a, a < k ∨ k + f.width ≤ a → tget u.pantry a 0 = tget s.pantry a 0) ∧
          u.hall.flits = others ++ [r] ∧ r.kind = 3 ∧ r.ep = f.core)) ∧
    (f.dst = .cellar k → f.gen = g → f.kind = 0 ∨ f.kind = 2 →
      ∃ u, exec (.flitArrive id false host none t) s = .next u ∧ u.hall.flits = others ++ [{ f with queued := true }] ∧
        u.pantry = s.pantry ∧ u.larder = s.larder ∧ u.cellar = s.cellar ∧ u.parts = s.parts ∧ u.regs = s.regs) ∧
    (f.gen ≠ g → f.kind ≤ 4 →
      ∃ u, exec (.flitArrive id false host none t) s = .next u ∧ u.larder = s.larder ∧ u.pantry = s.pantry ∧
        u.cellar = s.cellar ∧ u.hall.flits = others ∧ u.cores = s.cores)

/-- R147, R178, R232: a response in its destination room gives the load it answers its value, an acknowledgement ends the
store it answers, and no memory and no other core changes. R524: a flit whose CRC fails at the room it has come to stays
where it is, to be sent again. -/
def Claims.ResponsesArrive : Prop :=
  ∀ (id host t : Nat) (f : Flit) (s : State), s.canon = true → s.hall.flits.find? (fun g => g.id == id) = some f →
    f.inj = true → f.queued = false →
    (f.at_ = f.to_ → f.mid = none → s.atHead f = true → s.deadPlace f.at_ = false → f.part < 512 →
      f.gen = s.fld F.HALL_GEN_GEN f.part 0 →
      let others := s.hall.flits.filter (fun h => h.id != f.id)
      ((f.kind = 1 ∨ f.kind = 5) →
        ∃ u, exec (.flitArrive id false host none t) s = .next u ∧
          (u.core f.ep).loads = (s.core f.ep).loads.map (fun l => if l.sq = f.sq then { l with value := some f.data } else l) ∧
          (u.core f.ep).vr = (s.core f.ep).vr ∧ (∀ d, d ≠ f.ep → u.core d = s.core d) ∧ u.hall.flits = others ∧
          u = { s with mono := max s.mono t, cores := u.cores, hall := { s.hall with flits := others } }) ∧
      (f.kind = 3 → (∀ q, q ∈ f.srcs → q.2 = 0) →
        ∃ u, exec (.flitArrive id false host none t) s = .next u ∧
          (u.core f.ep).outs = (s.core f.ep).outs.filter (fun o => o.sq != f.sq) ∧
          (u.core f.ep).vr = (s.core f.ep).vr ∧ (∀ d, d ≠ f.ep → u.core d = s.core d) ∧
          u = { s with mono := max s.mono t, cores := u.cores, hall := { s.hall with flits := others } })) ∧
    (f.from_ ≠ 100 →
      ∃ u, exec (.flitArrive id true host none t) s = .next u ∧ u.hall.flits = s.hall.flits ∧ u.larder = s.larder ∧
        u.pantry = s.pantry ∧ u.cellar = s.cellar ∧ u.cores = s.cores)

/-- R228-R231: a reduce-write in its slice's room. With combining on and its lines unmarked it adds each of its addends to
its element as m := fl(m + v), leaves every other element and byte, and acknowledges each of its sources. In ordered mode
it is staged and acknowledged, and adds nothing, while a listed source is still to come. One that its line does not list, or
that has come before, stops the partition with REDUCE_FAULT. R234: one of another generation is dropped. -/
def Obligations.ReduceWritesAdd : Prop :=
  ∀ (id k : Nat) (f : Flit) (s : State), s.canon = true → s.hall.flits.find? (fun g => g.id == id) = some f →
    f.inj = true → f.queued = false → f.at_ = f.to_ → f.mid = none → s.atHead f = true → s.deadPlace f.at_ = false →
    f.kind = 6 → f.dst = .larder k →
    let g := s.fld F.HALL_GEN_GEN f.part 0
    let others := s.hall.flits.filter (fun g => g.id != f.id)
    let acked := fun (t : State) => ∃ rs, t.hall.flits = others ++ rs ∧ rs.map (fun r => r.ep) = sources f.srcs ∧
      ∀ r, r ∈ rs → r.kind = 3 ∧ r.srcs = f.srcs.filter (fun q => q.1 == r.ep)
    (f.gen = g → s.combining f.part = true → f.mark = false → markRead s.larderMark 64 k 64 = false →
      ∃ t, exec (.reduceWriteArrive id none) s = .next t ∧
        (∀ i, i < 16 → memRead t.larder (k + 4 * i) 4 = match f.addends.getD i none with
          | some v => leBytes 4 (fadd (BitVec.ofNat 32 (leNat (memRead s.larder (k + 4 * i) 4))) v).toNat
          | none => memRead s.larder (k + 4 * i) 4) ∧
        (∀ a, a < k ∨ k + 64 ≤ a → tget t.larder a 0 = tget s.larder a 0) ∧ acked t ∧
        t.pantry = s.pantry ∧ t.cellar = s.cellar ∧ t.regs = s.regs ∧ t.cores = s.cores ∧ t.parts = s.parts) ∧
    (f.gen = g → s.combining f.part = false →
      let x := s.part f.part
      let src := x.indexOf f.core
      let came := fun (i : Nat) => s.hall.applied.contains (f.part, k, f.tag, i) = true ∨
        ∃ e, e ∈ s.hall.staged ∧ e.part = f.part ∧ e.key = k ∧ e.tag = f.tag ∧ e.src = i
      (∀ listed i, x.redSources (f.addr % 2 ^ 60) f.tag = some listed → src ∈ listed → ¬came src → i ∈ listed → i ≠ src →
        (∀ e, e ∈ s.hall.staged → ¬(e.part = f.part ∧ e.key = k ∧ e.tag = f.tag ∧ e.src = i)) →
        ∃ t, exec (.reduceWriteArrive id none) s = .next t ∧
          t.hall.staged = s.hall.staged ++ [⟨f.part, k, f.tag, src, f.addends, f.mark⟩] ∧ acked t ∧
          t.larder = s.larder ∧ t.pantry = s.pantry ∧ t.cores = s.cores ∧ t.parts = s.parts) ∧
      ((∀ listed, x.redSources (f.addr % 2 ^ 60) f.tag = some listed → src ∉ listed ∨ came src) → x.pstate = .live →
        x.stopped = none →
        ∃ t, exec (.reduceWriteArrive id none) s = .next t ∧ (t.part f.part).stopped = some St.REDUCE_FAULT ∧
          t.larder = s.larder ∧ t.pantry = s.pantry ∧ t.hall.staged = s.hall.staged)) ∧
    (f.gen ≠ g → ∃ t, exec (.reduceWriteArrive id none) s = .next t ∧ t.larder = s.larder ∧ t.pantry = s.pantry ∧
      t.hall.flits = others ∧ t.cores = s.cores)

/-- R524: a retrain that ends well leaves the link in service with its failures forgotten; one that fails begins again; the
third that fails in a row takes the link down, puts the end room of the higher number up for retirement, and stops every
running partition. R238: the written owners of a lane come into force at its frame boundary, and those of every other lane
stay. -/
def Obligations.HallLinksAndFrames : Prop :=
  ∀ (room side lane t : Nat) (s : State), s.canon = true →
    (hallRoom room < 100 → side < 4 → (s.link (room * 4 + side)).retraining = true →
      (s.link (room * 4 + side)).retrainEnd ≤ max s.mono t → keysRise s.hall.links = true →
      let x := s.link (room * 4 + side)
      let r := hallRoom room
      -- the room at the link's other end; a porch link has none
      let far := if 200 ≤ room ∨ (isEdge r = true ∧ side = porchSide r) then r else roomBeside r side
      (∃ u, exec (.hallLinkRetrainEnd room side true t) s = .next u ∧
        u.link (room * 4 + side) = { x with retraining := false, failures := 0 } ∧
        u = { s with mono := max s.mono t, hall := { s.hall with links := u.hall.links } }) ∧
      (x.failures < 2 → ∃ u, exec (.hallLinkRetrainEnd room side false t) s = .next u ∧
        (u.link (room * 4 + side)).retraining = true ∧ (u.link (room * 4 + side)).failures = x.failures + 1 ∧
        (u.link (room * 4 + side)).down = x.down ∧ u.pantry = s.pantry ∧ u.larder = s.larder ∧ u.cellar = s.cellar) ∧
      (2 ≤ x.failures → keysRise s.roomRetire = true →
        ∃ u, exec (.hallLinkRetrainEnd room side false t) s = .next u ∧ (u.link (room * 4 + side)).down = true ∧
          (u.link (room * 4 + side)).retraining = false ∧ tget u.roomRetire (max r far) 0 = 5 ∧
          (∀ p, (s.part p).pstate = .live → (s.part p).stopped = none → (u.part p).stopped = some St.HALL_LINK_DOWN) ∧
          u.pantry = s.pantry ∧ u.larder = s.larder ∧ u.cellar = s.cellar)) ∧
    (lane < 375 → keysRise s.hall.slots = true →
      ∃ u, exec (.hallSlotFrameBoundary lane) s = .next u ∧
        (∀ i, i < 64 → tget u.hall.slots (lane * 64 + i) 0 =
          if s.fld F.HALL_SLOT_OWNED lane i = 1 then 512 + s.fld F.HALL_SLOT_PART lane i else 0) ∧
        (∀ l i, l ≠ lane → i < 64 → tget u.hall.slots (l * 64 + i) 0 = tget s.hall.slots (l * 64 + i) 0) ∧
        u = { s with regs := u.regs, hall := { s.hall with slots := u.hall.slots } })

/-! ## The cellar -/

/-- R191, R192: a controller performs its oldest accepted request: a load is answered with the bytes the partition's key
reads, a store leaves every burst it does not touch. R202, R203: a refresh-rate field is shown in its controller's page,
and a range above the heat level becomes the level at once; the level falls by one at the hundredth poll of the group on end in
which every package reports less. -/
def Obligations.CellarControllers : Prop :=
  ∀ (ctrl nat pkg mr4 range t : Nat) (f : Flit) (s : State), s.canon = true →
    let g := pkg / 8
    let ranges := (tget s.heat g {}).ranges.set (pkg % 8) range
    let polled := fun (u : State) (below level : Nat) => (tget u.heat g {}).ranges = ranges ∧ (tget u.heat g {}).below = below ∧
      u.heatLevel g = level ∧ u.pantry = s.pantry ∧ u.larder = s.larder ∧ u.cellar = s.cellar ∧ u.cores = s.cores
    (ctrl < 96 → s.hall.flits.find? (fun g => g.queued && g.ep == 15360 + ctrl) = some f → f.dst = .cellar nat →
      s.ctrlServes ctrl = true → s.cellSlot f.part = true →
      (f.kind = 0 → markRead s.cellarMark 64 nat f.width = false →
        ∃ u r, exec (.cellarAccess ctrl none 0) s = .next u ∧ r.kind = 1 ∧ r.ep = f.core ∧
          r.data = leNat (s.cellarRead (s.part f.part).key nat f.width) ∧
          u.hall.flits = s.hall.flits.filter (fun g => g.id != f.id) ++ [r] ∧
          u = { s with hall := u.hall }) ∧
      (f.kind = 2 → f.addr / 2 ^ 56 % 4 = 0 →
        ∃ u r, exec (.cellarAccess ctrl none 0) s = .next u ∧ r.kind = 3 ∧
          u.hall.flits = s.hall.flits.filter (fun g => g.id != f.id) ++ [r] ∧
          (∀ a, a / 64 * 64 + 64 ≤ nat ∨ nat + f.width ≤ a / 64 * 64 → tget u.cellar a 0 = tget s.cellar a 0) ∧
          u.pantry = s.pantry ∧ u.larder = s.larder ∧ u.cores = s.cores ∧ u.parts = s.parts)) ∧
    (pkg < 192 → mr4 < 32 → range < 4 → keysRise s.heat = true →
      let level := s.heatLevel g
      (level < range → ∃ u, exec (.cellarMr4Poll pkg mr4 range t) s = .next u ∧ polled u 0 range) ∧
      (range ≤ level → (∃ r, r ∈ ranges ∧ level ≤ r) →
        ∃ u, exec (.cellarMr4Poll pkg mr4 range t) s = .next u ∧ polled u 0 level) ∧
      (range ≤ level → (∀ r, r ∈ ranges → r < level) →
        let n := (tget s.heat g {}).below + if pkg % 8 = 7 then 1 else 0
        (n < 100 → ∃ u, exec (.cellarMr4Poll pkg mr4 range t) s = .next u ∧ polled u n level) ∧
        (100 ≤ n → ∃ u, exec (.cellarMr4Poll pkg mr4 range t) s = .next u ∧ polled u 0 (level - 1))))

/-! ## The matrix arrays -/

/-- R142: an array slot whose record holds an operation puts that record into its array's waiting register, ordered after
what the core has issued; the other array, every lane and every memory stay. -/
def Claims.ArraySlotsIssue : Prop :=
  ∀ (core arr p w : Nat) (s : State), core < 12288 → arr < 2 → s.canon = true →
    s.atSlot core (2 + arr) = some (p, w) → (s.arrRecord p core w).op ≠ 0 →
    ∃ t, exec (.arraySlotIssue core arr none) s = .next t ∧ s.OnlyCore t core ∧
      ((t.core core).arr arr).waiting = some (s.arrRecord p core w) ∧ ((t.core core).arr arr).wsq = (s.core core).sq ∧
      ((t.core core).arr arr).wneed = (s.core core).need ∧ (t.core core).sq = (s.core core).sq + 1 ∧
      ((t.core core).arr arr).running = ((s.core core).arr arr).running ∧
      (t.core core).arr (1 - arr) = (s.core core).arr (1 - arr) ∧ (t.core core).vr = (s.core core).vr

/-- The instruction `r` of array `arr` has left the waiting register and run: its cells hold its results, it occupies its
running position with its counters, and nothing else changes. -/
def ArrayRan (s t : State) (core arr : Nat) (r : ArrRec) (res : ArrResult) : Prop :=
  let a := (s.core core).arr arr
  s.OnlyCore t core ∧
    t.core core = (s.core core).setArr arr { ({ a with waiting := none } : ArrSt).putCells r res.vals with
      running := a.running ++ [(r.position, a.wsq, ⟨r, a.wneed, res.cnt, false⟩)]
      opA := tput a.opA r.position (res.regA.drop (res.regA.length - 2)) []
      opB := tput a.opB r.position (res.regB.drop (res.regB.length - 2)) [] }

/-- R107, R110-R124, R142: an array instruction whose operands are in place leaves the waiting register, and its cells take
the results of its operation on them; with no failed check and no marked operand nothing else happens.
(Log 15: DESIGN CHOICE.) -/
def Claims.ArrayInstructionsRun : Prop :=
  ∀ (core arr p : Nat) (r : ArrRec) (da db dc : Desc) (res : ArrResult) (s : State),
    core < 12288 → arr < 2 → s.canon = true → s.arrDescs p r = .ok (da, db, dc) →
    s.arrCompute core arr r [] da db dc = (res, false) → res.fired = false → res.fails = [] →
    (s.arrReady core arr 1 = some (p, r) → ∃ t, exec (.mac core arr []) s = .next t ∧ ArrayRan s t core arr r res) ∧
    (s.arrReady core arr 2 = some (p, r) → ∃ t, exec (.mac3 core arr []) s = .next t ∧ ArrayRan s t core arr r res) ∧
    (s.arrReady core arr 3 = some (p, r) → ∃ t, exec (.minplus core arr) s = .next t ∧ ArrayRan s t core arr r res) ∧
    (s.arrReady core arr 4 = some (p, r) → ∃ t, exec (.maxplus core arr) s = .next t ∧ ArrayRan s t core arr r res) ∧
    (s.arrReady core arr 5 = some (p, r) → ∃ t, exec (.l1 core arr) s = .next t ∧ ArrayRan s t core arr r res) ∧
    (s.arrReady core arr 6 = some (p, r) → ∃ t, exec (.l2sq core arr) s = .next t ∧ ArrayRan s t core arr r res) ∧
    (s.arrReady core arr 7 = some (p, r) → ∃ t, exec (.cmpcount core arr) s = .next t ∧ ArrayRan s t core arr r res) ∧
    (s.arrReady core arr 8 = some (p, r) → ∃ t, exec (.ham core arr) s = .next t ∧ ArrayRan s t core arr r res)

/-- R111, R114: over its points a wide MAC without fault, reference or negation folds them in ascending order from the
value it starts with, each product exact until the one rounding of fl(product + HI), or, with PACC, added as a pair. -/
def Claims.WideMacFolds : Prop :=
  ∀ (r : ArrRec) (pts : List WPoint) (q : WPoint) (m n : Nat) (hl : Word × Word), r.xref = false → r.neg = false →
    macWideCell r [] [] m n hl = hl ∧
    macWideCell r [] (pts ++ [q]) m n hl =
      (let z := macWideCell r [] pts m n hl
       let x := (q.1.getD m .nan).mul (q.2.getD n .nan)
       if r.pacc then pairAdd z.1 z.2 (fl x) else (fl (x.add (f32 z.1)), z.2))

/-- R117, R119: a whole-array or quarter instruction that drains leaves its position, with its counters in its statistics
record; with STORE its output enters the empty shadow as the bytes of its outputs, a wide destination's as they are and a
narrow one's quantised. R108: a shadow whose bytes nothing still reads is written to the pantry and is empty. -/
def Claims.ArraysDrain : Prop :=
  ∀ (core arr quarter p sq : Nat) (j : ArrJob) (ws : List (Nat × Bytes)) (u s : State),
    core < 12288 → arr < 2 → quarter < 5 → s.canon = true → s.partOfCore core = some p →
    let a := (s.core core).arr arr
    let left := a.running.filter (fun e => e.1 != quarter)
    let gone := { s with cores := (s.modCore core (fun x => x.setArr arr { a with running := left })).cores }
    let counted := gone.statsAdd p j.r.stats j.cnt
    let shadowed := fun (v t : State) (ws : List (Nat × Bytes)) => v.OnlyCore t core ∧
      t.core core = (s.core core).setArr arr { a with running := left, shadow := some ws, shadowSq := sq, shadowNeed := j.need }
    ((s.part p).active = true → a.running.find? (fun e => e.1 == quarter) = some (quarter, sq, j) →
      (j.r.stats = 0xFFFFFFFF → counted = gone) ∧
      (j.r.store = false → exec (.arrayDrain core arr quarter) s = .next counted) ∧
      (j.r.store = true → a.shadow = none →
        (∀ d, counted.desc p j.r.cDesc = some (.wide d) →
          ∃ t, exec (.arrayDrain core arr quarter) s = .next t ∧
            shadowed counted t (counted.wideStore p { a with running := left } j.r d)) ∧
        (∀ d v, counted.desc p j.r.cDesc = some (.narrow d) →
          counted.quantise p core j.r.qcfg d (({ a with running := left } : ArrSt).storeBlocks j.r) = .ok (v, ws) →
          v.core core = counted.core core →
          ∃ t, exec (.arrayDrain core arr quarter) s = .next t ∧ shadowed v t ws))) ∧
    (a.shadow = some ws → anyOverlap (ws.map (fun w => (w.1, w.2.length))) (s.pendingReads p core a.shadowSq) = false →
      (s.core core).needOk a.shadowNeed a.shadowSq true = true →
      (s.modCore core (fun y => y.setArr arr { y.arr arr with shadow := none })).putWrites p core ws = .ok u →
      exec (.shadowWriteoutDone core arr) s = .next u ∧ ((u.core core).arr arr).shadow = none)

/-! ## Registers as software meets them -/

/-- R5: a 4-byte write through a PF to a register of a page all of whose words behave by their access types alone gives
every bit of that word by its type: RW takes the written bit, RWL too unless the page is locked, W1C is cleared by a 1,
and every other bit stays. Nothing else changes but the time. -/
def Obligations.RegisterWriteByAccessType : Prop :=
  ∀ (fn addr v typ inst t : Nat) (env : WriteEnv) (s : State), s.canon = true → (fn = 512 ∨ fn = 513) → addr < 2 ^ 28 →
    v < 2 ^ 32 → bringOk env.out = true → s.pageAt fn addr = some (typ, inst) → addr % 4 = 0 → 0x40 ≤ addr % 4096 →
    typ ∈ [0x2, 0x4, 0x5, 0x6, 0xA, 0x11, 0x12, 0x13, 0x21, 0x23, 0x24, 0x25, 0x30, 0x36, 0x42] →
    s.pageFree typ inst = false →
    let off := addr % 4096
    ∃ u, exec (.registerWrite fn addr 4 v env t) s = .next u ∧ ({ s with mono := max s.mono t } : State).OnlyWord u typ inst off ∧
      ∀ i, i < 32 → (u.regAt typ inst off).toNat.testBit i = match findRow typ off with
        | none => (s.regAt typ inst off).toNat.testBit i
        | some r => if r.w1c.testBit i && v.testBit i then false
            else if r.rw.testBit i || (r.rwl.testBit i && !s.locked typ inst) then v.testBit i
            else (s.regAt typ inst off).toNat.testBit i

/-- R532: a write narrower than 4 bytes or not aligned to its size changes nothing but the time; a misaligned read is
completed with 0; a read of 8 bytes returns both words, and one of 1 or 2 bytes the addressed bytes. -/
def Claims.AccessSizes : Prop :=
  ∀ (fn addr n v t : Nat) (env : WriteEnv) (s : State), fn ≤ 513 → addr < barBytes fn → bringOk env.out = true →
    let s1 : State := { s with mono := max s.mono t }
    ((n = 1 ∨ n = 2 ∨ ((n = 4 ∨ n = 8) ∧ addr % n ≠ 0)) → exec (.registerWrite fn addr n v env t) s = .next s1) ∧
    ((n = 2 ∨ n = 4 ∨ n = 8) → addr % n ≠ 0 →
      exec (.loRegisterRead fn addr n t) s = .next { s1 with host := { s.host with reads := s.host.reads ++ [0] } }) ∧
    (∀ typ inst, s1.pageAt fn addr = some (typ, inst) → addr % n = 0 →
      (n = 8 → exec (.loRegisterRead fn addr n t) s = .next { s1 with host := { s.host with
        reads := s.host.reads ++ [s1.readWord typ inst (addr % 4096) + 2 ^ 32 * s1.readWord typ inst (addr % 4096 + 4)] } }) ∧
      ((n = 1 ∨ n = 2) → exec (.loRegisterRead fn addr n t) s = .next { s1 with host := { s.host with
        reads := s.host.reads ++ [s1.readWord typ inst (addr % 4096 / 4 * 4) / 2 ^ (8 * (addr % 4)) % 2 ^ (8 * n)] } }))

/-- R533: a 4-byte read returns the word and changes nothing but the log of reads and the time; of the _LO register of an
RO pair it also latches _HI, and the next 4-byte read of that _HI, whatever else has happened to the rest of the state
meanwhile, returns the latched value and releases the latch. -/
def Claims.PairsReadWithoutTearing : Prop :=
  ∀ (fn addr typ inst t : Nat) (s : State), fn ≤ 513 → addr + 4 < barBytes fn → addr % 4 = 0 →
    addr % 4096 + 4 < 4096 → keysRise s.latch = true →
    let s1 : State := { s with mono := max s.mono t }
    let off := addr % 4096
    s1.pageAt fn addr = some (typ, inst) → tget s.latch (regKey typ inst off) 0 = 0 →
    ∃ u, exec (.loRegisterRead fn addr 4 t) s = .next u ∧
      u = { s1 with latch := u.latch, host := { s.host with reads := s.host.reads ++ [s1.readWord typ inst off] } } ∧
      (latches typ off = false → u.latch = s.latch) ∧
      (latches typ off = true → ∀ (w : State) (t' : Nat), w.latch = u.latch →
        (w.toTime t').pageAt fn (addr + 4) = some (typ, inst) →
        ∃ x, exec (.loRegisterRead fn (addr + 4) 4 t') w = .next x ∧
          x.host.reads = w.host.reads ++ [s1.readWord typ inst (off + 4)] ∧ tget x.latch (regKey typ inst (off + 4)) 0 = 0)

/-- `u` has the memories and cores of `s`. -/
def SameData (s u : State) : Prop := u.pantry = s.pantry ∧ u.larder = s.larder ∧ u.cellar = s.cellar ∧ u.cores = s.cores

/-- R237: a write of HALL_CFG stores COMBINE_EN; it stores SHARED while no partition holds a harness and, for a 0, while at
most one partition exists, and otherwise leaves SHARED. No other register changes while no cellar slot is lost to heat; R415:
otherwise the shortfall begins of each partition that now has cellar slots. (Log 73: DEDUCED.) -/
def Claims.HallModeWrite : Prop :=
  ∀ (v : Nat) (s : State), s.canon = true → v < 2 ^ 32 → s.recovery = false →
    ∃ t, exec (.hallSharedWrite v) s = .next t ∧
      t.fld F.HALL_CFG_COMBINE_EN 0 0 = v / 2 % 2 ∧
      t.fld F.HALL_CFG_SHARED 0 0 =
        (if (s.parts.any (fun e => e.2.harn.isSome)) || (decide (v % 2 = 0) && decide (1 < s.usedParts.length))
          then s.fld F.HALL_CFG_SHARED 0 0 else v % 2) ∧
      SameData s t ∧
      (s.lostSlots = 0 → (∀ p, (s.part p).shortB = none) → s.OnlyWord t 0x3 0 0x40) ∧
      (0 < s.lostSlots → s.sharedMode = false → t.sharedMode = true → ∀ p, (s.part p).pstate = .live → (s.part p).shortB = none →
        t.cellSlot p = true → (t.part p).shortB = some (s.lostSlots, s.mono, 0))

/-- The word of a slot register after a write: a slot whose owner would change from or to a partition with a harness stays. -/
def slotAfter (s : State) (w lo v : Nat) : Nat :=
  if s.slotFixed (slotOwner (bitsOf w (lo + 9) (lo + 9)) (bitsOf w (lo + 8) lo))
    (slotOwner (bitsOf v (lo + 9) (lo + 9)) (bitsOf v (lo + 8) lo)) then w else withBits w (lo + 9) lo (v / 2 ^ lo)

/-- R238, R382, R409, R420: a slot write stores owner and OWNED of the slot or, in a register of two slots, of each of the
two, unless it changes an owner from or to a partition that holds a harness, and touches no other register; R415: a write of
cellar slots also begins or ends shortfalls, where heat has taken slots. (Log 135: DEDUCED.) -/
def Claims.SlotTableWrites : Prop :=
  ∀ (inst idx v : Nat) (s : State), s.canon = true → v < 2 ^ 32 → s.recovery = false →
    (inst < 375 → idx < 64 →
      ∃ t, exec (.hallSlotWrite inst idx v) s = .next t ∧ s.RegSet t RG.HALL_SLOT inst idx (slotAfter s (s.reg RG.HALL_SLOT inst idx) 0 v)) ∧
    (inst < 96 → idx < 64 →
      ∃ t, exec (.porchSlotWrite 2 inst idx v) s = .next t ∧
        s.RegSet t RG.BRDL_PORT_SLOT inst idx (slotAfter s (s.reg RG.BRDL_PORT_SLOT inst idx) 0 v)) ∧
    (inst < 2 → idx < 512 →
      ∃ t, exec (.porchSlotWrite 1 inst idx v) s = .next t ∧
        s.RegSet t RG.PCIE_SLOT inst idx (slotAfter s (slotAfter s (s.reg RG.PCIE_SLOT inst idx) 0 v) 16 v)) ∧
    (idx < 512 →
      ∃ t, exec (.porchSlotWrite 0 0 idx v) s = .next t ∧
        t.reg RG.PRCH_CELL_SLOT 0 idx = slotAfter s (slotAfter s (s.reg RG.PRCH_CELL_SLOT 0 idx) 0 v) 16 v ∧ SameData s t ∧
        (s.lostSlots = 0 → (∀ p, (s.part p).shortB = none) →
          s.RegSet t RG.PRCH_CELL_SLOT 0 idx (slotAfter s (slotAfter s (s.reg RG.PRCH_CELL_SLOT 0 idx) 0 v) 16 v)))

/-- R457: a write to REIN_OP_CAP or REIN_FAC_TARGET above 10,000 is taken as 10,000 and one below 1,000 as 1,000; one to
REIN_SHED_LEVEL below 3,000 as 3,000, one from 3,000 to 10,000 as it is, and none at all on a locked page. Nothing else
changes. -/
def Obligations.PowerCapWrites : Prop :=
  ∀ (v : Nat) (s : State), s.canon = true → v < 2 ^ 14 → s.recovery = false →
    let cap := if 10000 < v then 10000 else if v < 1000 then 1000 else v
    (∃ t, exec (.reinOpCapWrite v) s = .next t ∧ s.FieldSet t F.REIN_OP_CAP_W 0 0 cap) ∧
    (∃ t, exec (.reinFacTargetWrite v) s = .next t ∧ s.FieldSet t F.REIN_FAC_TARGET_W 0 0 cap) ∧
    (s.locked 0x7 0 = false →
      ∃ t w, exec (.reinShedLevelWrite v) s = .next t ∧ s.FieldSet t F.REIN_SHED_LEVEL_W 0 0 w ∧
        (v < 3000 → w = 3000) ∧ (3000 ≤ v → v ≤ 10000 → w = v)) ∧
    (s.locked 0x7 0 = true → exec (.reinShedLevelWrite v) s = .next s)

/-- R381, R207, R390, R540, R316: an accepted write of an allotment of tags or of ring contexts, of ECC_ON, of CFG_LOCK or of
the journal floor sets that register alone; each is ignored whole where the rule says so: allotments above the total,
contexts of the PF while one of its rings is enabled, ECC_ON while a harness is loaded or the range is not zeroised.
(Log 80, 137, 138: DEDUCED.) -/
def Claims.GuardedFieldWrites : Prop :=
  ∀ (p typ inst v : Nat) (s : State), s.canon = true → v < 2 ^ 32 → s.recovery = false →
    (p < 512 →
      let others := ((List.range 512).filter (fun q => q != p)).map (fun q => s.fld F.BRDL_PART_ALLOT_TAGS 0 q)
      (others.sum + v % 65536 ≤ 40960 →
        ∃ t, exec (.brdlPartAllotWrite p v) s = .next t ∧ s.FieldSet t F.BRDL_PART_ALLOT_TAGS 0 p (v % 65536)) ∧
      (40960 < others.sum + v % 65536 → exec (.brdlPartAllotWrite p v) s = .next s)) ∧
    (p < 512 →
      let ok := (s.part p).pstate = .live ∧ s.locked 0x22 p = false ∧ (s.part p).harn = none ∧ s.cellarFresh p = true
      (ok → ∃ t, exec (.eccOnWrite p v) s = .next t ∧ s.FieldSet t F.CELL_PART_CFG_ECC_ON p 0 (v % 2)) ∧
      (¬ ok → exec (.eccOnWrite p v) s = .next s)) ∧
    (v % 256 ≤ 128 → s.allotOthers 512 + v % 256 ≤ 65536 →
      (s.pfRingOn = false → ∃ t, exec (.ringAllotWrite 512 v) s = .next t ∧ s.FieldSet t F.TACK_PF_RINGS_ALLOT 0 0 (v % 256)) ∧
      (s.pfRingOn = true → exec (.ringAllotWrite 512 v) s = .next s)) ∧
    (p < 512 → v % 256 ≤ 128 → s.allotOthers p + v % 256 ≤ 65536 → (s.part p).pstate = .free →
      ∃ t, exec (.ringAllotWrite p v) s = .next t ∧ s.FieldSet t F.TACK_PART_RINGS_ALLOT p 0 (v % 256)) ∧
    (p < 512 → 65536 < s.allotOthers p + v % 256 → exec (.ringAllotWrite p v) s = .next s) ∧
    (inst < pagesOf typ → s.pageIdle typ inst = false →
      (v % 2 = 1 → ∃ t, exec (.cfgLockWrite typ inst v) s = .next t ∧ s.OnlyWord t typ inst 0x30 ∧ t.locked typ inst = true) ∧
      (v % 2 = 0 → exec (.cfgLockWrite typ inst v) s = .next s)) ∧
    (p < 512 → (s.part p).pstate ≠ .free → ∀ w, w < 2 ^ 64 →
      ∃ t, exec (.journalFloorWrite p w) s = .next t ∧ t = { s with regs := t.regs } ∧
        t.reg64 RG.TACK_JRNL_FLOOR_LO RG.TACK_JRNL_FLOOR_HI p 0 = w ∧
        t.fld F.TACK_JRNL_STAT_HELD p 0 = (if (s.part p).long.largest ≤ t.jrnlFree p then 0 else s.fld F.TACK_JRNL_STAT_HELD p 0) ∧
        ∀ ty i o, regKey ty i o ≠ regKey 0x26 p 0x54 → regKey ty i o ≠ regKey 0x26 p 0x58 → regKey ty i o ≠ regKey 0x26 p 0x5C →
          t.regAt ty i o = s.regAt ty i o)

/-- R391, R417: enabling a ring that is not enabled sets EN, empties it (HEAD and TAIL 0, PHASE 1) and touches no register
outside its context; while it is enabled a write takes EN alone; beyond the allotment a write is ignored. R400: enabling
an event ring sets its HEAD and TAIL to 0 and its PHASE to 1. -/
def Claims.RingEnables : Prop :=
  ∀ (fn r e v : Nat) (s : State), s.canon = true → keysRise s.host.rings = true → keysRise s.host.evs = true → v < 2 ^ 32 →
    s.recovery = false →
    (fn ≤ 512 → r < 128 → s.allot fn ≤ r → exec (.ringCtxEnable fn r v) s = .next s) ∧
    (fn ≤ 512 → r < s.allot fn → r < 128 → s.rf F.RING_CTX_CFG_EN fn r = 0 → v / 2 ^ 31 = 1 →
      ∃ t, exec (.ringCtxEnable fn r v) s = .next t ∧ t.rf F.RING_CTX_CFG_EN fn r = 1 ∧
        t.rf F.RING_CTX_CFG_LOG2 fn r = v % 32 ∧ t.rf F.RING_CTX_CFG_TYPE fn r = v / 2 ^ 5 % 4 ∧
        t.rf F.RING_CTX_CFG_VECTOR fn r = v / 2 ^ 8 % 32 ∧
        t.rf F.RING_CTX_PTR_HEAD fn r = 0 ∧ t.rf F.RING_CTX_PTR_TAIL fn r = 0 ∧
        t.ringX (ringKey fn r) = { s.ringX (ringKey fn r) with phase := true, lost := 0 } ∧
        (∀ k, k ≠ ringKey fn r → t.ringX k = s.ringX k) ∧
        t = { s with regs := t.regs, host := { s.host with rings := t.host.rings } } ∧
        ∀ ty i o, o < 4096 → i < 65536 → ¬ (ty = 0x54 ∧ i = 4 * fn + r / 32 ∧ (o - 0x40) / 32 = r % 32 ∧ 0x40 ≤ o) →
          t.regAt ty i o = s.regAt ty i o) ∧
    (fn ≤ 512 → r < s.allot fn → r < 128 → s.rf F.RING_CTX_CFG_EN fn r = 1 → (s.part fn).leaving = false →
      ∃ t, exec (.ringCtxEnable fn r v) s = .next t ∧ s.FieldSet t F.RING_CTX_CFG_EN (4 * fn + r / 32) (r % 32) (v / 2 ^ 31 % 2)) ∧
    (e < 514 → (e < 512 → (s.part e).pstate = .live) → s.fld F.RING_EVT_CFG_EN e 0 = 0 → v / 2 ^ 31 = 1 →
      ∃ t, exec (.ringEvtEnable e v) s = .next t ∧ t.fld F.RING_EVT_CFG_EN e 0 = 1 ∧ t.fld F.RING_EVT_HEAD_HEAD e 0 = 0 ∧
        t.fld F.RING_EVT_TAIL_TAIL e 0 = 0 ∧ (tget t.host.evs e {}).phase = true ∧
        t = { s with regs := t.regs, host := { s.host with evs := t.host.evs } })

/-- R538: FREEZE written 1 changes no behaviour, only what reads return: each word of the page, but BLK_STAT and software's own
bits, reads for as long as it stands what it read then; FREEZE written 0 gives back the live values. R537, R542: a soft
reset that may act leaves every register of its page but LOCK at its reset value, and where slots belong to a partition
with a harness it does not act. (Log 131, 132: DEDUCED.) -/
def Claims.FreezeAndSoftReset : Prop :=
  ∀ (typ inst t : Nat) (s : State), s.canon = true → keysRise s.frozen = true → inst < pagesOf typ → s.recovery = false →
    let s1 : State := { s with mono := max s.mono t }
    (s.pageIdle typ inst = false → s.isFrozen typ inst = false →
      ∃ u, exec (.freezeWrite typ inst true t) s = .next u ∧ u = { s1 with regs := u.regs, frozen := u.frozen } ∧
        s.SameRegsBut u typ inst 0x10 ∧ u.isFrozen typ inst = true ∧
        ∀ (w : State) (off : Nat), off < 4096 → off % 4 = 0 → off ≠ 0x14 → softBits typ off = 0 → w.frozen = u.frozen →
          w.isFrozen typ inst = true → s1.liveWord typ inst off < 2 ^ 32 → w.readWord typ inst off = s1.liveWord typ inst off) ∧
    (s.pageIdle typ inst = false → s.isFrozen typ inst = true →
      ∃ u, exec (.freezeWrite typ inst false t) s = .next u ∧ u = { s1 with regs := u.regs, frozen := u.frozen } ∧
        s.SameRegsBut u typ inst 0x10 ∧ ∀ off, u.readWord typ inst off = u.liveWord typ inst off) ∧
    (s.mayReset typ inst = false → exec (.softReset typ inst) s = .next s) ∧
    (s.mayReset typ inst = true →
      ∃ u, exec (.softReset typ inst) s = .next u ∧
        (∀ off, off < 4096 → off / 4 ≠ 0xC → u.regAt typ inst off = regReset typ off) ∧
        u.locked typ inst = s.locked typ inst ∧ u.pantry = s.pantry ∧ u.larder = s.larder ∧ u.cellar = s.cellar ∧
        (typ = 0x20 → u = { s with regs := u.regs, frozen := u.frozen } ∧
          ∀ ty i o, o < 4096 → i < 65536 → (ty ≠ typ ∨ i ≠ inst) → u.regAt ty i o = s.regAt ty i o))

/-! ## The links of Bridle -/

/-- `t` is `s` but for the link layer of port `b`. -/
def OnlyPort (s t : State) (b : Nat) : Prop :=
  t = { s with brdl := { s.brdl with ports := t.brdl.ports } } ∧ ∀ c, c ≠ b → t.port c = s.port c

/-- R355, R357: on a port that is up a sound TXN packet whose sequence is E is accepted: its payload joins those to be acted
on and E goes up by one; one before E is discarded and acknowledged again; one after E, or one that a codeword or its CRC
spoils, is discarded and, once for each gap, answered with a NAK of E − 1. E and the payloads stay but for acceptance, and
no memory and no core changes. (Log 52, 54: DEDUCED.) -/
def Claims.LinkPacketsAccepted : Prop :=
  ∀ (b marked t : Nat) (pkt : Bytes) (s : State), s.canon = true → keysRise s.brdl.ports = true → b < 96 →
    s.linkRuns b = true →
    let x := s.port b
    let k := LPkt.decode pkt
    let kept := fun (u : State) => u.pantry = s.pantry ∧ u.larder = s.larder ∧ u.cellar = s.cellar ∧ u.cores = s.cores ∧
      u.parts = s.parts ∧ ∀ c, c ≠ b → u.port c = s.port c
    (marked = 0 → crcHolds pkt = true → k.typ = 1 → knownOp (fieldAt k.payload 0 1) = true → k.seq = x.e →
      ∃ u, exec (.linkPacketReceive b pkt marked t) s = .next u ∧ (u.port b).e = (x.e + 1) % 4096 ∧
        (u.port b).rx = x.rx ++ [(k.vc, k.payload)] ∧ kept u) ∧
    (marked = 0 → crcHolds pkt = true → k.typ = 1 → serialLt k.seq x.e 12 = true →
      ∃ u, exec (.linkPacketReceive b pkt marked t) s = .next u ∧ (u.port b).e = x.e ∧ (u.port b).rx = x.rx ∧
        (∃ a more, (u.port b).out = x.out ++ a :: more ∧ a.typ = 2 ∧ a.ack = some ((x.e + 4095) % 4096)) ∧ kept u) ∧
    (marked ≠ 0 ∨ crcHolds pkt = false →
      ∃ u, exec (.linkPacketReceive b pkt marked t) s = .next u ∧ (u.port b).e = x.e ∧ (u.port b).rx = x.rx ∧
        (u.port b).naked = true ∧ (x.naked = true → (u.port b).out = x.out) ∧
        (x.naked = false → ∃ a, (u.port b).out = x.out ++ [a] ∧ a.typ = 3 ∧ a.ack = some ((x.e + 4095) % 4096)) ∧ kept u) ∧
    (marked = 0 → crcHolds pkt = true → k.typ = 1 → k.seq ≠ x.e → serialLt k.seq x.e 12 = false →
      ∃ u, exec (.linkPacketReceive b pkt marked t) s = .next u ∧ (u.port b).e = x.e ∧ (u.port b).rx = x.rx ∧ kept u)

/-- R358: a sound ACK or NAK frees the packets it acknowledges, a NAK has every later one sent again in order, and each
takes the credits its packet returns; a CREDIT packet returns credits. R355: nothing else but the port changes, but for
the count of replays. (Log 52, 53: DEDUCED.) -/
def Claims.LinkAcknowledgements : Prop :=
  ∀ (b t a n : Nat) (pkt : Bytes) (s : State), s.canon = true → keysRise s.brdl.ports = true → b < 96 →
    s.linkRuns b = true → crcHolds pkt = true →
    let x := s.port b
    let k := LPkt.decode pkt
    let s1 : State := { s with mono := max s.mono t }
    let got := (x.cred.1 + k.credit.1, x.cred.2.1 + k.credit.2.1, x.cred.2.2 + k.credit.2.2)
    (k.typ = 2 → k.ack = some a → x.ackCount a = some n →
      ∃ u, exec (.linkAck b pkt t) s = .next u ∧ OnlyPort s1 u b ∧ (u.port b).e = x.e ∧ (u.port b).rx = x.rx ∧
        (∃ more, (u.port b).replay = x.replay.drop n ++ more ∧ (u.port b).out = x.out ++ more) ∧
        (x.waiting = [] → (u.port b).cred = got)) ∧
    (k.typ = 3 → k.ack = some a → x.ackCount a = some n →
      ∃ u again more, exec (.linkNak b pkt t) s = .next u ∧ u = { s1 with regs := u.regs, brdl := u.brdl } ∧
        s.SameRegsBut u 0x31 b (RG.BRDL_PORT_REPLAYS.off) ∧ (u.port b).e = x.e ∧ (u.port b).rx = x.rx ∧
        (u.port b).out = x.out ++ again ++ more ∧ again.map (fun (q : LPkt) => (q.seq, q.payload)) =
          (x.replay.drop n).map (fun q => (q.seq, q.payload))) ∧
    (k.typ = 0 → k.ack = none →
      ∃ u, exec (.linkCredit b pkt t) s = .next u ∧ OnlyPort s1 u b ∧ (u.port b).e = x.e ∧ (u.port b).rx = x.rx ∧
        (∃ more, (u.port b).replay = x.replay ++ more ∧ (u.port b).out = x.out ++ more) ∧
        (x.waiting = [] → (u.port b).cred = got))

/-- R357, R359, R350: the timers of a link that is up: accepted packets are acknowledged, and without any, freed buffers are
returned in a CREDIT packet; packets held for 10 µs are sent again; a retrain of 30 µs ends with the port up, its path not
dead and the packets before the peer's E freed; one of 2 ms takes the port down. The fourth timeout on end and an E that no
sent packet answers to begin a retrain. R382, R567: a port that nothing holds down comes up on a cable it can use and goes on
training on one it cannot; a cable that declares or draws too much loses its supply and its four ports are down.
(Log 55, 56, 58: DEDUCED.) -/
def Obligations.LinkTimersAndTraining : Prop :=
  ∀ (b t : Nat) (s : State), s.canon = true → keysRise s.brdl.ports = true → b < 96 →
    let x := s.port b
    let now := max s.mono t
    let s1 : State := { s with mono := now }
    let mems := fun (u : State) => u.pantry = s.pantry ∧ u.larder = s.larder ∧ u.cellar = s.cellar ∧ u.cores = s.cores
    (s.linkRuns b = true →
      (0 < x.unacked → ∃ u a, exec (.linkAckDelayExpiry b t) s = .next u ∧ OnlyPort s1 u b ∧
        (u.port b).out = x.out ++ [a] ∧ a.typ = 2 ∧ a.ack = some ((x.e + 4095) % 4096) ∧ (u.port b).unacked = 0) ∧
      (x.unacked = 0 → x.owe ≠ (0, 0, 0) → ∃ u a, exec (.linkAckDelayExpiry b t) s = .next u ∧ OnlyPort s1 u b ∧
        (u.port b).out = x.out ++ [a] ∧ a.typ = 0 ∧ a.credit = (min x.owe.1 1023, min x.owe.2.1 1023, min x.owe.2.2 1023)) ∧
      (x.replay ≠ [] → x.quietSince + 10000 ≤ now → x.timeouts < 3 →
        ∃ u again, exec (.linkReplayTimeout b t) s = .next u ∧ u = { s1 with regs := u.regs, brdl := u.brdl } ∧
          (u.port b).out = x.out ++ again ∧ again.map (fun (q : LPkt) => (q.seq, q.payload)) = x.replay.map (fun q => (q.seq, q.payload)) ∧
          (u.port b).timeouts = x.timeouts + 1 ∧ s.SameRegsBut u 0x31 b RG.BRDL_PORT_REPLAYS.off) ∧
      (x.replay ≠ [] → x.quietSince + 10000 ≤ now → 3 ≤ x.timeouts →
        ∃ u, exec (.linkReplayTimeout b t) s = .next u ∧ u.fld F.BRDL_PORT_STAT_STATE b 0 = 3 ∧ (u.port b).retrainAt = some now ∧
          (u.port b).replay.map (fun q => (q.seq, q.payload)) = x.replay.map (fun q => (q.seq, q.payload)) ∧ mems u)) ∧
    (∀ r e n, e < 4096 → x.retrainAt = some r → s.fld F.BRDL_PORT_STAT_STATE b 0 = 3 → r + 30000 ≤ now → now < r + 2000000 →
      x.ackCount ((e + 4095) % 4096) = some n →
      ∃ u more, exec (.linkRetrainComplete b e t) s = .next u ∧ s1.linkRuns b = false ∧ u.linkRuns b = true ∧
        u.fld F.BRDL_PORT_STAT_DEAD b 0 = 0 ∧ (u.port b).retrainAt = none ∧
        (u.port b).replay.map (fun q => q.seq) = (x.replay.drop n).map (fun q => q.seq) ++ more ∧ mems u) ∧
    (∀ r e, e < 4096 → x.retrainAt = some r → s.fld F.BRDL_PORT_STAT_STATE b 0 = 3 → r + 30000 ≤ now → now < r + 2000000 →
      x.ackCount ((e + 4095) % 4096) = none →
      ∃ u, exec (.linkRetrainComplete b e t) s = .next u ∧ u.fld F.BRDL_PORT_STAT_STATE b 0 = 3 ∧
        (u.port b).retrainAt = some now ∧ mems u) ∧
    (∀ r, x.retrainAt = some r → s.fld F.BRDL_PORT_STAT_STATE b 0 = 3 → r + 2000000 ≤ now →
      ∃ u, exec (.linkDown b t) s = .next u ∧ u.fld F.BRDL_PORT_STAT_STATE b 0 = 0 ∧ mems u ∧
        (s.brdl.txns.all (fun o => o.port != b) = true → (u.port b).replay = [])) ∧
    (∀ medium mw, s.portHeld b = false → s.portLive b = false → mw ≤ 3000 → medium < 2 →
      ∃ u, exec (.portLinkUp b medium mw t) s = .next u ∧ u.linkRuns b = true ∧
        u.fld F.BRDL_PORT_STAT_CR4 b 0 = (if medium = 0 then 1 else 0) ∧ (u.port b).e = 0 ∧ (u.port b).next = 0 ∧
        u.brdl.firstUp = some (s.brdl.firstUp.getD now) ∧ s.SameRegsBut u 0x31 b RG.BRDL_PORT_STAT.off ∧ mems u) ∧
    (∀ medium mw, s.portHeld b = false → s.portLive b = false → 3000 < mw →
      ∃ u, exec (.portLinkUp b medium mw t) s = .next u ∧ (b / 4) ∈ u.brdl.supplyOff ∧
        (∀ i, i < 4 → u.fld F.BRDL_PORT_STAT_STATE (b / 4 * 4 + i) 0 = 0) ∧ mems u) ∧
    (∀ medium mw, s.portHeld b = false → s.portLive b = false → mw ≤ 3000 → 2 ≤ medium →
      ∃ u, exec (.portLinkUp b medium mw t) s = .next u ∧ s1.FieldSet u F.BRDL_PORT_STAT_STATE b 0 1) ∧
    (∀ medium mw, s.portHeld b = true ∨ s.portLive b = true → exec (.portLinkUp b medium mw t) s = .next s1) ∧
    (∀ medium mw, s.recovery = false → (s.setCtrlBit 0x31 b 0 true).portHeld b = false → s.portLive b = false → mw ≤ 3000 → medium < 2 →
      ∃ u, exec (.portEnable b medium mw t) s = .next u ∧ u.linkRuns b = true ∧ bitOf (u.creg 0x31 b RG.BLK_CTRL) 0 = true ∧ mems u) ∧
    (s.recovery = false →
      ∃ u, exec (.portDisable b t) s = .next u ∧ u.fld F.BRDL_PORT_STAT_STATE b 0 = 0 ∧
        bitOf (u.creg 0x31 b RG.BLK_CTRL) 0 = false ∧ u.portHeld b = true ∧ mems u) ∧
    (∃ u, exec (.cableSupplyOverload (b / 4) t) s = .next u ∧ (b / 4) ∈ u.brdl.supplyOff ∧
        (∀ i, i < 4 → u.fld F.BRDL_PORT_STAT_STATE (b / 4 * 4 + i) 0 = 0) ∧ mems u) ∧
    (∀ f, s.brdl.firstUp = some f → f + 10 ^ 8 ≤ now → s.brdl.ready = false → s.brdl.bulk = [] →
      s.parts.all (fun e => e.2.xg.outbox.isEmpty) = true → s.brdl.ownq = [] →
      exec (.bridleStartDelayEnd t) s = .next { s1 with brdl := { s.brdl with ready := true } })

/-! ## Transactions of Bridle -/

/-- The request `q` of operation `op` at the front of a port may be performed now: the device is awake, no controller has to
be waited for, and it is its source's turn with nothing held behind it. -/
def TurnNow (s : State) (b op : Nat) (q : Txn) : Prop :=
  s.arrived b op = some q ∧ s.asleep = false ∧ s.accessWaits q = false ∧ (s.applier q.src).inc = q.inc ∧
    (s.applier q.src).next = q.wseq ∧ (s.applier q.src).held = [] ∧ (s.applier q.src).fences = []

/-- `u` has answered `q` with a status and data by the port it came by, and moved its source's turn on. -/
def Answered (s u : State) (b op : Nat) (q : Txn) (st : Nat) (data : Bytes) (own : Nat) : Prop :=
  u.brdl.ports = ((s.takeRx b op).reply b q st data own).brdl.ports ∧ (u.applier q.src).next = (q.wseq + 1) % 2 ^ 32

/-- R360-R362: a response is the request's operation plus 0x80, 0x85 for an atomic, from this node to the requester, under the
request's tag and attempt, and a port that is up with credit, slot and room sends it as its next numbered packet.
(Log 60: DEDUCED.) -/
def Obligations.ResponsesGoBack : Prop :=
  ∀ (b st own : Nat) (q : Txn) (data : Bytes) (s : State), s.canon = true → keysRise s.brdl.ports = true → b < 96 →
    s.linkRuns b = true →
    let x := s.port b
    let r : Txn := { op := if 5 ≤ q.op ∧ q.op ≤ 8 then 0x85 else q.op + 0x80, status := st, attempt := q.attempt, src := s.node,
                     dst := q.src, tag := q.tag, inc := s.fld F.BRDL_NODE_INC 0 0, addr := q.addr, data := data }
    1 ≤ q.op → q.op ≤ 11 → x.waiting = [] → x.replay.length < 1024 → (16 + r.encode.length + 63) / 64 ≤ x.cred.2.1 →
    s.slotFor b own = true →
    ∃ u k, u = s.reply b q st data own ∧ OnlyPort s u b ∧ (u.port b).out = x.out ++ [k] ∧ (u.port b).replay = x.replay ++ [k] ∧
      k.typ = 1 ∧ k.vc = 1 ∧ k.seq = x.next ∧ k.payload = r.encode ∧ (u.port b).next = (x.next + 1) % 4096

/-- R361, R366, R370, R371, R376: a READ that the regions allow is answered OK with the 128 bytes of its line; a WRITE writes
the bytes its mask names, and no other; an atomic stores its new value over the 8 bytes and is answered with the old one.
A region may lie in the larder, in the cellar or behind the cache. A request that no region allows is answered with its
refusing status, one that meets the device in retain HELD. (Log 61, 63, 65: DEDUCED.) -/
def Claims.BridleRequestsPerformed : Prop :=
  ∀ (b t r k : Nat) (q : Txn) (s : State), s.canon = true → keysRise s.brdl.ports = true → keysRise s.brdl.appl = true → b < 97 →
    let s1 : State := { s with mono := max s.mono t }
    let p := s.fld F.BRDL_RGN_CTRL_PART r 0
    let line := q.addr % 2 ^ 44 / 128 * 128
    let word := q.addr % 2 ^ 44 / 8 * 8
    let old := leNat (memRead s.larder k 8)
    let atomicDone := fun (u : State) (op : Nat) =>
      memRead u.larder k 8 = leBytes 8 (brdlAtomic q old) ∧ (∀ a, a < k ∨ k + 8 ≤ a → tget u.larder a 0 = tget s.larder a 0) ∧
        u.pantry = s.pantry ∧ u.cellar = s.cellar ∧ u.regs = s.regs ∧ u.cores = s.cores ∧ Answered s1 u b op q 0 (leBytes 8 old) p
    (s1.arrived b 1 = some q →
      (s1.asleep = true → ∃ u, exec (.brdlRead b none t) s = .next u ∧ u = ((s1.takeRx b 1).autoWake).reply b q 1 [] 512) ∧
      (s1.asleep = false → s1.accessWaits q = false →
        (∀ st, s1.judge q line 128 = .error st → st ≠ 6 →
          ∃ u, exec (.brdlRead b none t) s = .next u ∧ u = (s1.takeRx b 1).reply b q st [] 512) ∧
        (s1.judge q line 128 = .ok r → s1.regionLoc p (s1.regionAddr r line) 64 = some (.larder k) →
          s1.regionLoc p (s1.regionAddr r line + 64) 64 = some (.larder (k + 64)) → markRead s.larderMark 64 k 64 = false →
          markRead s.larderMark 64 (k + 64) 64 = false →
          ∃ u, exec (.brdlRead b none t) s = .next u ∧ u = (s1.takeRx b 1).reply b q 0 (memRead s.larder k 128) p ∧
            u = { s1 with brdl := u.brdl }) ∧
        (∀ l m v w c d, s1.judge q line 128 = .ok r → s1.regionLoc p (s1.regionAddr r line) 64 = some l →
          s1.regionLoc p (s1.regionAddr r line + 64) 64 = some m → (s1.takeRx b 1).readLoc p l 64 = (v, c, false) →
          v.readLoc p m 64 = (w, d, false) → exec (.brdlRead b none t) s = .next (w.reply b q 0 (c ++ d) p)))) ∧
    (TurnNow s1 b 2 q → q.op = 2 → s1.judge q line 128 = .ok r → q.data.length = 144 →
      (q.src = s.node ∨ s.fld F.TACK_JRNL_CFG_EN p 0 = 0) →
      (∀ i n, 0 < n → (i + n ≤ 64 ∨ 64 ≤ i ∧ i + n ≤ 128) → s1.regionLoc p (s1.regionAddr r line + i) n = some (.larder (k + i))) →
      ∃ u, exec (.brdlWrite b (none, t)) s = .next u ∧ Answered s1 u b 2 q 0 [] p ∧
        (∀ i, i < 128 → tget u.larder (k + i) 0 = if bitOf (fieldAt q.data 0 16) i then q.data.getD (16 + i) 0 else tget s.larder (k + i) 0) ∧
        (∀ a, a < k ∨ k + 128 ≤ a → tget u.larder a 0 = tget s.larder a 0) ∧ u.pantry = s.pantry ∧ u.cellar = s.cellar ∧
        u.regs = s.regs ∧ u.cores = s.cores) ∧
    (TurnNow s1 b 2 q → q.op = 2 → s1.judge q line 128 = .ok r → (s1.regionLoc p (s1.regionAddr r line) 64).isSome = true →
      (s1.regionLoc p (s1.regionAddr r line + 64) 64).isSome = true →
      let v := (s1.takeRx b 2).maskWrite p (s1.regionAddr r line) q.src q.wseq q.data
      ∃ u, exec (.brdlWrite b (none, t)) s = .next u ∧ Answered v u b 2 q 0 [] p ∧ u.larder = v.larder ∧ u.cellar = v.cellar ∧
        u.pantry = s.pantry ∧ u.cores = s.cores) ∧
    (∀ l v c, s1.judge q word 8 = .ok r → s1.regionLoc p (s1.regionAddr r word) 8 = some l →
      let stored := fun (u : State) (op : Nat) => (s1.takeRx b op).readLoc p l 8 = (v, c, false) →
        u.larder = (v.writeLoc p l (leBytes 8 (brdlAtomic q (leNat c))) false).larder ∧
        u.cellar = (v.writeLoc p l (leBytes 8 (brdlAtomic q (leNat c))) false).cellar ∧ u.pantry = s.pantry ∧ u.cores = s.cores ∧
        (u.applier q.src).next = (q.wseq + 1) % 2 ^ 32
      (TurnNow s1 b 5 q → q.op = 5 → ∃ u, exec (.atomicAdd b (none, t)) s = .next u ∧ stored u 5) ∧
      (TurnNow s1 b 6 q → q.op = 6 → ∃ u, exec (.atomicMin b (none, t)) s = .next u ∧ stored u 6) ∧
      (TurnNow s1 b 7 q → q.op = 7 → ∃ u, exec (.atomicMax b (none, t)) s = .next u ∧ stored u 7) ∧
      (TurnNow s1 b 8 q → q.op = 8 → ∃ u, exec (.atomicCas b (none, t)) s = .next u ∧ stored u 8)) ∧
    (s1.judge q word 8 = .ok r → s1.regionLoc p (s1.regionAddr r word) 8 = some (.larder k) → markRead s.larderMark 64 k 8 = false →
      (TurnNow s1 b 5 q → q.op = 5 → ∃ u, exec (.atomicAdd b (none, t)) s = .next u ∧ atomicDone u 5) ∧
      (TurnNow s1 b 6 q → q.op = 6 → ∃ u, exec (.atomicMin b (none, t)) s = .next u ∧ atomicDone u 6) ∧
      (TurnNow s1 b 7 q → q.op = 7 → ∃ u, exec (.atomicMax b (none, t)) s = .next u ∧ atomicDone u 7) ∧
      (TurnNow s1 b 8 q → q.op = 8 → ∃ u, exec (.atomicCas b (none, t)) s = .next u ∧ atomicDone u 8))

/-- R372, R373, R377, R378: an OWN_REQ from an allowed node joins its region's queue and, while the region has no owner, the
oldest requester becomes the owner; an OWN_RELEASE by the owner frees the region, one by another node is refused; an
OWN_GRANT ends the wait of the oldest request it answers and writes 1 to its notice; a FENCE is answered once everything of
its source before it has been performed, and waits otherwise; the last fragment of a message completes it and is
answered, one before it is not. (Log 67: DEDUCED.) -/
def Obligations.OwnershipFencesExchange : Prop :=
  ∀ (b t p : Nat) (q : Txn) (s : State), s.canon = true → keysRise s.brdl.ports = true → keysRise s.brdl.appl = true →
    keysRise s.brdl.ownq = true → b < 97 → s.chartered q.src q.op = true →
    let s1 : State := { s with mono := max s.mono t }
    let r := ownRegion q
    let mems := fun (u : State) => u.pantry = s.pantry ∧ u.larder = s.larder ∧ u.cellar = s.cellar ∧ u.cores = s.cores ∧ u.parts = s.parts
    (TurnNow s1 b 9 q → q.op = 9 → r < 1024 → s.fld F.BRDL_RGN_CTRL_VALID r 0 = 1 →
      s.fld F.BRDL_RGN_READERS_RD_LO r 0 ≤ q.src → q.src ≤ s.fld F.BRDL_RGN_READERS_RD_HI r 0 →
      (s.fld F.BRDL_RGN_CTRL_OWNED r 0 = 1 → (s.ownQueue r).length < 16 →
        ∃ u, exec (.ownReq b t) s = .next u ∧ Answered s1 u b 9 q 0 [] 512 ∧
          u.ownQueue r = s.ownQueue r ++ [(q.src, fieldAt q.data 0 8)] ∧
          u.fld F.BRDL_RGN_OWNER_QUEUED r 0 = (s.ownQueue r).length + 1 ∧ u.fld F.BRDL_RGN_CTRL_OWNED r 0 = 1 ∧ mems u) ∧
      (s.fld F.BRDL_RGN_CTRL_OWNED r 0 = 0 → s.ownQueue r = [] → s1.mayOpen 512 q.src 10 = true → q.src < 4096 →
        ∃ u, exec (.ownReq b t) s = .next u ∧ u.ownQueue r = [] ∧ u.fld F.BRDL_RGN_CTRL_OWNED r 0 = 1 ∧
          u.fld F.BRDL_RGN_OWNER_NODE r 0 = q.src ∧ (u.applier q.src).next = (q.wseq + 1) % 2 ^ 32 ∧
          (∃ o, u.brdl.txns = s.brdl.txns ++ [o] ∧ o.t.op = 10 ∧ o.t.dst = q.src ∧ o.for_ = .grant r) ∧ mems u)) ∧
    (TurnNow s1 b 11 q → q.op = 11 → r < 1024 → s.fld F.BRDL_RGN_CTRL_VALID r 0 = 1 →
      (s.fld F.BRDL_RGN_CTRL_OWNED r 0 = 1 → s.fld F.BRDL_RGN_OWNER_NODE r 0 = q.src → s.ownQueue r = [] →
        ∃ u, exec (.ownRelease b t) s = .next u ∧ Answered s1 u b 11 q 0 [] 512 ∧ u.fld F.BRDL_RGN_CTRL_OWNED r 0 = 0 ∧
          s.SameRegsBut u 0x35 r RG.BRDL_RGN_CTRL.off ∧ mems u) ∧
      (s.fld F.BRDL_RGN_OWNER_NODE r 0 ≠ q.src →
        ∃ u, exec (.ownRelease b t) s = .next u ∧ Answered s1 u b 11 q 3 [] 512 ∧ u.regs = s.regs ∧ mems u)) ∧
    (∀ w, TurnNow s1 b 10 q → q.op = 10 → s.brdl.ownWait.find? (fun w => w.1 == q.src && w.2.1 == fieldAt q.data 0 8) = some w →
      ∃ u, exec (.ownGrant b t) s = .next u ∧ Answered s1 u b 10 q 0 [] 512 ∧ u.brdl.ownWait = s.brdl.ownWait.erase w ∧
        u.larder = (s.notice w.2.2.1 w.2.2.2 1).larder ∧ u.pantry = s.pantry ∧ u.cores = s.cores) ∧
    (s1.arrived b 3 = some q → q.op = 3 → s.asleep = false → (s.applier q.src).inc = q.inc → (s.applier q.src).fences = [] →
      (serialLt (s.applier q.src).next q.wseq 32 = false →
        ∃ u, exec (.brdlFence b t) s = .next u ∧ u.brdl.ports = ((s1.takeRx b 3).reply b q 0 [] 512).brdl.ports ∧
          (u.applier q.src).fences = [] ∧ mems u) ∧
      (serialLt (s.applier q.src).next q.wseq 32 = true →
        ∃ u, exec (.brdlFence b t) s = .next u ∧ u.brdl.ports = (s1.takeRx b 3).brdl.ports ∧
          (u.applier q.src).fences = [(b, q)] ∧ mems u)) ∧
    (TurnNow s1 b 4 q → q.op = 4 → q.fragOff = 0 → s.xgDest q.src q.data = some p → s1.xgTreat p q.src q.data ≠ 2 →
      (q.last = true →
        ∃ u, exec (.brdlExchange b t) s = .next u ∧ Answered s1 u b 4 q 0 [] p ∧ u.brdl.msgs = s.brdl.msgs ++ [(p, q.src, q.data)] ∧ mems u) ∧
      (q.last = false →
        ∃ u, exec (.brdlExchange b t) s = .next u ∧ u.brdl.ports = (s1.takeRx b 4).brdl.ports ∧ u.brdl.msgs = s.brdl.msgs ∧
          (u.applier q.src).next = (q.wseq + 1) % 2 ^ 32 ∧ ⟨q.src, q.fragPart, q.data⟩ ∈ u.brdl.frags ∧ mems u))

/-- R366: a sequenced request of an earlier write sequence is not performed again, and answered OK, an atomic with the result
saved; one of a later sequence is held, whatever the operation; neither changes a memory or moves the turn on. -/
def Claims.RequestsTakeTheirTurn : Prop :=
  ∀ (b t op : Nat) (c : Instr) (q : Txn) (s : State), s.canon = true → keysRise s.brdl.ports = true → keysRise s.brdl.appl = true → b < 97 →
    (op, c) ∈ [(2, Instr.brdlWrite b (none, t)), (5, .atomicAdd b (none, t)), (6, .atomicMin b (none, t)), (7, .atomicMax b (none, t)), (8, .atomicCas b (none, t)),
      (9, .ownReq b t), (10, .ownGrant b t), (11, .ownRelease b t)] →
    let s1 : State := { s with mono := max s.mono t }
    let a := s.applier q.src
    let mems := fun (u : State) => u.pantry = s.pantry ∧ u.larder = s.larder ∧ u.cellar = s.cellar ∧ u.cores = s.cores ∧ u.parts = s.parts ∧
      u.regs = s.regs ∧ (u.applier q.src).next = a.next
    s1.arrived b op = some q → q.op = op → s1.asleep = false → s1.accessWaits q = false → a.inc = q.inc →
    (q.wseq ≠ a.next → serialLt q.wseq a.next 32 = true →
      ∃ u, exec c s = .next u ∧ mems u ∧ ∃ data, u.brdl.ports = ((s1.takeRx b op).reply b q 0 data 512).brdl.ports ∧
        (5 ≤ op → op ≤ 8 → ∀ v, a.saved.find? (fun e => e.1 == q.wseq) = some (q.wseq, v) → data = leBytes 8 v)) ∧
    (q.wseq ≠ a.next → serialLt q.wseq a.next 32 = false → a.held.all (fun h => h.2.wseq != q.wseq) = true → a.held.length < 64 →
      s.heldTotal < 16384 →
      ∃ u, exec c s = .next u ∧ mems u ∧ (u.applier q.src).held = a.held ++ [(b, q)] ∧ u.brdl.ports = (s1.takeRx b op).brdl.ports)

/-- Nothing waits for a tag. -/
def NoneWaits (s : State) : Prop :=
  s.brdl.bulk = [] ∧ s.brdl.ownq = [] ∧ s.parts.all (fun e => e.2.xg.outbox.isEmpty) = true

/-- A response `r` of operation `op` has come for the transaction `o` of this node, of the incarnation last seen there; no fence
has counted the transaction as answered, and the partition's generation is still its own. -/
def ResponseFor (s : State) (b op : Nat) (r : Txn) (o : OutTxn) : Prop :=
  s.arrived b op = some r ∧ o.fenced = false ∧ s.staleTxn o = false ∧ (tget s.brdl.seen r.src 0 = 0 ∨ tget s.brdl.seen r.src 0 = r.inc + 1) ∧
    s.brdl.txns.find? (fun o => o.t.tag == r.tag && o.t.dst == r.src && o.t.attempt == r.attempt && rspOp o.t.op == r.op &&
      o.heldAt.isNone) = some o ∧ r.op = op

/-- R361-R363, R377: an OK response ends its transaction, whose tag is free again, and has its effect: a load or atomic is
given its value, a store is acknowledged, the line read fills its copy's unit, a copy's write counts as acknowledged, a
fence counts every earlier write of this node there as answered, a release writes 2 to its notice. -/
def Claims.ResponsesComplete : Prop :=
  ∀ (b t : Nat) (r : Txn) (o : OutTxn) (f : Flit) (s : State), s.canon = true → keysRise s.brdl.ports = true → b < 97 →
    r.status = 0 → NoneWaits s →
    let s1 : State := { s with mono := max s.mono t }
    let free := fun (u : State) => ∀ x, x ∈ u.brdl.txns → x.t.tag ≠ r.tag
    let hd := f.srcs.headD (0, 0)
    let mems := fun (u : State) => u.pantry = s.pantry ∧ u.larder = s.larder ∧ u.cellar = s.cellar ∧ u.regs = s.regs ∧ u.parts = s.parts
    (ResponseFor s1 b 0x81 r o →
      (o.for_ = .load f → f.kind = 0 → ∃ u, exec (.readRsp b t) s = .next u ∧ free u ∧ mems u ∧ u.cores = s.cores ∧
        u.hall = (s1.respond f hd 1 (fieldAt r.data (f.addr % 128) f.width)).hall) ∧
      (∀ c key unit pos skip n a, o.for_ = .copyRead c key unit pos skip n a → ∃ u, exec (.readRsp b t) s = .next u ∧ free u ∧ mems u ∧
        u.hall = s.hall ∧ u.cores = (s.modCopy c key (fun y => { y with bufs := y.bufs.map (fun d =>
          if d.unit = unit then d.fill pos skip n r.data false else d) })).cores)) ∧
    (ResponseFor s1 b 0x82 r o →
      (o.for_ = .store f → ∃ u, exec (.writeAck b t) s = .next u ∧ free u ∧ mems u ∧ u.cores = s.cores ∧
        u.hall = (s1.respond f hd 3 0).hall) ∧
      (∀ c key a, o.for_ = .copyWrite c key a → ∃ u, exec (.writeAck b t) s = .next u ∧ free u ∧ mems u ∧ u.hall = s.hall ∧
        u.cores = (s.copyAck c key).cores) ∧
      (o.for_ = .posted → ∃ u, exec (.writeAck b t) s = .next u ∧ free u ∧ u = { s1 with brdl := u.brdl })) ∧
    (ResponseFor s1 b 0x83 r o → o.for_ = .fence → ∃ u, exec (.fenceRsp b t) s = .next u ∧ free u ∧ mems u ∧
      ∀ x, x ∈ u.brdl.txns → x.isWrite = true → x.t.dst = r.src → serialLt x.t.wseq o.t.wseq 32 = true → x.fenced = true) ∧
    (∀ p m, ResponseFor s1 b 0x84 r o → o.for_ = .exchange p m → ∃ u, exec (.exchangeAck b t) s = .next u ∧ free u ∧
      u = { s1 with brdl := u.brdl }) ∧
    (ResponseFor s1 b 0x85 r o → f.kind = 4 →
      (o.for_ = .load f → ∃ u, exec (.atomicRsp b t) s = .next u ∧ free u ∧ mems u ∧ u.cores = s.cores ∧
        u.hall = (s1.respond f hd 5 (fieldAt r.data 0 f.width)).hall) ∧
      (o.for_ = .store f → ∃ u, exec (.atomicRsp b t) s = .next u ∧ free u ∧ mems u ∧ u.cores = s.cores ∧
        u.hall = (s1.respond f hd 3 0).hall)) ∧
    (∀ p off, ResponseFor s1 b 0x89 r o → o.for_ = .own 1 p off f → ∃ u, exec (.ownAck b t) s = .next u ∧ free u ∧ mems u ∧
      u.hall = (s1.respond f hd 3 0).hall) ∧
    (∀ g, ResponseFor s1 b 0x8A r o → o.for_ = .grant g → ∃ u, exec (.grantAck b t) s = .next u ∧ free u ∧
      u = { s1 with brdl := u.brdl }) ∧
    (∀ p off, ResponseFor s1 b 0x8B r o → o.for_ = .own 2 p off f → ∃ u, exec (.releaseAck b t) s = .next u ∧ free u ∧
      u.larder = (s.notice p off 2).larder ∧ u.pantry = s.pantry ∧ u.hall = (s1.respond f hd 3 0).hall)

/-- R362, R363, R372, R377: a HELD answer keeps the transaction, to be sent again. One that refuses a scalar access stops its
partition, with ADDR_FAULT for a load or store and with 0x0300 plus the status for an atomic; one that refuses a copy's line
gives the copy ADDR_FAULT, and one that refuses an ownership message writes 3 to its notice. The response of a write that a
fence has counted only frees its tag. -/
def Claims.ResponsesHoldOrRefuse : Prop :=
  ∀ (b t op : Nat) (i : Instr) (r : Txn) (o : OutTxn) (f : Flit) (s : State), s.canon = true → keysRise s.brdl.ports = true → b < 97 →
    (op, i) ∈ [(0x81, Instr.readRsp b t), (0x82, .writeAck b t), (0x83, .fenceRsp b t), (0x84, .exchangeAck b t), (0x85, .atomicRsp b t),
      (0x89, .ownAck b t), (0x8A, .grantAck b t), (0x8B, .releaseAck b t)] →
    let s1 : State := { s with mono := max s.mono t }
    let refused := ResponseFor s1 b op r o ∧ 2 ≤ r.status ∧ r.status ≤ 6 ∧ NoneWaits s ∧ o.part < 512
    let live := (s.part o.part).pstate = .live ∧ (s.part o.part).stopped = none
    (ResponseFor s1 b op r o → r.status = 1 →
      ∃ u, exec i s = .next u ∧ u = { s1 with brdl := u.brdl } ∧
        u.brdl.txns = s.brdl.txns.map (fun x => if x.t.tag = r.tag then { x with heldAt := some s1.mono } else x)) ∧
    (refused → live → (o.for_ = .load f ∨ o.for_ = .store f) →
      ∃ u, exec i s = .next u ∧ u.larder = s.larder ∧ u.pantry = s.pantry ∧
        (u.part o.part).stopped = some (if f.kind = 4 then 0x0300 + r.status else St.ADDR_FAULT)) ∧
    (∀ c key unit pos skip n a, refused → o.for_ = .copyRead c key unit pos skip n a →
      ∃ u, exec i s = .next u ∧ u.parts = s.parts ∧ u.larder = s.larder ∧ u.pantry = s.pantry ∧
        u.cores = (s.modCopy c key (fun y => y.meet St.ADDR_FAULT a)).cores) ∧
    (∀ c key a, refused → o.for_ = .copyWrite c key a →
      ∃ u, exec i s = .next u ∧ u.parts = s.parts ∧ u.larder = s.larder ∧ u.pantry = s.pantry ∧
        u.cores = ((s.modCopy c key (fun y => y.meet St.ADDR_FAULT a)).copyAck c key).cores) ∧
    (∀ msg p off, refused → o.for_ = .own msg p off f →
      ∃ u, exec i s = .next u ∧ u.larder = (s.notice p off 3).larder ∧ u.pantry = s.pantry) ∧
    (∀ q : OutTxn, q.fenced = true →
      s1.arrived b op = some r → (tget s.brdl.seen r.src 0 = 0 ∨ tget s.brdl.seen r.src 0 = r.inc + 1) →
      s.brdl.txns.find? (fun o => o.t.tag == r.tag && o.t.dst == r.src && o.t.attempt == r.attempt && rspOp o.t.op == r.op &&
        o.heldAt.isNone) = some q → op ≠ 0x83 → r.op = op → r.status ≠ 1 → NoneWaits s →
      ∃ u, exec i s = .next u ∧ (∀ x, x ∈ u.brdl.txns → x.t.tag ≠ r.tag) ∧ u = { s1 with brdl := u.brdl })

/-- R362, R368, R377, R383: 20 µs after a HELD answer a transaction is sent again with the same attempt; 2 ms without a response
send it on the next path with the attempt increased; 50 ms end it, the loss of a load or store giving the vote SKIP and that of
a copy's write LINK_LOST; a write that a fence has counted only gives its tag back then. A region becomes valid
only where its target and range may be, and keeps its partition while it is valid. (Log 57, 66, 136: DEDUCED.) -/
def Obligations.TransactionTimersAndRegions : Prop :=
  ∀ (tag t : Nat) (o : OutTxn) (s : State), s.canon = true → tag < 65536 → o.t.tag = tag →
    s.txnOf tag = some o →
    let now := max s.mono t
    let s1 : State := { s with mono := now }
    let mems := fun (u : State) => u.pantry = s.pantry ∧ u.larder = s.larder ∧ u.cellar = s.cellar
    (∀ h, o.heldAt = some h → h + 20000 ≤ now →
      ∃ u, exec (.txnHeldRetry tag t) s = .next u ∧ u = { s1 with brdl := u.brdl } ∧
        u.brdl.txns = s.brdl.txns.map (fun x => if x.t.tag = tag
          then { o with heldAt := none, held := o.held + (now - h), sentAt := now } else x)) ∧
    (o.heldAt = none → o.fenced = false → o.sentAt + 2000000 ≤ now → now < o.first + o.held + 50000000 →
      ∃ u x, exec (.txnAttemptTimeout tag t) s = .next u ∧ mems u ∧ x ∈ u.brdl.txns ∧ x.t.tag = tag ∧
        x.t = { o.t with attempt := (o.t.attempt + 1) % 32 } ∧ x.sentAt = now ∧ x.heldAt = none ∧ x.first = o.first) ∧
    (o.heldAt = none → o.first + o.held + 50000000 ≤ now → NoneWaits s → o.part < 512 →
      let ended := fun (u : State) => exec (.txnLifetimeExpiry tag t) s = .next u ∧ mems u ∧ ∀ x, x ∈ u.brdl.txns → x.t.tag ≠ tag
      (∀ f, o.fenced = false → o.for_ = .load f ∨ o.for_ = .store f →
        ∃ u, ended u ∧ (u.part o.part).vote = max (s.part o.part).vote voteSkip ∧ u.cores = s.cores) ∧
      (∀ c key a, o.fenced = false → o.for_ = .copyWrite c key a →
        ∃ u, ended u ∧ u.parts = s.parts ∧ u.cores = ((s.modCopy c key (fun y => y.meet St.LINK_LOST a)).copyAck c key).cores) ∧
      (o.fenced = true → ∃ u, ended u ∧ u = { s1 with brdl := u.brdl })) ∧
    (∀ region v, region < 1024 → v < 2 ^ 32 → s.recovery = false → s.brdl.ownq = [] →
      let was := s.fld F.BRDL_RGN_CTRL_VALID region 0
      let w := withBits (v % 64) 24 16 (if was = 1 then s.fld F.BRDL_RGN_CTRL_PART region 0 else v / 2 ^ 16 % 2 ^ 9)
      let ok := (s.setReg RG.BRDL_RGN_CTRL region 0 w).regionOk region
      ∃ u, exec (.brdlRegionValidWrite region v) s = .next u ∧
        s.RegSet u RG.BRDL_RGN_CTRL region 0 (if was = 0 ∧ v % 2 = 1 ∧ ok = false then w - 1 else w))

/-! ## Exchange between modules -/

/-- R304, R306, R309: a message that is accepted leaves the list: a CLOSE counts its sender and raises the vote seen, a CHUNKS
message is placed in its receive slot, which is then in use; a malformed one, and a VOTE of 3, raise the local vote to SKIP.
One that is discarded is counted and changes nothing more but the event of a stray one. R318, R331: in a repeated attempt and
in a replay the message that the journal holds is accepted in its place. R308: a wait of the limit stops the partition with
EXCHANGE_STALL. -/
def Obligations.ExchangeMessages : Prop :=
  ∀ (p t : Nat) (q : Nat × Nat × Bytes) (m : Bytes) (s : State), s.canon = true → p < 512 →
    let s1 : State := { s with mono := max s.mono t }
    let x := s.part p
    let gone := fun (u : State) => u.brdl.msgs = s.brdl.msgs.erase q
    let taken := fun (u : State) (m : Bytes) =>
      let bad := msgVote m = 3 ∨ s1.messageBad p m = true
      (¬bad → (u.part p).vote = x.vote) ∧ (bad → (u.part p).vote = max x.vote voteSkip) ∧
        (u.part p).xg.maxVote = max x.xg.maxVote (min 2 (msgVote m)) ∧ u.pantry = s.pantry ∧ u.cores = s.cores ∧
        (msgKind m = 1 → u.larder = s.larder ∧ (u.part p).xg.closes = x.xg.closes ++ [(msgSrc m, min 2 (msgVote m))]) ∧
        (msgKind m ≠ 1 →
          u.larder = (s.setLard p (x.harness.cur.recvBase + 16384 * s.recvSlot p (msgSrc m) (msgId m)) (m.take 16384)).larder ∧
          (u.part p).xg.chunks = x.xg.chunks ++ [(msgSrc m, msgId m)] ∧
          (u.part p).xg.slotsUsed = x.xg.slotsUsed ++ [(msgSrc m, s.recvSlot p (msgSrc m) (msgId m), msgId m)])
    (s1.jrnlServed p 16384 = true →
      (x.replaying = false → (x.active = true → s1.xgServed p = none) →
        s1.brdl.msgs.find? (fun q => q.1 == p && s1.xgTreat p q.2.1 q.2.2 != 2) = some q →
        (s1.xgTreat p q.2.1 q.2.2 = 0 → ∃ u, exec (.xgMessageReceive p t) s = .next u ∧ gone u ∧ taken u q.2.2) ∧
        (s1.xgTreat p q.2.1 q.2.2 = 1 →
          ∃ u, exec (.xgMessageReceive p t) s = .next u ∧ gone u ∧ u = { s1 with brdl := u.brdl, regs := u.regs } ∧
            u.reg RG.BRDL_XG_DISCARDS p 0 = satN 32 (s.reg RG.BRDL_XG_DISCARDS p 0 + 1)) ∧
        (s1.xgTreat p q.2.1 q.2.2 = 3 →
          ∃ u, exec (.xgMessageReceive p t) s = .next u ∧ gone u ∧ SameData s u ∧
            u.reg RG.BRDL_XG_DISCARDS p 0 = satN 32 (s.reg RG.BRDL_XG_DISCARDS p 0 + 1))) ∧
      (x.replaying = false → x.active = true → s1.xgServed p = some m →
        ∃ u, exec (.xgMessageReceive p t) s = .next u ∧ u.brdl.msgs = s.brdl.msgs ∧ taken u m) ∧
      (x.replaying = true → s1.replayMessage p = some m →
        ∃ u, exec (.xgMessageReceive p t) s = .next u ∧ u.brdl.msgs = s.brdl.msgs ∧ taken u m)) ∧
    (s.xgWaits p = true → x.pstate = .live → x.stopped = none →
      x.xg.progress + max 1 (s.xgCfg p).timeout * 10 ^ 6 ≤ s1.mono →
      ∃ u, exec (.exchangeStallTimeout p t) s = .next u ∧ (u.part p).stopped = some St.EXCHANGE_STALL ∧ (u.part p).running = false ∧
        u.pantry = s.pantry ∧ u.larder = s.larder ∧ u.cellar = s.cellar)

/-! ## Rings and requests -/

/-- `u` holds the request of a ring with a status. -/
def Ended (u : State) (key st : Nat) : Prop := ∃ q, u.req key = some q ∧ q.status = some st

/-- R391: a doorbell within the ring of an enabled ring moves the TAIL of a command ring, the HEAD of another, and any other is
ignored. R410-R412: at the end of a grant the arbiter grants a requesting ring of highest effective priority, for its
descriptor or for one data burst; every ring that requested and lost counts one loss more, and the count of the ring granted
and of every ring of the deciding functions that did not request is 0. (Log 81: DEDUCED; 157: DESIGN CHOICE.) -/
def Claims.DoorbellsAndArbiter : Prop :=
  ∀ (fn r val port slot : Nat) (s : State), s.canon = true → keysRise s.host.rings = true →
    (fn ≤ 512 → r < 128 → val < 65536 →
      let ok := r < s.allot fn ∧ s.rf F.RING_CTX_CFG_EN fn r = 1 ∧ val < s.ringSize fn r
      (ok → s.rf F.RING_CTX_CFG_TYPE fn r = 0 →
        ∃ t, exec (.ringDoorbell fn r val) s = .next t ∧ s.FieldSet t F.RING_CTX_PTR_TAIL (4 * fn + r / 32) (r % 32) val) ∧
      (ok → s.rf F.RING_CTX_CFG_TYPE fn r ≠ 0 →
        ∃ t, exec (.ringDoorbell fn r val) s = .next t ∧ s.FieldSet t F.RING_CTX_PTR_HEAD (4 * fn + r / 32) (r % 32) val) ∧
      (¬ ok → exec (.ringDoorbell fn r val) s = .next s)) ∧
    (port < 2 → slot < 1024 →
      let a := s.arb port
      let busy := a.granted = true ∧ ∃ k, a.last = some k ∧ s.requesting (k / 128) (k % 128) = true
      let reqs := s.requesters port slot
      let idle := fun (t : State) => ∀ f q, f ∈ s.slotFns port slot → q < 128 → ringPort f q = port → (f, q) ∉ reqs →
        (t.ringX (ringKey f q)).lost = 0
      let kept := fun (t : State) => t = { s with host := t.host } ∧ t.host.mem = s.host.mem ∧ t.host.evs = s.host.evs
      (busy → exec (.arbiterDecision port slot) s = .next s) ∧
      (¬busy → reqs = [] → ∃ t, exec (.arbiterDecision port slot) s = .next t ∧ t.arb port = { a with granted := false } ∧ idle t ∧
        kept t) ∧
      (¬busy → reqs ≠ [] → ∃ t g, exec (.arbiterDecision port slot) s = .next t ∧ g ∈ reqs ∧
        (∀ q, q ∈ reqs → s.effPrio q.1 q.2 ≤ s.effPrio g.1 g.2) ∧
        (t.arb port).last = some (ringKey g.1 g.2) ∧ (t.ringX (ringKey g.1 g.2)).lost = 0 ∧
        (∀ q, q ∈ reqs → q ≠ g → (t.ringX (ringKey q.1 q.2)).lost = (s.ringX (ringKey q.1 q.2)).lost + 1) ∧ idle t ∧
        (s.dataWaits g.1 g.2 = false → (t.arb port).granted = true ∧ t.req (ringKey g.1 g.2) = s.req (ringKey g.1 g.2)) ∧
        (∀ q, s.dataWaits g.1 g.2 = true → s.req (ringKey g.1 g.2) = some q → (t.arb port).granted = false ∧
          t.req (ringKey g.1 g.2) = some { q with bursts := q.bursts + 1, hostAt := s.mono }) ∧ kept t))

/-- R391-R395, R497, R548: the ring that holds the grant takes its descriptor: HEAD goes up by one modulo the ring's size; a
descriptor of the expected sequence whose fields, opcode and rings are in order becomes the request in progress with
nothing yet decided, and the expected sequence goes up by one; one of another sequence stops the ring with SEQ_FAULT, a
reserved opcode or field, or a partition's opcode on a ring of the PF, ends it with OP_FAULT, a receipt ring that is not
there with RING_FAULT, the dark state with PARTITION_BUSY; without a completion ring nothing is left of it. In retain a
descriptor that works wakes the device and is not yet taken. -/
def Claims.DescriptorsTaken : Prop :=
  ∀ (fn r t : Nat) (desc : Bytes) (s : State), s.canon = true → keysRise s.host.rings = true → fn ≤ 512 → r < 128 →
    desc.length = 64 →
    let key := ringKey fn r
    let port := ringPort fn r
    let q := decodeReq desc
    let inst := 4 * fn + r / 32
    let exp := s.reg64 RG.RING_CTX_SEQ_LO RG.RING_CTX_SEQ_HI inst (r % 32)
    let power := s.fld F.GLB_POWER_STATE_STATE 0 0
    let next := fun (u : State) => u.rf F.RING_CTX_PTR_HEAD fn r = (s.rf F.RING_CTX_PTR_HEAD fn r + 1) % s.ringSize fn r ∧
      (u.arb port).granted = false ∧ SameData s u
    let answered := s.ringOn fn q.cring 1 = true
    let bad := reqReserved desc = true ∨ (fn = 512 ∧ q.works = true)
    let receipts := fn = 512 ∨ q.flags % 2 = 0 ∨ s.ringOn fn q.rring 2 = true
    s.requesting fn r = true → (s.arb port).granted = true → (s.arb port).last = some key →
    (power = 1 → q.works = true → s.fld F.GLB_POWER_STATE_CHANGING 0 0 = 0 →
      ∃ u, exec (.descriptorFetch fn r desc t) s = .next u ∧ u.fld F.GLB_POWER_STATE_CHANGING 0 0 = 1 ∧
        u.rf F.RING_CTX_PTR_HEAD fn r = s.rf F.RING_CTX_PTR_HEAD fn r ∧ SameData s u) ∧
    ((power ≠ 1 ∨ q.works = false) →
      (q.seq = exp → ¬bad → answered → receipts → (power ≠ 2 ∨ q.works = false) →
        ∃ u x, exec (.descriptorFetch fn r desc t) s = .next u ∧ next u ∧ u.req key = some x ∧ x.status = none ∧ x.started = false ∧
          x.op = q.op ∧ x.seq = q.seq ∧ x.arg0 = q.arg0 ∧ x.arg1 = q.arg1 ∧ x.len = q.len ∧ x.tag = q.tag ∧ x.cring = q.cring ∧
          x.bursts = 0 ∧ u.reg64 RG.RING_CTX_SEQ_LO RG.RING_CTX_SEQ_HI inst (r % 32) = (exp + 1) % 2 ^ 64 ∧
          u.rf F.RING_CTX_CFG_STOPPED fn r = 0) ∧
      (q.seq ≠ exp → ∃ u, exec (.descriptorFetch fn r desc t) s = .next u ∧ next u ∧ (answered → Ended u key St.SEQ_FAULT) ∧
        u.rf F.RING_CTX_CFG_STOPPED fn r = 1) ∧
      (q.seq = exp → bad → answered →
        ∃ u, exec (.descriptorFetch fn r desc t) s = .next u ∧ next u ∧ Ended u key St.OP_FAULT) ∧
      (q.seq = exp → ¬bad → answered → ¬receipts →
        ∃ u, exec (.descriptorFetch fn r desc t) s = .next u ∧ next u ∧ Ended u key St.RING_FAULT) ∧
      (q.seq = exp → ¬bad → answered → receipts → power = 2 → q.works = true →
        ∃ u, exec (.descriptorFetch fn r desc t) s = .next u ∧ next u ∧ Ended u key St.PARTITION_BUSY) ∧
      (¬answered → ∃ u, exec (.descriptorFetch fn r desc t) s = .next u ∧ next u ∧ u.req key = none))

/-- R391, R396: the record of a request that has ended is written at its completion ring's TAIL, carrying the ring's PHASE; TAIL
goes up by one modulo the ring's size, PHASE inverts where it wraps, and the request retires. (Log 78: DEDUCED.) -/
def Claims.CompletionRecords : Prop :=
  ∀ (fn r t : Nat) (q : Req) (s : State), s.canon = true → keysRise s.host.rings = true → keysRise s.host.mem = true → fn ≤ 512 →
    r < 128 → q.cring < 128 → s.req (ringKey fn r) = some q → q.status.isSome = true → s.ringOn fn q.cring 1 = true →
    s.ringSpace fn q.cring = true → s.ringServes fn q.cring = true →
    let tail := s.rf F.RING_CTX_PTR_TAIL fn q.cring
    let x := s.ringX (ringKey fn q.cring)
    let at_ := ringPort fn q.cring * 2 ^ 64 + (s.ringBase fn q.cring + 32 * tail) % 2 ^ 64
    ∃ u, exec (.completionRecordWrite fn r t) s = .next u ∧
      memRead u.host.mem at_ 32 = completionBytes q r x.phase ∧
      (∀ a, a < at_ ∨ at_ + 32 ≤ a → tget u.host.mem a 0 = tget s.host.mem a 0) ∧
      u.rf F.RING_CTX_PTR_TAIL fn q.cring = (tail + 1) % s.ringSize fn q.cring ∧
      (u.ringX (ringKey fn q.cring)).phase = (if (tail + 1) % s.ringSize fn q.cring = 0 then !x.phase else x.phase) ∧
      u.req (ringKey fn r) = none ∧
      u.host.msix = s.host.msix ++ (if bitOf q.flags 1 then [(ringIrqFn fn q.cring, s.rf F.RING_CTX_CFG_VECTOR fn q.cring)] else []) ∧
      SameData s u ∧ ((s.part fn).leaving = false → u.parts = s.parts)

/-- R394, R395: a QUERY of a PF ring writes the 64 bytes of its kind to host memory and ends OK; one of a partition writes them
through its host window, and ends with the window's status. A FENCE ends OK once every request its function took before
it has completed, and waits until then. (Log 76, 77: DEDUCED.) -/
def Claims.QueriesAndFences : Prop :=
  ∀ (fn r t : Nat) (q : Req) (s : State), s.canon = true → keysRise s.host.rings = true → keysRise s.host.mem = true → fn ≤ 512 → r < 128 →
    let s1 : State := { s with mono := max s.mono t }
    let key := ringKey fn r
    let at_ := ringPort fn r * 2 ^ 64 + q.arg1 % 2 ^ 64
    let sent := fun (u : State) (b : Bytes) => memRead u.host.mem at_ 64 = b ∧
      (∀ a, a < at_ ∨ at_ + 64 ≤ a → tget u.host.mem a 0 = tget s.host.mem a 0) ∧ Ended u key St.OK ∧ SameData s u
    (s.opReq fn r 8 = some q → q.len = 64 → s.ringServes fn r = true →
      (fn = 512 → q.arg0 = 0 → ∃ u, exec (.queryStatus fn r t) s = .next u ∧ sent u (s1.queryStatus fn)) ∧
      (fn = 512 → q.arg0 = 1 → ∃ u, exec (.queryTime fn r t) s = .next u ∧ sent u s1.queryTime) ∧
      (∀ w, fn < 512 → spaceOf q.arg1 = 5 →
        (q.arg0 = 0 → s1.devWrite fn .agent q.arg1 (s1.queryStatus fn) false = .ok w →
          ∃ u, exec (.queryStatus fn r t) s = .next u ∧ u = w.endReq key St.OK) ∧
        (q.arg0 = 1 → s1.devWrite fn .agent q.arg1 s1.queryTime false = .ok w →
          ∃ u, exec (.queryTime fn r t) s = .next u ∧ u = w.endReq key St.OK)) ∧
      (fn < 512 → spaceOf q.arg1 ≠ 5 → q.arg0 = 0 →
        ∃ u, exec (.queryStatus fn r t) s = .next u ∧ Ended u key St.ADDR_FAULT ∧ SameData s u)) ∧
    (s.opReq fn r 8 = some q → q.len = 64 → q.arg0 = 1 → s.ringServes fn r = false →
      ∃ u, exec (.queryTime fn r t) s = .next u ∧ (∃ x, u.req key = some x ∧ x.status = none) ∧ SameData s u ∧ u.host.mem = s.host.mem) ∧
    (s.opReq fn r 8 = some q → (1 < q.arg0 ∨ q.len ≠ 64) → ∃ u, exec (.queryStatus fn r t) s = .next u ∧ Ended u key St.OP_FAULT ∧ SameData s u) ∧
    (s.opReq fn r 9 = some q →
      (s.fenceClear fn q.taken = true → ∃ u, exec (.hostFence fn r t) s = .next u ∧ Ended u key St.OK ∧ SameData s u) ∧
      (s.fenceClear fn q.taken = false → exec (.hostFence fn r t) s = .next s1))

/-! ## Loading, running and keeping a partition's work -/

/-- R248, R249: a load refused at orders 1 to 6 ends with its status and leaves memories, cores, partition and harness as they
were; one whose second pass gives another digest ends with DIGEST_MISMATCH and leaves the partition without a harness; R337: while a
snapshot is open it waits; one that goes through ends OK with the image's harness loaded, step and attempt 0, and the partition not stopped.
(Log 36, 37: DEDUCED.) -/
def Claims.LoadsEnd : Prop :=
  ∀ (p r t : Nat) (img img2 : Bytes) (q : Req) (s : State), s.canon = true → keysRise s.host.rings = true → p < 512 → r < 128 →
    let s1 : State := { s with mono := max s.mono t }
    let key := ringKey p r
    let im := (padTo img q.len).take q.len
    let im2 := (padTo img2 q.len).take q.len
    let same := sha256 (im2.take (Img.size im)) = (Img.harness im).digest
    s.opReq p r 1 = some q → s.portServes p = true →
    ((s.part p).long.snap ≠ none → exec (.loadHarness p r img img2 t) s = .next s1) ∧
    ((s.part p).long.snap = none → s.flushServed p = true →
    (∀ st, s1.loadRefusal p q.arg0 q.len im = some st →
      ∃ u, exec (.loadHarness p r img img2 t) s = .next u ∧ Ended u key st ∧ u.fld F.TACK_HARN_LOAD_STATUS_STATUS p 0 = st % 2 ^ 16 ∧
        SameData s u ∧ u.part p = s.part p) ∧
    (s1.loadRefusal p q.arg0 q.len im = none →
      (¬ same → ∃ u, exec (.loadHarness p r img img2 t) s = .next u ∧ Ended u key St.DIGEST_MISMATCH ∧ (u.part p).harn = none ∧
        u.fld F.TACK_HARN_LOAD_STATUS_STATUS p 0 = St.DIGEST_MISMATCH) ∧
      (same → ∃ u, exec (.loadHarness p r img img2 t) s = .next u ∧ Ended u key St.OK ∧ (u.part p).harn = some (Img.harness im) ∧
        (u.part p).step = 0 ∧ (u.part p).attempt = 0 ∧ (u.part p).stopped = none ∧
        u.fld F.TACK_HARN_LOAD_STATUS_STATUS p 0 = St.OK)))

/-- R261, R394, R395: RUN_STEPS of a partition with a harness and no step running begins with the variant of the select word,
and names its ring as the one whose request runs; a partition without a harness refuses it with PARTITION_BUSY, one that is
stopped with its stop status, 0 steps are an OP_FAULT, and a select word that names no variant NO_VARIANT; while a step runs it
waits. (Log 39: DEDUCED.) -/
def Claims.RunStepsBegins : Prop :=
  ∀ (p r t : Nat) (q : Req) (s u : State), s.canon = true → keysRise s.host.rings = true → p < 512 → r < 128 →
    let s1 : State := { s with mono := max s.mono t }
    let key := ringKey p r
    let x := s.part p
    s.opReq p r 2 = some q → q.started = false →
    (x.stopped = none → x.harn.isSome = true → q.arg0 ≠ 0 → x.stepRuns = false → s1.selectVariant p = (u, true) →
      ∃ t', exec (.runSteps p r t) s = .next t' ∧ (t'.part p).run = some key ∧ (t'.part p).variant = (u.part p).variant ∧
        (t'.part p).select = (u.part p).select ∧ t'.req key = some { q with started := true } ∧ (∀ k, k ≠ p → t'.part k = s.part k) ∧
        SameData s t' ∧ t'.regs = s.regs) ∧
    (∀ st, x.stopped = some st → ∃ t', exec (.runSteps p r t) s = .next t' ∧ Ended t' key st ∧ SameData s t') ∧
    (x.stopped = none → x.harn = none → ∃ t', exec (.runSteps p r t) s = .next t' ∧ Ended t' key St.PARTITION_BUSY ∧ SameData s t') ∧
    (x.stopped = none → x.harn.isSome = true → q.arg0 = 0 → ∃ t', exec (.runSteps p r t) s = .next t' ∧ Ended t' key St.OP_FAULT ∧ SameData s t') ∧
    (x.stopped = none → x.harn.isSome = true → q.arg0 ≠ 0 → x.stepRuns = true → exec (.runSteps p r t) s = .next s1) ∧
    (x.stopped = none → x.harn.isSome = true → q.arg0 ≠ 0 → x.stepRuns = false → s1.selectVariant p = (u, false) →
      ∃ t', exec (.runSteps p r t) s = .next t' ∧ Ended t' key St.NO_VARIANT ∧ SameData s t')

/-- R394: a COPY from a host window writes the host's bytes at its destination inside the partition, and no other byte there; one
to a host window writes the bytes it reads to host memory, and changes nothing inside; both end OK. One that reads a marked
line ends with DATA_UE, one whose destination is refused with the refusing status, and one whose ends are not one in the
host and one inside with ADDR_FAULT and no byte written. A COPY begins once its port and the controllers behind its range
serve. (Log 40, 76: DEDUCED.) -/
def Obligations.HostCopies : Prop :=
  ∀ (p r t k bus port : Nat) (ext : Bytes) (q : Req) (s : State), s.canon = true → keysRise s.host.rings = true →
    keysRise s.host.mem = true → p < 512 → r < 128 →
    let s1 : State := { s with mono := max s.mono t }
    let key := ringKey p r
    let bytes := (padTo ext q.len).take q.len
    s.opReq p r 3 = some q → 0 < q.len →
    (copyEndsOk q.arg0 q.arg1 = false → ∃ u, exec (.hostCopy p r (ext, none) t) s = .next u ∧ Ended u key St.ADDR_FAULT ∧ SameData s u ∧
      (q.flags % 2 = 0 → u.host.mem = s.host.mem)) ∧
    (s.portServes p = true → spaceOf q.arg0 = 5 → copyEndsOk q.arg0 q.arg1 = true →
      s1.resolve p .agent q.arg0 q.len = .ok (.host port bus) → s1.rangeFree p .agent q.arg1 q.len true = true →
      s1.jrnlServed p q.len = true →
      (spaceOf q.arg1 = 2 → q.arg1 % 64 + q.len ≤ 64 → s1.resolve p .agent q.arg1 q.len = .ok (.larder k) →
        ∃ u, exec (.hostCopy p r (ext, none) t) s = .next u ∧ Ended u key St.OK ∧ memRead u.larder k q.len = bytes ∧
          (∀ a, a < k ∨ k + q.len ≤ a → tget u.larder a 0 = tget s.larder a 0) ∧ u.pantry = s.pantry ∧ u.cores = s.cores) ∧
      (∀ w, s1.hostPut p q.arg1 bytes false = .ok w →
        ∃ u, exec (.hostCopy p r (ext, none) t) s = .next u ∧ Ended u key St.OK ∧ u.larder = w.larder ∧ u.pantry = w.pantry ∧
          u.cores = s.cores ∧ (s.fld F.TACK_JRNL_CFG_EN p 0 = 0 → u.cellar = w.cellar)) ∧
      (∀ e, s1.hostPut p q.arg1 bytes false = .error e →
        ∃ u, exec (.hostCopy p r (ext, none) t) s = .next u ∧ Ended u key e ∧ SameData s u)) ∧
    (s.portServes p = true → spaceOf q.arg1 = 5 → copyEndsOk q.arg0 q.arg1 = true → q.arg0 % 64 + q.len ≤ 64 → q.arg1 % 64 + q.len ≤ 64 →
      s1.resolve p .agent q.arg1 q.len = .ok (.host port bus) → s1.rangeFree p .agent q.arg0 q.len false = true →
      let at_ := port * 2 ^ 64 + bus % 2 ^ 64
      ∀ v bs m, s1.devRead p .agent q.arg0 q.len = .ok (v, bs, m) →
      (m = false → q.flags % 2 = 0 →
        ∃ u, exec (.hostCopy p r (ext, none) t) s = .next u ∧ Ended u key St.OK ∧ memRead u.host.mem at_ q.len = bs ∧
          (∀ a, a < at_ ∨ at_ + q.len ≤ a → tget u.host.mem a 0 = tget s.host.mem a 0) ∧ SameData v u) ∧
      (m = true → ∃ u, exec (.hostCopy p r (ext, none) t) s = .next u ∧ Ended u key St.DATA_UE ∧ SameData v u))

/-- R186, R320, R324, R336, R338: SNAPSHOT, CHECKPOINT, RESTORE and REPLAY end with PARTITION_BUSY while no harness is loaded or a
step runs. A SNAPSHOT that may begin holds the step number and length it was asked for until its stream has ended, when
SNAPSHOT_DONE closes it with the stream's status; a CHECKPOINT, before which the cache is written back, without export and
that fits, makes the slot it writes valid at the current step, records the parities, and ends OK. (Log 42, 43: DEDUCED.) -/
def Claims.SnapshotsAndCheckpoints : Prop :=
  ∀ (p r t : Nat) (ext img : Bytes) (q : Req) (s : State), s.canon = true → keysRise s.host.rings = true → p < 512 → r < 128 →
    let s1 : State := { s with mono := max s.mono t }
    let key := ringKey p r
    let x := s.part p
    (q.started = false → x.longOk = false → x.long.snap = none →
      (s.opReq p r 4 = some q → ∃ u, exec (.snapshot p r ext t) s = .next u ∧ Ended u key St.PARTITION_BUSY ∧ SameData s u) ∧
      (s.opReq p r 5 = some q → s.flushServed p = true → ∃ u, exec (.checkpoint p r ext t) s = .next u ∧
        Ended u key St.PARTITION_BUSY ∧ u.cellar = (s1.flushCache p).cellar ∧ u.pantry = s.pantry ∧ u.larder = s.larder ∧ u.cores = s.cores) ∧
      (s.opReq p r 6 = some q → ∃ u, exec (.restore p r ext img t) s = .next u ∧ Ended u key St.PARTITION_BUSY ∧ SameData s u) ∧
      (s.opReq p r 7 = some q → ∃ u, exec (.replay p r ext img t) s = .next u ∧ Ended u key St.PARTITION_BUSY ∧ SameData s u)) ∧
    (∀ (a : LongParam) ranges body, s.opReq p r 4 = some q → q.started = false → x.longOk = true → s1.hostWaits p [q.arg0, a.addr] = false →
      s1.longParam p q.arg0 ext = .ok a → x.long.snap = none → s1.longRanges p a true = .ok ranges → (spaceOf a.addr = 4 ∨ spaceOf a.addr = 5) →
      s1.readRanges p (x.rangeSegs ranges) = .ok body →
      let n := ((x.rangeSegs ranges).map (fun g => ((g.map (fun q => q.2)).sum + 255) / 256 * 256)).sum
      n + 64 ≤ a.limit →
      ∃ u g, exec (.snapshot p r ext t) s = .next u ∧ (u.part p).long.snap = some g ∧ g.step = x.step ∧ g.dest = a.addr ∧ g.key = key ∧
        g.len = n ∧ u.req key = some { q with started := true }) ∧
    (∀ g b, x.long.snap = some g → s.bulk g.key = some b → b.ended = true → s.opReq (g.key / 128) (g.key % 128) 4 ≠ none →
      ∃ u, exec (.snapshotDone p t) s = .next u ∧ (u.part p).long.snap = none ∧ u.bulk g.key = none ∧
        Ended u g.key (b.fault.getD St.OK) ∧ SameData s u ∧ (u.part p).vote = x.vote) ∧
    (∀ (a : LongParam) ranges body, s.opReq p r 5 = some q → q.started = false → x.longOk = true → s1.hostWaits p [q.arg0] = false →
      s.flushServed p = true → s.cellarServes p = true → s1.longParam p q.arg0 ext = .ok a → a.export_ = false →
      s1.longRanges p a false = .ok ranges → s.fld F.TACK_CKPT_AREA_SIZE_GIB p 0 ≠ 0 →
      let slot := match a.slot, (s1.flushCache p).validSlots p with
        | some i, _ => i
        | none, latest :: _ => 1 - latest
        | none, [] => 0
      (let n := ((x.rangeSegs ranges).map (fun g => ((g.map (fun q => q.2)).sum + 255) / 256 * 256)).sum
       s.ckptFits p slot (4096 + n) = true) →
      s1.readRanges p (x.rangeSegs ranges) = .ok body →
      ∃ u c, exec (.checkpoint p r ext t) s = .next u ∧ Ended u key St.OK ∧ (u.part p).ckSlot slot = c ∧ c.valid = true ∧ c.stale = false ∧
        c.step = x.step ∧ c.parity = x.parities ∧ (u.part p).ckSlot (1 - slot) = x.ckSlot (1 - slot) ∧ u.pantry = s.pantry)

/-- R328, R329, R332: a RESTORE without import ends with CKPT_NONE while no slot is valid, and with the slot it chooses makes the
image's step the partition's, and ends OK; so does one that imports, of at most LIMIT bytes, an intact image of this harness
with its pairs; a REPLAY that may begin holds the journal's entries of its range, and one with nothing left to run ends,
its result written; so does one whose partition has stopped. (Log 44: DEDUCED.) -/
def Claims.RestoresAndReplays : Prop :=
  ∀ (p r t : Nat) (ext img : Bytes) (q : Req) (a : LongParam) (s : State), s.canon = true → keysRise s.host.rings = true → p < 512 → r < 128 →
    let s1 : State := { s with mono := max s.mono t }
    let key := ringKey p r
    let x := s.part p
    (s.opReq p r 6 = some q → x.longOk = true → x.long.snap = none → s1.hostWaits p [q.arg0] = false → s1.longParam p q.arg0 ext = .ok a →
      s.cellarServes p = true →
      let im := img.take a.limit
      let restored := fun (u : State) (step : Nat) => exec (.restore p r ext img t) s = .next u ∧ Ended u key St.OK ∧
        (u.part p).step = step ∧ (u.part p).attempt = 0 ∧ (u.part p).stopped = none
      (a.import_ = false → s.validSlots p = [] → a.slot = none →
        ∃ u, exec (.restore p r ext img t) s = .next u ∧ Ended u key St.CKPT_NONE ∧ SameData s u ∧ u.part p = s.part p) ∧
      (∀ v i hdr cs body, a.import_ = false →
        s1.chooseSlot p ((a.slot.map (fun i => [i])).getD (s1.validSlots p)) = (v, .ok (i, hdr, cs, body)) →
        ∃ u, restored u (fieldAt hdr 8 8)) ∧
      (∀ v st, a.import_ = false → s1.chooseSlot p ((a.slot.map (fun i => [i])).getD (s1.validSlots p)) = (v, .error st) →
        ∃ u, exec (.restore p r ext img t) s = .next u ∧ Ended u key st ∧ SameData s u ∧ (u.part p).step = x.step) ∧
      (a.import_ = true → s1.hostWaits p [a.addr] = false → (spaceOf a.addr = 4 ∨ spaceOf a.addr = 5) →
        slice im 0x10 32 = padTo x.harness.digest 32 →
        ckptIntact (im.take 4096) 0xFF = true → bitOf (fieldAt im 7 1) 0 = true →
        (let n := fieldAt (im.take 4096) 0x38 8
         let body := slice im 4096 n
         body.length = n ∧ lineDigest 0 (body.take (halfLen n)) = fieldAt (im.take 4096) 0x40 8 ∧
           lineDigest (halfLen n) (body.drop (halfLen n)) = fieldAt (im.take 4096) 0x48 8) →
        ∃ u, restored u (fieldAt (im.take 4096) 8 8))) ∧
    (s.opReq p r 7 = some q → q.started = false → x.longOk = true → x.stopped = none → s1.hostWaits p [q.arg0] = false →
      s1.longParam p q.arg0 ext = .ok a → (a.addr = 0 ∨ (s1.hostWaits p [a.addr] = false ∧ (spaceOf a.addr = 4 ∨ spaceOf a.addr = 5))) →
      let raw := if a.addr = 0 then s.ownJournal p else parseJournal (img.length / 64) (img.take a.limit)
      let all := sortBy (fun (a b : JEnt) => decide (a.seq ≤ b.seq)) raw
      let es := rangeEntries a.fromStep a.toStep (liveEntries all)
      s.replayRefusal p a all es = none →
      ∃ u g, exec (.replay p r ext img t) s = .next u ∧ (u.part p).long.replay = some g ∧ g.ents = es ∧ g.to_ = a.toStep ∧
        g.result = a.result ∧ g.done = 0 ∧ u.req key = some { q with started := true }) ∧
    (∀ g w st, s.opReq p r 7 = some q → q.started = true → x.long.replay = some g → g.key = key → s1.hostWaits p [g.result] = false →
      s1.devWrite p .agent g.result (replayRecord st g) false = .ok w →
      let ended := fun (u : State) (code : Nat) => exec (.replay p r ext img t) s = .next u ∧ (u.part p).long.replay = none ∧
        Ended u key code ∧ u.larder = w.larder ∧ (q.flags % 2 = 0 → u.host.mem = w.host.mem)
      (st = (if g.diff.isSome then 1 else 0) → x.stopped = none → x.running = false →
        (x.replayOpen = none ∨ (g.stopOn = true ∧ g.diff.isSome = true)) → x.tail = none → x.migrating = 0 → ∃ u, ended u St.OK) ∧
      (∀ code, st = 2 → x.stopped = some code → ∃ u, ended u code))

/-! ## The Curriers -/

/-- Job `job` of a partition has done its work. -/
def JobWorked (u : State) (p job : Nat) : Prop := ∃ q, q ∈ (u.part p).jobs ∧ q.job = job ∧ q.worked = true

/-- R282-R287: a matrix job that may start writes the matrix its rule gives into its output tensor, rounded into the format, and
with no stitching failure nothing else but open values in the scratch, the windows and the accumulators it holds; its
work is then done, as it is after failures. A job whose descriptors do not fit stops the partition. (Log 23: DESIGN CHOICE;
26: DEDUCED.) -/
def Obligations.MatrixJobs : Prop :=
  ∀ (p job : Nat) (s : State), s.canon = true → p < 512 →
    let j := (s.part p).job job
    let s0 := s.modPart p (fun x => x.modJob job (fun q => { q with started := true }))
    (∀ (v w : State) (d : WDesc) (rnd : Nat) (m : Mat), s0.matrixJob p j = .ok (v, d, rnd, m) → v.putElems p d rnd 0 m.flatten = .ok w →
      keysRise w.parts = true → j.pwin + 2 ^ 19 ≤ 2 ^ 21 →
      let shape := match s0.desc p j.source with
        | some i => (i.rows, i.k)
        | none => (0, 0)
      let done := fun (u : State) => JobWorked u p job ∧
        u.parts = ((w.leaveOpen p j (j.scratchLen shape.1 shape.2)).modPart p (fun x => x.modJob job (fun q => { q with worked := true }))).parts ∧
        u.cellar = (w.leaveOpen p j (j.scratchLen shape.1 shape.2)).cellar ∧ u.larder = (w.leaveOpen p j (j.scratchLen shape.1 shape.2)).larder ∧
        (∀ c, c ∉ (s.part p).heldCores j → u.core c = w.core c) ∧
        (∀ c off, c ∉ (s.part p).heldCores j → off < 2 ^ 21 → tget u.pantry (pantryKey c off) 0 = tget w.pantry (pantryKey c off) 0)
      (s.jobStarts p job 1 = true → ∃ u, exec (.currierOrtho p job []) s = .next u ∧ done u) ∧
      (s.jobStarts p job 2 = true → ∃ u, exec (.kronStats p job []) s = .next u ∧ done u) ∧
      (s.jobStarts p job 3 = true → ∃ u, exec (.kronRoot p job []) s = .next u ∧ done u) ∧
      (s.jobStarts p job 4 = true → ∃ u, exec (.kronApply p job []) s = .next u ∧ done u)) ∧
    (∀ fails, ∀ i ∈ [(1, Instr.currierOrtho p job fails), (2, Instr.kronStats p job fails), (3, Instr.kronRoot p job fails),
        (4, Instr.kronApply p job fails)], s.jobStarts p job i.1 = true →
      (∀ e, s0.matrixJob p j = .error e → (s.part p).pstate = .live →
        ∃ u, exec i.2 s = .next u ∧ (u.part p).stopped = some e.1 ∧ SameData s { u with cores := s.cores }) ∧
      (∀ v d rnd m w, s0.matrixJob p j = .ok (v, d, rnd, m) → fails ≠ [] →
        (v.freeBytes (d.rows * d.cols * wideBytes d.fmt)).1.devWrite p .agent d.base (v.freeBytes (d.rows * d.cols * wideBytes d.fmt)).2 false = .ok w →
        ∃ u, exec i.2 s = .next u ∧ JobWorked u p job))

/-- R296, R301, R302: GRADCHECK writes the pair of its chunks' square sum into its slot, and raises the vote to SKIP where an
element is poisoned or not finite; PACK queues its messages, each of the encodings of its chunks, for every participant,
writes the residuals and the partial, and sends what can go. What their tensors do not allow stops the partition.
(Log 25, 27, 28, 29: DEDUCED.) -/
def Claims.ChecksAndPacks : Prop :=
  ∀ (p job : Nat) (s : State), s.canon = true → p < 512 →
    let j := (s.part p).job job
    let s0 := s.modPart p (fun x => x.modJob job (fun q => { q with started := true }))
    let stop := fun (c : Instr) (st : Nat) => (s.part p).pstate = .live → ∃ u, exec c s = .next u ∧ (u.part p).stopped = some st
    (s.jobStarts p job 5 = true →
      (∀ (d : Desc) (v : State) (hl : Word × Word), s0.desc p j.inp = some d → s0.gradChunks p j d = .ok (v, hl) → keysRise v.parts = true →
        ∃ u, exec (.gradcheck p job) s = .next u ∧ JobWorked u p job ∧ u.larder = (v.putPartial p j hl).larder ∧
          (u.part p).vote = (v.part p).vote ∧ u.pantry = v.pantry ∧ u.cores = v.cores) ∧
      (∀ (d : Desc) (v : State) (xs : List (Machine.Num × Bool)), s0.desc p j.inp = some d → j.chunkCount = 1 →
        s0.chunk p d j.chunkFirst = .ok (v, xs) →
        s0.gradChunks p j d = .ok (if xs.any (fun x => x.2 || !x.1.isFin) then v.raiseVote p voteSkip else v,
          xs.foldl (fun a x => pairAddSq a x.1) ((0, 0) : Word × Word))) ∧
      (s0.desc p j.inp = none → stop (.gradcheck p job) St.FORMAT_FAULT) ∧
      (∀ d e, s0.desc p j.inp = some d → s0.gradChunks p j d = .error e → stop (.gradcheck p job) e.1)) ∧
    (s.jobStarts p job 6 = true →
      (∀ (g r : Desc) (o : WDesc) (w : State) (hl : Word × Word), s0.packPlan p j = .ok (g, r, o) → s0.packChunks p job j g r o = .ok (w, hl) →
        keysRise w.parts = true →
        let x := w.putPartial p j hl
        ∃ u, exec (.pack p job) s = .next u ∧ JobWorked u p job ∧ u.pantry = w.pantry ∧
          u.larder = ((x.modPart p (fun y => { y.modJob job (fun q => { q with worked := true }) with xg := { y.xg with progress := x.mono } })).pumpOutbox p).larder) ∧
      (∀ (g r : Desc) (o : WDesc) (w : State) (hl : Word × Word) (b : Bytes), j.chunkCount = 1 →
        s0.packOne p j g r o (0, 0) j.chunkFirst = .ok (w, hl, b) →
        s0.packChunks p job j g r o = .ok (w.postMessage p (job + 1) (w.xgMessage p 0 1 j.msgFirst j.chunkFirst b), hl)) ∧
      (∀ e, s0.packPlan p j = .error e → stop (.pack p job) e.1) ∧
      (∀ g r o e, s0.packPlan p j = .ok (g, r, o) → s0.packChunks p job j g r o = .error e → stop (.pack p job) e.1))

/-- R280, R295, R307: UNPACK takes its Curriers; each of its chunks, once every ordinal's message is there, is the sum of the
ordinals' chunks in ascending order times the scale, staged in the next slot or written to its tensor, and raises the vote to
SKIP where it is not finite; a job whose work is done, and whose messages have gone, writes 1 to its done word and is gone.
(Log 30: DESIGN CHOICE.) -/
def Claims.UnpacksAndJobEnds : Prop :=
  ∀ (p job : Nat) (s : State), s.canon = true → p < 512 →
    let x := s.part p
    let j := x.job job
    let cur := x.harness.cur
    (s.jobStarts p job 7 = true →
      ∃ u, exec (.unpack p job) s = .next u ∧ (∃ q, q ∈ (u.part p).jobs ∧ q.job = job ∧ q.started = true) ∧
        (u.part p).xg.progress = s.mono ∧ u = { s with parts := u.parts } ∧ ∀ k, k ≠ p → u.part k = s.part k) ∧
    (∀ (q : JobRun) (pj : CurJob) (d : Desc), x.jobs.find? (fun q => q.job == job && q.started && !q.worked) = some q → x.active = true →
      j.kind = 7 → s.chunkReady p j q.chunks = true → x.packOf (j.msgFirst + q.chunks / j.cpm) = some pj → x.long.replay = none →
      s.desc p pj.inp = some d → x.xg.outbox = [] →
      let n := chunkValid d.elems (j.chunkFirst + q.chunks)
      let r := s.sumChunk p (j.msgFirst + q.chunks / j.cpm) (q.chunks % j.cpm) pj.k n
      let vals := r.2.map (fun v => fmul v (cur.sets.getD j.set {}).outScale)
      let bad := vals.any (fun v => !(f32 v).isFin)
      let w := if bad then r.1.raiseVote p voteSkip else r.1
      let went := fun (u : State) => (∃ y, y ∈ (u.part p).jobs ∧ y.job = job ∧ y.chunks = q.chunks + 1 ∧
          y.worked = decide (q.chunks + 1 = j.chunkCount)) ∧
        (bad = true → (u.part p).vote = max (r.1.part p).vote voteSkip)
      keysRise r.1.parts = true →
      (bitOf j.mode 3 = true →
        ∃ u, exec (.unpackChunkDecode p job) s = .next u ∧ went u ∧
          u.larder = (w.setLard p (cur.stageBase + 16384 * (x.xg.staged % max 1 cur.stageSlots))
            (padTo (vals.flatMap (fun v => leBytes 4 v.toNat)) 16384)).larder ∧
          (u.part p).xg.staged = x.xg.staged + 1 ∧ u.pantry = s.pantry ∧ u.cores = s.cores) ∧
      (∀ (o : WDesc) (z : State), bitOf j.mode 3 = false → w.desc p j.out = some (.wide o) →
        chunkElems * (j.chunkFirst + q.chunks) + n ≤ o.rows * o.cols →
        w.putElems p o 0 (chunkElems * (j.chunkFirst + q.chunks)) (vals.map f32) = .ok z → keysRise z.parts = true →
        ∃ u, exec (.unpackChunkDecode p job) s = .next u ∧ u.larder = z.larder ∧ u.pantry = z.pantry ∧ u.cellar = z.cellar ∧
          u.cores = z.cores)) ∧
    (let s1 := s.pumpOutbox p
     ∀ q, q ∈ (s1.part p).jobs → q.job = job → q.worked = true → (s1.part p).active = true →
      (s1.part p).xg.outbox.all (fun o => o.2.1 != job + 1) = true →
      ∃ u, exec (.currierJobDone p job) s = .next u ∧ u.larder = (s1.setLard p ((s1.part p).job job).done (leBytes 8 1)).larder ∧
        (u.part p).jobs = (s1.part p).jobs.filter (fun y => y.job != job) ∧ u.pantry = s1.pantry ∧ u.cores = s1.cores)

/-! ## Steps and their boundaries -/

/-- R309, R311, R86, R298, R319, R331: an attempt starts with the vote COMMIT and every core of the partition at its entry with
nothing of an earlier attempt, after a SKIP or a REPLAY with the checkpoint restored where the journal asks for it; it closes
when every core has ended and every job is done, its norms checked; the final vote, the highest of the participants', a
third REPLAY turned into SKIP, or that of the entry replayed, keeps the step and counts an attempt for REPLAY, and otherwise
goes to the next step with attempt 0. (Log 47: DEDUCED.) -/
def Claims.AttemptsAndVotes : Prop :=
  ∀ (p t : Nat) (s : State), s.canon = true → p < 512 →
    let s1 : State := { s with mono := max s.mono t }
    let x := s.part p
    (s1.mayStart p = true → s1.boundaryServed p 64 = true →
      let s0 := if (0 < x.attempt ∨ x.finalVote = voteSkip) ∧ s.fld F.TACK_JRNL_CFG_AUTO_CKPT p 0 = 1 then s1.autoRestore p else s1
      let x0 := s0.part p
      ∃ u, exec (.attemptStart p t) s = .next u ∧ (u.part p).running = true ∧ (u.part p).closed = false ∧ (u.part p).vote = voteCommit ∧
        (u.part p).jobs = [] ∧ (u.part p).step = x0.step ∧ (u.part p).attempt = x0.attempt ∧
        u.fld F.TACK_HARN_STAT_VARIANT p 0 = (match x0.replayOpen with
          | some e => fieldAt e.payload 0x24 2
          | none => x0.variant) % 2 ^ 4 ∧ u.pantry = s0.pantry ∧
        (∀ c, c ∈ x0.cores → let y := u.core c
          y.loops = [] ∧ y.slots = [] ∧ y.phase = 0 ∧ y.ended = false ∧ y.issues = 0 ∧ y.loads = [] ∧ y.arr0.waiting = none ∧
            y.arr0.running = [] ∧ y.arr1.waiting = none ∧ y.arr1.running = [] ∧ y.vr = (s0.core c).vr)) ∧
    (s1.mayStart p = false → exec (.attemptStart p t) s = .next s1) ∧
    (x.active = true → x.cores.all (fun c => (s.core c).ended) = true → x.jobs = [] →
      let checked := match x.harness.voteBase with
        | none => s1
        | some b => (List.range x.harness.voteGroups).foldl (fun (v : State) g => v.checkGroup p (b + 256 + 256 * g)) s1
      ∃ u, exec (.attemptClose p t) s = .next u ∧ (u.part p).closed = true ∧ (u.part p).running = true ∧ u.pantry = s.pantry ∧
        u.cores = s.cores ∧
        (checked.pcount p ≤ 1 → x.xg.outbox = [] → u = { checked with parts := u.parts } ∧ (u.part p).vote = (checked.part p).vote)) ∧
    (x.running = true → x.closed = true → x.stopped = none → x.boundaryHeld = false →
      (s.pcount p ≤ 1 ∨ s.allClosed p = true ∨ x.long.replay.isSome = true) → s1.replayMessage p = none →
      (List.range (s.pcount p)).all (fun i => !s1.noEntry p i 0xFFFFFFFF) = true → x.xg.outbox = [] →
      s1.boundaryServed p (128 + 8 * x.harness.layers) = true →
      let top := max x.vote x.xg.maxVote
      let own := if top = voteReplay ∧ 2 ≤ x.attempt then voteSkip else top
      let final := (x.replayClose.map (fun e => e.key1)).getD own
      ∃ u, exec (.finalVote p t) s = .next u ∧ (u.part p).running = false ∧ (u.part p).finalVote = final ∧
        (final = voteReplay → (u.part p).step = x.step ∧ (u.part p).attempt = x.attempt + 1) ∧
        (final ≠ voteReplay → (u.part p).step = x.step + 1 ∧ (u.part p).attempt = 0) ∧
        u.fld F.BRDL_XG_COUNTS_SKIPS p 0 = (if final = voteSkip then satN 16 (s.fld F.BRDL_XG_COUNTS_SKIPS p 0 + 1) else s.fld F.BRDL_XG_COUNTS_SKIPS p 0) ∧
        u.fld F.BRDL_XG_COUNTS_REPLAYS p 0 = (if final = voteReplay then satN 16 (s.fld F.BRDL_XG_COUNTS_REPLAYS p 0 + 1) else s.fld F.BRDL_XG_COUNTS_REPLAYS p 0) ∧
        (x.long.replay = none → u.pantry = s.pantry))

/-- R235, R236, R405, R406: once none of a partition's flits is in flight the generation goes up by one and the migration goes on;
its end gives each substituted tile its spare, and a partition that moves takes its contents along to the tiles it moves
to, leaving zeros behind. R17: contents that cannot be read stop the partition with TILE_LOST. -/
def Claims.Migrations : Prop :=
  ∀ (p : Nat) (s : State), s.canon = true → p < 512 →
    let x := s.part p
    (x.migrating = 1 → s.inFlight p = 0 →
      ∃ u, exec (.quiesceDone p) s = .next u ∧ (u.part p).migrating = 2 ∧
        u.fld F.HALL_GEN_GEN p 0 = (s.fld F.HALL_GEN_GEN p 0 + 1) % 65536 ∧
        u.fld F.HALL_MIGR_QUIESCES p 0 = satN 16 (s.fld F.HALL_MIGR_QUIESCES p 0 + 1) ∧
        u.hall.staged = s.hall.staged.filter (fun g => g.part != p) ∧ SameData s u) ∧
    ((x.migrating ≠ 1 ∨ s.inFlight p ≠ 0) → exec (.quiesceDone p) s = .next s) ∧
    (x.migrating = 2 → s.mgmtDone p = true → s.boundaryServed p 64 = true →
      (∀ lr lt q, x.moveTo = none → x.subs = [(lr, lt, q)] → lr < 96 → lt < 32 → q < 36 → s.physRoom lr < 100 →
        s.sliceMarked (32 * lr + lt) = false →
        ∃ u, exec (.migrationDone (p, false)) s = .next u ∧ (u.part p).migrating = 0 ∧ (u.part p).subs = [] ∧ u.physTile lr lt = q ∧
          (∀ r i, r < 96 → i < 32 → s.physRoom r ≠ s.physRoom lr ∨ i ≠ lt → u.physTile r i = s.physTile r i) ∧
          u.pantry = s.pantry ∧ u.larder = s.larder ∧ (u.part p).tiles = x.tiles) ∧
      (∀ new, x.subs = [] → x.moveTo = some new → new.length = x.tiles.length → (x.tiles ++ new).Nodup → x.tiles.any s.sliceMarked = false →
        ∃ u, exec (.migrationDone (p, false)) s = .next u ∧ (u.part p).migrating = 0 ∧ (u.part p).tiles = new ∧ (u.part p).moveTo = none ∧
          (∀ a b, (a, b) ∈ List.zip x.tiles new →
            (∀ off, off < sliceBytes → tget u.larder (larderKey b off) 0 = tget s.larder (larderKey a off) 0 ∧
              tget u.larder (larderKey a off) 0 = 0) ∧
            (∀ i off, i < 4 → off < 2 ^ 21 → tget u.pantry (pantryKey (4 * b + i) off) 0 = tget s.pantry (pantryKey (4 * a + i) off) 0) ∧
            (∀ i, i < 4 → (u.core (4 * b + i)).vr = (s.core (4 * a + i)).vr)) ∧
          (∀ c off, c / 4 ∉ x.tiles → c / 4 ∉ new → off < 2 ^ 21 → tget u.pantry (pantryKey c off) 0 = tget s.pantry (pantryKey c off) 0)) ∧
      (x.pstate = .live → x.stopped = none →
        ∃ u, exec (.migrationDone (p, true)) s = .next u ∧ (u.part p).migrating = 0 ∧ (u.part p).subs = [] ∧
          (u.part p).stopped = some St.TILE_LOST))

/-! ## Partitions -/

/-- R402, R197, R233, R540: a creation that nothing refuses makes the partition live on the tiles it names, with new keys, generation 0
and its pages unlocked, and one that the rules refuse changes nothing. R186, R397, R405: a destruction stops its work and writes
its cache back; once no record of it waits for a ring that is on, it disables its rings, takes its traffic away and leaves it
zeroising with its tiles; once zeroised, every byte of its pantries, its larder slices and its cellar range is 0, it is free, its
pages hold their reset values, and no other partition's byte has changed. (Log 79, 84, 86: DEDUCED.) -/
def Obligations.PartitionLives : Prop :=
  ∀ (p t : Nat) (s : State), s.canon = true → keysRise s.host.rings = true → p < 512 →
    let s1 : State := { s with mono := max s.mono t }
    let x := s.part p
    (s.fld F.TACK_BRINGUP_READY 0 0 = 1 → x.pstate = .free → s.createRefusal p = none →
      ∃ u, exec (.partCreate p t) s = .next u ∧ (u.part p).pstate = .live ∧ (u.part p).tiles = s.namedTiles RG.TACK_PART_TILES p ∧
        (u.part p).key = s.free + 1 ∧ (u.part p).harn = none ∧ u.free = s.free + 1 ∧ u.fld F.HALL_GEN_GEN p 0 = 0 ∧
        (∀ ty, ty ∈ partPages → u.locked ty p = false) ∧ SameData s u ∧
        ∀ q, q ≠ p → { u.part q with shortB := none } = { s.part q with shortB := none }) ∧
    ((s.fld F.TACK_BRINGUP_READY 0 0 = 0 ∨ x.pstate ≠ .free ∨ s.createRefusal p ≠ none) → exec (.partCreate p t) s = .next s1) ∧
    (x.pstate = .live →
      ∃ u, exec (.partDestroy p t) s = .next u ∧ (u.part p).pstate = .zeroising ∧ (u.part p).tiles = x.tiles ∧ (u.part p).harn = none ∧
        u.pantry = s.pantry ∧ u.larder = s.larder ∧ u.cellar = (s1.flushCache p).cellar ∧
        ((u.part p).leaving = true → u.recordsHeld p = true) ∧
        ((u.part p).leaving = false →
          (∀ r, r < 128 → u.rf F.RING_CTX_CFG_EN p r = 0 ∧ u.req (ringKey p r) = none) ∧ u.fld F.RING_EVT_CFG_EN p 0 = 0 ∧
          (∀ f, f ∈ u.hall.flits → f.part ≠ p) ∧ (∀ o, o ∈ u.brdl.txns → o.part ≠ p) ∧
          (∀ r, r < 1024 → s.fld F.BRDL_RGN_CTRL_PART r 0 = p → u.fld F.BRDL_RGN_CTRL_VALID r 0 = 0)) ∧
        ((∀ r, r < 128 → s.req (ringKey p r) = none) → s.mtr.due.all (fun d => d.fn != p) = true → (u.part p).leaving = false)) ∧
    (x.pstate ≠ .live → exec (.partDestroy p t) s = .next s1) ∧
    (x.pstate = .zeroising → x.leaving = false → s.zeroReached x.tiles = true → s.operCellSlot = true →
      ∃ u, exec (.partZeroised p t) s = .next u ∧ u.part p = {} ∧
        (∀ sl, sl ∈ x.tiles → (∀ off, off < 2 ^ 23 → tget u.pantry (sl * 2 ^ 23 + off) 0 = 0) ∧
          (∀ off, off < sliceBytes → tget u.larder (larderKey sl off) 0 = 0)) ∧
        (∀ a, s.cellBase p ≤ a → a < s.cellBase p + s.cellLen p → tget u.cellar a 0 = 0) ∧
        (∀ a, a < s.cellBase p ∨ s.cellBase p + s.cellLen p ≤ a → tget u.cellar a 0 = tget s.cellar a 0) ∧
        (∀ sl off, sl ∉ x.tiles → off < sliceBytes → tget u.larder (larderKey sl off) 0 = tget s.larder (larderKey sl off) 0) ∧
        (∀ ty off, ty ∈ [0x21, 0x22, 0x23, 0x24, 0x25, 0x26, 0x27, 0x50, 0x52, 0x53] → 64 ≤ off → off < 4096 →
          u.regAt ty p off = regReset ty off))

/-- R406: a move to a free set of the same shape waits for the boundary of the attempt that runs, and begins at once where none
does, with the generation going up, or with a quiesce at a multiple of 32768; a set that is not free or not of that shape is
ignored. R388, R557: a reset of a VF disables its rings and its event ring and holds the partition, which stops with FLR_HOLD
where no attempt runs; one of a PF disables its port's 64 rings; PERST_N low for 100 µs takes the link down and resets every
function of its port. R385, R389: a link that may train comes up at its rate, and what waited for it goes on.
(Log 87, 88, 90, 156: DEDUCED.) -/
def Claims.MovesAndResets : Prop :=
  ∀ (p port t : Nat) (s : State), s.canon = true → keysRise s.host.rings = true → p < 512 → port < 2 →
    let s1 : State := { s with mono := max s.mono t }
    let x := s.part p
    let new := s.namedTiles RG.TACK_PART_NEW_TILES p
    (x.pstate = .live → x.moveTo = none → s.moveOk p new = true →
      (x.running = true → ∃ u, exec (.partMove p t) s = .next u ∧ u = { s1 with parts := u.parts } ∧
        u.part p = { x with moveTo := some new } ∧ ∀ q, q ≠ p → u.part q = s.part q) ∧
      (x.running = false → x.migrating = 0 → x.tail = none →
        ∃ u, exec (.partMove p t) s = .next u ∧ (u.part p).moveTo = some new ∧ SameData s u ∧
          ((s.fld F.HALL_GEN_GEN p 0 + 1) % 32768 ≠ 0 → (u.part p).migrating = 2 ∧ u.fld F.HALL_GEN_GEN p 0 = s.fld F.HALL_GEN_GEN p 0 + 1) ∧
          ((s.fld F.HALL_GEN_GEN p 0 + 1) % 32768 = 0 → (u.part p).migrating = 1 ∧ u.regs = s.regs))) ∧
    ((x.pstate ≠ .live ∨ x.moveTo ≠ none ∨ s.moveOk p new = false) → exec (.partMove p t) s = .next s1) ∧
    (x.pstate = .live → x.leaving = false →
      ∃ u, exec (.functionLevelReset p t) s = .next u ∧ (u.part p).flrHold = true ∧
        (∀ r, r < 128 → u.rf F.RING_CTX_CFG_EN p r = 0 ∧ u.req (ringKey p r) = none) ∧ u.fld F.RING_EVT_CFG_EN p 0 = 0 ∧
        (u.part p).stopped = (if x.running = true ∨ x.stopped.isSome then x.stopped else some St.FLR_HOLD) ∧
        u.pantry = s.pantry ∧ u.larder = s.larder ∧ u.cellar = s.cellar) ∧
    (∃ u, exec (.functionLevelReset (512 + port) t) s = .next u ∧
        (∀ i, i < 64 → u.rf F.RING_CTX_CFG_EN 512 (64 * port + i) = 0 ∧ u.req (ringKey 512 (64 * port + i)) = none) ∧
        u.fld F.RING_EVT_CFG_EN (0x200 + port) 0 = 0 ∧ SameData s u ∧ u.parts = s.parts) ∧
    (∀ us, (us < 100 → exec (.perstN port us t) s = .next s1) ∧
      (100 ≤ us → ∃ u, exec (.perstN port us t) s = .next u ∧ u.linkUp port = false ∧
        (∀ i, i < 256 → (s.part (256 * port + i)).pstate = .live → (s.part (256 * port + i)).leaving = false →
          (u.part (256 * port + i)).flrHold = true) ∧
        (∀ i, i < 64 → u.rf F.RING_CTX_CFG_EN 512 (64 * port + i) = 0) ∧ u.pantry = s.pantry ∧ u.larder = s.larder ∧ u.cellar = s.cellar)) ∧
    (∀ rate width flit, 1 ≤ rate → rate ≤ 6 → 1 ≤ width → width ≤ 16 → flit < 2 →
      (s.linkMayTrain port = true →
        ∃ u, exec (.pcieLinkChange port rate width flit t) s = .next u ∧ u.reg RG.PCIE_LINK_STAT port 0 = rate + 8 * width + 256 * flit ∧
          SameData s u ∧ u.parts = s.parts ∧
          ((∀ w, w ∈ s.host.late → w.port ≠ port) → (∀ e q, e ∈ s.host.rings → e.2.req = some q → q.hostSince = none) →
            s1.RegSet u RG.PCIE_LINK_STAT port 0 (rate + 8 * width + 256 * flit))) ∧
      (s.linkMayTrain port = false → exec (.pcieLinkChange port rate width flit t) s = .next s1)) ∧
    (∃ u, exec (.pcieLinkChange port 0 0 0 t) s = .next u ∧ s1.RegSet u RG.PCIE_LINK_STAT port 0 0)

/-- R389: after 50 ms with its port link down a request that waits for its host window ends with LINK_LOST, a scalar access is
dropped with the vote SKIP and answered, a store as done and a load with an open value, and a copy's unit counts as
moved with LINK_LOST met. (Log 7: DESIGN CHOICE; 66: DEDUCED.) -/
def Claims.HostWindowTimeouts : Prop :=
  ∀ (t : Nat) (s : State), s.canon = true → keysRise s.host.rings = true →
    let now := max s.mono t
    let s1 : State := { s with mono := now }
    (∀ p r q since, p < 512 → r < 128 → s.req (ringKey p r) = some q → q.status = none → s.hostIssue p q = some since →
      s.linkUp (portOf p) = false → since + 50000000 ≤ now →
      ∃ u, exec (.hostWindowTimeout 2 p r t) s = .next u ∧ Ended u (ringKey p r) St.LINK_LOST ∧ SameData s u ∧
        (q.op = 7 → q.started = true → (u.part p).long.replay = none)) ∧
    (∀ id f port bus, s.hall.flits.find? (fun g => g.id == id) = some f → f.dst = .host port bus → f.resp = false → s.linkUp port = false →
      f.born + 50000000 ≤ now →
      ∃ u y, exec (.hostWindowTimeout 1 id 0 t) s = .next u ∧ (u.part f.part).vote = max (s.part f.part).vote voteSkip ∧
        u.hall.flits = s.hall.flits.filter (fun g => g.id != f.id) ++ [y] ∧ y.kind = (if f.kind = 0 then 1 else 3) ∧
        u.pantry = s.pantry ∧ u.larder = s.larder ∧ u.cellar = s.cellar) ∧
    (∀ core slot p y un since, core < 12288 → slot < 48 → s.partOfCore core = some p → tget (s.core core).slots slot none = some y →
      y.linkWait = some (un, since) → s.linkUp (portOf p) = false → since + 50000000 ≤ now → keysRise (s.core core).slots = true →
      ∃ u z, exec (.hostWindowTimeout 0 core slot t) s = .next u ∧ s1.OnlyCore u core ∧ tget (u.core core).slots slot none = some z ∧
        un ∈ z.moved ∧ z.linkWait = none ∧ (y.worst = 0 → z.worst = St.LINK_LOST))

/-! ## The Meter -/

/-- R474-R478, R482, R486: an interval of 1 ms adds, at its end, its input to the device's total and to the total line, and what no
partition's line takes to the operator's, and shows each room's term; each 50 µs give one signature of budget, up to 2,000. Before its end neither does
anything. (Log 91, 92: DEDUCED.) -/
def Claims.MeterIntervals : Prop :=
  ∀ (input t : Nat) (rooms : List (Nat × Nat)) (counts : List (Nat × Nat × Nat × Nat)) (s : State), s.canon = true →
    keysRise s.mtr.lines = true →
    let s1 : State := { s with mono := max s.mono t }
    let ends := s.mtr.lastEnd + 10 ^ 6
    let s2 : State := { s with mono := max s.mono ends }
    let sum := (s.usedParts.map (fun p => s.lineEnergy p rooms counts)).sum
    (s.fld F.MTR_STAT_RUNNING 0 0 ≠ 0 → ends ≤ s1.mono →
      ∃ u, exec (.meterInterval input rooms counts t) s = .next u ∧ u.mtr.total = s.mtr.total + input ∧ u.mono = s1.mono ∧
        u.mtr.lastEnd = ends ∧ u.mtr.operMw = (input : Int) - (sum : Int) ∧ u.reg RG.MTR_INPUT_MW 0 0 = sat32 input ∧
        (∀ lr, lr < 96 → u.reg RG.MTR_ROOM_MW 0 lr = sat32 (roomTerm rooms lr)) ∧ SameData s u ∧ u.parts = s.parts ∧
        (s2.ledgerDay ≤ s.mtr.day →
          (tget u.mtr.lines 0xFFFF {}).energy = (tget s.mtr.lines 0xFFFF {}).energy + input ∧
          (tget u.mtr.lines 0xFFFE {}).energy = (tget s.mtr.lines 0xFFFE {}).energy + (input : Int) - (sum : Int))) ∧
    ((s.fld F.MTR_STAT_RUNNING 0 0 = 0 ∨ s1.mono < ends) → exec (.meterInterval input rooms counts t) s = .next s1) ∧
    (s.mtr.lastTick + 50000 ≤ s1.mono →
      let signs := s.mtr.signs.filter (fun m => decide (s1.mono < m + 10 ^ 9))
      let s3 := ({ s1 with mtr := { s.mtr with lastTick := s.mtr.lastTick + 50000, signs := signs } } : State)
      ∃ u, exec (.signBudgetTick t) s = .next u ∧
        (s3.setFld F.MTR_SIGNED_LAST_S 0 0 (satN 16 signs.length)).FieldSet u F.MTR_SIGNED_BUDGET 0 0
          (min 2000 (s.fld F.MTR_SIGNED_BUDGET 0 0 + 1))) ∧
    (s1.mono < s.mtr.lastTick + 50000 → exec (.signBudgetTick t) s = .next s1)

/-- R481-R483, R489, R530: with budget left and nothing older to sign the oldest receipt whose energy is complete is signed over
its bytes, and one signature is spent; it is written to its ring and leaves the list where the ring takes it, and waits,
signed, where not. A resend puts every kept record of its day before the rings again. A fault of the calibration record or
the key pair clears its bit and stops every live partition with METER_FAULT. (Log 79: DEDUCED.) -/
def Claims.ReceiptsAndFaults : Prop :=
  ∀ (t : Nat) (s : State), s.canon = true → keysRise s.host.rings = true → keysRise s.host.mem = true →
    (∀ (r : Rcpt) rest, s.fld F.MTR_SIGNED_BUDGET 0 0 ≠ 0 → s.mtr.ledger = [] → s.mtr.due = r :: rest → s.settled r = true →
      s.mtr.due.all (fun q => q.signed.isNone) = true → r.fn < 512 → rest.all (fun q => q.id != r.id) = true →
      (s.part r.fn).leaving = false →
      let sig := meterSign (s.receiptBytes r)
      let at_ := ringPort r.fn r.rring * 2 ^ 64 + (s.ringBase r.fn r.rring + 256 * s.rf F.RING_CTX_PTR_TAIL r.fn r.rring) % 2 ^ 64
      ∃ u, exec (.receiptSign t) s = .next u ∧ u.fld F.MTR_SIGNED_BUDGET 0 0 = s.fld F.MTR_SIGNED_BUDGET 0 0 - 1 ∧ SameData s u ∧
        (s.ringTakes r.fn r.rring = true → u.mtr.due = rest ∧ memRead u.host.mem at_ 188 = s.receiptBytes r) ∧
        (s.ringTakes r.fn r.rring = false → u.mtr.due = { r with signed := some sig } :: rest ∧ u.host.mem = s.host.mem)) ∧
    (∀ day, day < 2 ^ 18 → s.recovery = false →
      ∃ u, exec (.ledgerResend day) s = .next u ∧ u.fld F.MTR_LEDGER_CTRL_DAY 0 0 = day ∧
        u.mtr.ledger.map (fun d => d.bytes) = s.mtr.ledger.map (fun d => d.bytes) ++
          (s.mtr.kept.filter (fun k => k.day == day)).map (fun k => resent k.bytes) ∧
        u.mtr.kept = s.mtr.kept ∧ SameData s u) ∧
    (∀ cal key, (cal = true ∧ s.fld F.MTR_STAT_CAL_OK 0 0 = 1 ∨ key = true ∧ s.fld F.MTR_STAT_KEY_OK 0 0 = 1) →
      ∃ u, exec (.meterIntegrityFault cal key) s = .next u ∧ u.mtr.fault = true ∧ (cal = true → u.fld F.MTR_STAT_CAL_OK 0 0 = 0) ∧
        (key = true → u.fld F.MTR_STAT_KEY_OK 0 0 = 0) ∧
        (∀ p, (s.part p).pstate = .live → (s.part p).stopped = none → (u.part p).stopped = some St.METER_FAULT) ∧
        u.pantry = s.pantry ∧ u.larder = s.larder ∧ u.cellar = s.cellar)

/-! ## Wall time -/

/-- `u` has corrected wall time toward `src` (TAI ns) by a source: a small correction of a set clock is slewed, any other takes
effect at once and counts as a discontinuity; memories and cores are those of `s`. -/
def Corrected (s u : State) (src : Int) (source : Nat) : Prop :=
  let d := src - ((s.tai : Nat) : Int)
  let small := s.time.set = true ∧ -128000000 ≤ d ∧ d ≤ 128000000
  u.time.set = true ∧ u.time.mono = s.mono ∧ u.time.lastSource = s.mono ∧ u.mono = s.mono ∧ u.fld F.TIME_STAT_SET 0 0 = 1 ∧
    u.fld F.TIME_STAT_SOURCE 0 0 = source ∧ u.fld F.TIME_STAT_UNSYNCED 0 0 = (if u.wallInRange then 0 else 1) ∧ SameData s u ∧
    (small → u.tai = s.tai ∧ u.time.slew = d ∧ u.fld F.TIME_STAT_SLEWING 0 0 = b2n (d != 0) ∧
      u.fld F.TIME_DISC_COUNT 0 0 = s.fld F.TIME_DISC_COUNT 0 0) ∧
    (¬small → u.tai = src.toNat ∧ u.time.slew = 0 ∧ u.fld F.TIME_STAT_SLEWING 0 0 = 0 ∧
      u.fld F.TIME_DISC_COUNT 0 0 = min (2 ^ 32 - 1) (s.fld F.TIME_DISC_COUNT 0 0 + 1))

/-- R485, R484: a write of an impossible date or time of day leaves the register, and SET_STATUS takes DATE_INVALID (1) or
TIME_INVALID (2); a year outside 2000-2399 gives OUT_OF_RANGE (3) in the same way. A possible one is kept, and no register but it
and TIME_STAT changes. -/
def Obligations.ImpossibleDatesRefused : Prop :=
  ∀ (v : Nat) (s : State), s.canon = true → s.recovery = false → v < 2 ^ 32 →
    let y := v % 2 ^ 16
    let m := v / 2 ^ 16 % 16
    let d := v / 2 ^ 20 % 32
    let valid := 1 ≤ m ∧ m ≤ 12 ∧ 1 ≤ d ∧ d ≤ (if m = 2 then (if (y % 4 = 0 ∧ y % 100 ≠ 0) ∨ y % 400 = 0 then 29 else 28)
      else if m ∈ [4, 6, 9, 11] then 30 else 31)
    let bad := 23 < v % 32 ∨ 59 < v / 32 % 64 ∨ 59 < v / 2 ^ 11 % 64
    let kept := fun (u : State) (r : Reg) (x : Nat) => u = { s with regs := u.regs } ∧ u.reg r 0 0 = x ∧
      ∀ ty i o, regKey ty i o ≠ regKey 0x41 0 r.off → regKey ty i o ≠ regKey 0x41 0 RG.TIME_STAT.off → u.regAt ty i o = s.regAt ty i o
    ((y < 2000 ∨ 2399 < y) → ∃ u, exec (.timeSetYmdWrite v) s = .next u ∧ s.FieldSet u F.TIME_STAT_SET_STATUS 0 0 3) ∧
    (2000 ≤ y → y ≤ 2399 → ¬valid → ∃ u, exec (.timeSetYmdWrite v) s = .next u ∧ s.FieldSet u F.TIME_STAT_SET_STATUS 0 0 1) ∧
    (2000 ≤ y → y ≤ 2399 → valid → ∃ u, exec (.timeSetYmdWrite v) s = .next u ∧ kept u RG.TIME_SET_YMD (v % 2 ^ 25)) ∧
    (bad → ∃ u, exec (.timeSetHmsWrite v) s = .next u ∧ s.FieldSet u F.TIME_STAT_SET_STATUS 0 0 2) ∧
    (¬bad → ∃ u, exec (.timeSetHmsWrite v) s = .next u ∧ kept u RG.TIME_SET_HMS (v % 2 ^ 17))

/-- R492, R493, R497: a set-time command is refused while PTP disciplines the clock; GO corrects wall time to the date and time held,
and AT_PPS waits for the next pulse. Nanoseconds of a second or more are refused as TIME_INVALID, fewer are kept.
(Log 97, 99: DEDUCED.) -/
def Obligations.TimeSetting : Prop :=
  ∀ (v t : Nat) (s : State), s.canon = true → keysRise s.host.rings = true → s.recovery = false → v < 2 ^ 32 →
    let s1 : State := { s with mono := max s.mono t }
    (10 ^ 9 ≤ v % 2 ^ 30 → ∃ u, exec (.timeSetNsWrite v) s = .next u ∧ s.FieldSet u F.TIME_STAT_SET_STATUS 0 0 2) ∧
    (v % 2 ^ 30 < 10 ^ 9 → ∃ u, exec (.timeSetNsWrite v) s = .next u ∧ u = { s with regs := u.regs } ∧
      u.reg RG.TIME_SET_NS 0 0 = v % 2 ^ 30 ∧ u.fld F.TIME_STAT_SET_STATUS 0 0 = 0) ∧
    (s1.ptpActive = true →
      (∃ u, exec (.timeSetGo t) s = .next u ∧ s1.FieldSet u F.TIME_STAT_SET_STATUS 0 0 4) ∧
      (∃ u, exec (.timeSetAtPps t) s = .next u ∧ s1.FieldSet u F.TIME_STAT_SET_STATUS 0 0 4)) ∧
    (s1.ptpActive = false →
      (∃ u, exec (.timeSetGo t) s = .next u ∧ Corrected s1 u s.setTime (if s1.ppsActive then 2 else 1) ∧
        u.fld F.TIME_STAT_SET_STATUS 0 0 = 0) ∧
      (∃ u, exec (.timeSetAtPps t) s = .next u ∧ u.time = { s.time with armed := true } ∧
        ({ s1 with time := u.time } : State).FieldSet u F.TIME_STAT_SET_STATUS 0 0 0))

/-- R491-R493: a pulse that PPS_IN takes applies a waiting set-time command, and otherwise, in time and with the clock set,
corrects wall time to the nearest second. The UTC offset changes at its time. Wall time without a correction for 1,000 s
is unsynced, and every request in progress has met that; a slew that is absorbed ends, wall time going on from there. R399:
at a wrap of TIME_US every event ring with room takes EPOCH_ROLL. (Log 98, 100: DEDUCED.) -/
def Obligations.WallTimeGoesOn : Prop :=
  ∀ (t : Nat) (s : State), s.canon = true → keysRise s.host.rings = true →
    let s1 : State := { s with mono := max s.mono t }
    let at_ := s.reg64 RG.TIME_NEXT_AT_LO RG.TIME_NEXT_AT_HI 0 0
    let roll := (s.time.rolled + 1) * (1000 * 2 ^ 32)
    let good := match s.time.lastPps with
      | some m => decide (m + 999900000 ≤ s1.mono) && decide (s1.mono ≤ m + 1000100000)
      | none => false
    let seen := { s.time with lastPps := some s1.mono, ppsGood := good, armed := false }
    (∀ falling, (s.fld F.TIME_CFG_PPS_EN 0 0 = 0 ∨ s.fld F.TIME_CFG_PPS_FALL 0 0 ≠ b2n falling) → exec (.ppsEdge falling t) s = .next s1) ∧
    (∀ falling, s.fld F.TIME_CFG_PPS_EN 0 0 ≠ 0 → s.fld F.TIME_CFG_PPS_FALL 0 0 = b2n falling →
      ((s1.ptpActive = true ∨ good = false ∨ s.time.set = false) → s.time.armed = false →
        exec (.ppsEdge falling t) s = .next { s1 with time := seen }) ∧
      (s1.ptpActive = true → s.time.armed = true →
        ∃ u, exec (.ppsEdge falling t) s = .next u ∧ u.time = seen ∧
          ({ s1 with time := seen } : State).FieldSet u F.TIME_STAT_SET_STATUS 0 0 4)) ∧
    (∀ falling, s.fld F.TIME_CFG_PPS_EN 0 0 = 1 → s.fld F.TIME_CFG_PPS_FALL 0 0 = b2n falling → s1.ptpActive = false →
      (s.time.armed = true → ∃ u, exec (.ppsEdge falling t) s = .next u ∧ Corrected s1 u s.setTime 2 ∧ u.time.armed = false ∧
        u.time.lastPps = some s1.mono ∧ u.fld F.TIME_STAT_SET_STATUS 0 0 = 0) ∧
      (∀ m, s.time.armed = false → s.time.set = true → s.time.lastPps = some m → m + 999900000 ≤ s1.mono → s1.mono ≤ m + 1000100000 →
        ∃ u, exec (.ppsEdge falling t) s = .next u ∧ Corrected s1 u (((s1.tai + 500000000) / 10 ^ 9 * 10 ^ 9 : Nat) : Int) 2 ∧
          u.time.lastPps = some s1.mono ∧ u.time.ppsGood = true)) ∧
    (at_ ≠ 0 → s.time.set = true → at_ * 10 ^ 9 ≤ s1.tai → s.time.utcDone ≠ at_ →
      ∃ u, exec (.utcOffsetChange t) s = .next u ∧ u.time = { s.time with utcDone := at_ } ∧
        ({ s1 with time := u.time } : State).FieldSet u F.TIME_UTC_OFFSET_S 0 0 (s.fld F.TIME_NEXT_OFFSET_S 0 0)) ∧
    ((at_ = 0 ∨ s.time.set = false ∨ s1.tai < at_ * 10 ^ 9 ∨ s.time.utcDone = at_) → exec (.utcOffsetChange t) s = .next s1) ∧
    ((s.fld F.TIME_STAT_UNSYNCED 0 0 = 1 ∨ s1.mono < s.time.lastSource + 10 ^ 12) → exec (.wallTimeUnsyncTimeout t) s = .next s1) ∧
    (s1.mono < roll → exec (.epochRoll t) s = .next s1) ∧
    (s.fld F.TIME_STAT_UNSYNCED 0 0 = 0 → s.time.lastSource + 10 ^ 12 ≤ s1.mono →
      ∃ u, exec (.wallTimeUnsyncTimeout t) s = .next u ∧ u.fld F.TIME_STAT_UNSYNCED 0 0 = 1 ∧ u.fld F.TIME_STAT_SOURCE 0 0 = 0 ∧
        u.time = s.time ∧ SameData s u ∧ ∀ k q, s.req k = some q → u.req k = some { q with unsynced := true }) ∧
    (s.fld F.TIME_STAT_SLEWING 0 0 = 1 → slewed s.time.slew (s1.mono - s.time.mono) = s.time.slew →
      ∃ u, exec (.wallTimeSlewDone t) s = .next u ∧ u.tai = s1.tai ∧ u.time.slew = 0 ∧ u.time.mono = s1.mono ∧
        ({ s1 with time := u.time } : State).FieldSet u F.TIME_STAT_SLEWING 0 0 0) ∧
    (roll ≤ s1.mono →
      ∃ u, exec (.epochRoll t) s = .next u ∧ u.mono = max s.mono roll ∧ u.time = { s.time with rolled := s.time.rolled + 1 } ∧
        SameData s u ∧ u.parts = s.parts ∧
        ∀ p, p < 512 → s.fld F.RING_EVT_CFG_EN p 0 = 1 →
          let n := 2 ^ clampLog2 (s.fld F.RING_EVT_CFG_LOG2 p 0)
          let tail := s.fld F.RING_EVT_TAIL_TAIL p 0
          tail < n → (tail + 1) % n ≠ s.fld F.RING_EVT_HEAD_HEAD p 0 % n → u.fld F.RING_EVT_TAIL_TAIL p 0 = (tail + 1) % n)

/-- R379, R492: of the messages a chartered node sends on the PTP port, an Announce of the better master makes it the one this
clock follows; a two-step Sync is kept until its Follow_Up, whose time sends a Delay_Req, as a one-step Sync does at once; and the
answer to that corrects wall time by the offset the four times give. Any other port's or domain's message is taken and changes
nothing else. R365, R379: a clock that may be master and follows none sends its Announce every 2 s and its Sync every second, and
answers a Delay_Req. (Log 94: PRESUMED; 95: DESIGN CHOICE.) -/
def Obligations.PtpFollowsMaster : Prop :=
  ∀ (b err t : Nat) (q : Txn) (s : State), s.canon = true → keysRise s.host.rings = true → keysRise s.brdl.ports = true → b < 97 → err ≤ 16 →
    let s1 : State := { s with mono := max s.mono t }
    let p := s.time.ptp
    let m := q.data
    let now : Int := ((s1.tai : Nat) : Int) + ((err : Nat) : Int) - 8
    let leads := s.fld F.BRDL_PTP_MASTER_OK 0 0 = 1 ∧ p.follows s1.mono = false
    (s.arrived b 12 = none → (s.fld F.BRDL_PTP_MASTER_OK 0 0 = 0 ∨ p.follows s1.mono = true ∨ s.ptpPort ≠ some b) →
      exec (.ptp b err t) s = .next s1) ∧
    (s.arrived b 12 = none → leads → s.ptpPort = some b →
      let due := fun (a : Option Nat) (n : Nat) => ∀ k, a = some k → k + n ≤ s1.mono
      ∃ u, exec (.ptp b err t) s = .next u ∧ SameData s u ∧ u.parts = s.parts ∧
        (due p.announced (2 * 10 ^ 9) → u.time.ptp.announced = some s1.mono ∧ u.time.ptp.announceSeq = (p.announceSeq + 1) % 65536) ∧
        (¬due p.announced (2 * 10 ^ 9) → u.time.ptp.announced = p.announced ∧ u.time.ptp.announceSeq = p.announceSeq) ∧
        (due p.synced (10 ^ 9) → u.time.ptp.synced = some s1.mono ∧ u.time.ptp.syncSeq = (p.syncSeq + 1) % 65536) ∧
        (¬due p.synced (10 ^ 9) → u.time.ptp.synced = p.synced ∧ u.time.ptp.syncSeq = p.syncSeq)) ∧
    (s.arrived b 12 = some q →
    ((s.ptpPort ≠ some b ∨ beAt m 4 1 ≠ s.fld F.BRDL_PTP_DOMAIN 0 0) → s.chartered q.src 12 = true →
      exec (.ptp b err t) s = .next (s1.takeRx b 12)) ∧
    (s.chartered q.src 12 = false → ∃ u, exec (.ptp b err t) s = .next u ∧ u.time = s.time ∧ SameData s u ∧
      u.brdl = (s.takeRx b 12).brdl) ∧
    (s.ptpPort = some b → s.chartered q.src 12 = true → beAt m 4 1 = s.fld F.BRDL_PTP_DOMAIN 0 0 →
      (beAt m 0 1 % 16 = 11 → (p.master = none ∨ ∃ r g, p.master = some (r, g) ∧ g ≠ slice m 20 10 ∧
          (rankLt (announceRank m) r = true ∨ p.announceAt + p.announceFor ≤ s1.mono)) → s.fld F.BRDL_PTP_MASTER_OK 0 0 = 0 →
        ∃ u, exec (.ptp b err t) s = .next u ∧ u.time.ptp.master = some (announceRank m, slice m 20 10) ∧
          u.time.ptp.announceAt = s1.mono ∧ u.time.ptp.announceFor = announceLife (beAt m 33 1) ∧ u.time.ptp.sync = none ∧
          u.time.ptp.waiting = false ∧ u.regs = s.regs ∧ SameData s u) ∧
      (beAt m 0 1 % 16 = 1 → s.fld F.BRDL_PTP_MASTER_OK 0 0 ≠ 1 ∨ p.follows s1.mono = true → exec (.ptp b err t) s = .next (s1.takeRx b 12)) ∧
      (beAt m 0 1 % 16 = 1 → leads → exec (.ptp b err t) s = .next ((s1.takeRx b 12).sendPtp b q.src
        ((s1.takeRx b 12).ptpMessage 9 (beAt m 30 2) (ptpStamp now.toNat ++ slice m 20 10)))) ∧
      (∀ rank, p.master = some (rank, slice m 20 10) →
        (beAt m 0 1 % 16 = 0 → bitOf (beAt m 6 1) 1 = true →
          ∃ u, exec (.ptp b err t) s = .next u ∧
            u.time = { s.time with ptp := { p with sync := some (beAt m 30 2, now.toNat, ptpCorr m) } } ∧ u.regs = s.regs ∧ SameData s u) ∧
        (beAt m 0 1 % 16 = 0 → bitOf (beAt m 6 1) 1 = false →
          ∃ u, exec (.ptp b err t) s = .next u ∧ u.time.ptp.t1 = ((ptpTime m 34 : Nat) : Int) + ptpCorr m ∧
            u.time.ptp.t2 = now ∧ u.time.ptp.t3 = now ∧ u.time.ptp.waiting = true ∧
            u.time.ptp.reqSeq = (p.reqSeq + 1) % 65536 ∧ u.time.wall = s.time.wall ∧ SameData s u) ∧
        (∀ t2 c, beAt m 0 1 % 16 = 8 → p.sync = some (beAt m 30 2, t2, c) →
          ∃ u, exec (.ptp b err t) s = .next u ∧ u.time.ptp.t1 = ((ptpTime m 34 : Nat) : Int) + c + ptpCorr m ∧
            u.time.ptp.t2 = ((t2 : Nat) : Int) ∧ u.time.ptp.t3 = now ∧ u.time.ptp.waiting = true ∧
            u.time.ptp.reqSeq = (p.reqSeq + 1) % 65536 ∧ u.time.wall = s.time.wall ∧ SameData s u) ∧
        (beAt m 0 1 % 16 = 9 → p.waiting = true → beAt m 30 2 = p.reqSeq →
          slice m 44 10 = (leBytes 8 Config.ptpIdentity.toNat).reverse ++ [0, 1] → s1.ptpActive = true →
          ∃ u, exec (.ptp b err t) s = .next u ∧
            Corrected s1 u (((s1.tai : Nat) : Int) - ((p.t2 - p.t1) - (((ptpTime m 34 : Nat) : Int) - ptpCorr m - p.t3)) / 2) 3 ∧
            u.time.ptp.waiting = false))))

/-! ## Idle states, survey and firmware -/

/-- R548, R549: with no change running a request for retain or dark begins the change, dark losing every on-wafer byte, while work
in progress refuses it BUSY, and retain is refused from dark; ready-idle begins a wake, from dark through a bring-up. During a
change the request waits; a device without power keeps its state (R435). A change that is done puts STATE, the time and every package's self-refresh into place, entering retain
with the live rooms at OP0; a request that waits in retain begins the wake of itself. (Log 126: DEDUCED.) -/
def Obligations.IdleStates : Prop :=
  ∀ (t : Nat) (out : BringOut) (s : State), s.canon = true → s.recovery = false → bringOk out = true →
    let now := max s.mono t
    let s1 : State := { s with mono := now }
    let state := fun (u : State) => u.fld F.GLB_POWER_STATE_STATE 0 0
    let begun := fun (u : State) (target : Nat) => u.pwr.change = some (target, now) ∧ u.fld F.GLB_POWER_STATE_CHANGING 0 0 = 1 ∧
      state u = state s ∧ u.fld F.GLB_POWER_STATE_REQ 0 0 = target ∧ u.fld F.GLB_POWER_STATE_REQ_STATUS 0 0 = 0
    let refused := fun (u : State) (req st : Nat) => u = { s1 with regs := u.regs } ∧ u.fld F.GLB_POWER_STATE_REQ 0 0 = req ∧
      state u = state s ∧ u.fld F.GLB_POWER_STATE_REQ_STATUS 0 0 = st
    (s.pwr.off = true → ∃ u, exec (.glbReqDark t) s = .next u ∧ s1.FieldSet u F.GLB_POWER_STATE_REQ 0 0 2) ∧
    (s.pwr.off = false → s.pwr.change = none →
      (state s = 0 → s.busyWork = false →
        (∃ u, exec (.glbReqRetain t) s = .next u ∧ begun u 1 ∧ SameData s u ∧ u.parts = s.parts) ∧
        (∃ u, exec (.glbReqDark t) s = .next u ∧ begun u 2 ∧ u.pantry = [] ∧ u.larder = [] ∧ u.cores = [] ∧ u.cache = [])) ∧
      (state s = 0 → s.busyWork = true →
        (∃ u, exec (.glbReqRetain t) s = .next u ∧ refused u 1 1) ∧ (∃ u, exec (.glbReqDark t) s = .next u ∧ refused u 2 1)) ∧
      (state s = 2 → ∃ u, exec (.glbReqRetain t) s = .next u ∧ refused u 1 2) ∧
      (state s = 1 → ∃ u, exec (.glbReqReadyIdle out t) s = .next u ∧ begun u 0 ∧ SameData s u) ∧
      (state s = 2 → ∃ u, exec (.glbReqReadyIdle out t) s = .next u ∧ begun u 0 ∧ u.fld F.TACK_BRINGUP_READY 0 0 = 0 ∧
        u.fld F.TACK_BRINGUP_WAKE 0 0 = 1 ∧ u.bring.kind = 2 ∧ u.bring.out = out ∧ SameData s u)) ∧
    (s.pwr.off = false → s.pwr.change ≠ none →
      ∀ i ∈ [(0, Instr.glbReqReadyIdle out t), (1, Instr.glbReqRetain t), (2, Instr.glbReqDark t)],
        ∃ u, exec i.2 s = .next u ∧ u.pwr = { s.pwr with queued := some i.1 } ∧ u.fld F.GLB_POWER_STATE_REQ 0 0 = i.1 ∧
          u.fld F.GLB_POWER_STATE_REQ_STATUS 0 0 = 0 ∧ SameData s u) ∧
    (∀ target since, s.pwr.change = some (target, since) → target < 3 → s.pwr.queued = none →
      (target = 0 → state s = 2 → s.fld F.TACK_BRINGUP_READY 0 0 = 1) →
      ∃ u, exec (.powerStateChangeDone t) s = .next u ∧ state u = target ∧ u.fld F.GLB_POWER_STATE_CHANGING 0 0 = 0 ∧
        u.reg RG.GLB_WAKE_US 0 0 = sat32 ((now - since) / 1000) ∧ u.pwr.change = none ∧ SameData s u ∧ u.parts = s.parts ∧
        (∀ c, c < 96 → u.fld F.CELL_STAT_SELF_REFRESH c 0 = if target = 0 then 0 else 1) ∧
        (target = 1 → ∀ r, r < 100 → s.roomLive r = true → u.fld F.CLK_ROOM_STAT_OP r 0 = 0)) ∧
    (∀ fn r op, fn ≤ 512 → r < 128 → state s = 1 → s.fld F.GLB_POWER_STATE_CHANGING 0 0 = 0 →
      (s.requesting fn r = true → op ≠ 8 → op ≠ 9 → ∃ u, exec (.retainAutoWake none fn r op t) s = .next u ∧
        u = { s1 with regs := u.regs, pwr := { s.pwr with change := some (0, now) } } ∧
        u.fld F.GLB_POWER_STATE_CHANGING 0 0 = 1 ∧ u.fld F.GLB_POWER_STATE_REQ 0 0 = 0) ∧
      (∀ b, b < 97 → (s.port b).rx.any (fun q => fieldAt q.2 0 1 != 12) = true →
        ∃ u, exec (.retainAutoWake (some b) fn r op t) s = .next u ∧
          u = { s1 with regs := u.regs, pwr := { s.pwr with change := some (0, now) } } ∧
          u.fld F.GLB_POWER_STATE_CHANGING 0 0 = 1))

/-- R511, R512: an image that passes R510's checks is staged in the slot that does not run, and any other leaves both; ARM makes the
staged slot the one to try, CONFIRM keeps a running trial and raises the anti-rollback count, which never falls; the ABI moves
within the range while no harness is loaded. R511: a trial that does not reach READY in 10 s gives way to the other slot. R518:
the firmware restarts on an error of its memory, which is logged. R509: CONFIRM of a survey writes the record to all three copies.
(Log 102, 103, 110, 125: DEDUCED.) -/
def Obligations.FirmwareImages : Prop :=
  ∀ (img : Bytes) (v addr t : Nat) (s : State), s.canon = true → v < 2 ^ 32 →
    let s1 : State := { s with mono := max s.mono t }
    let slot := s.fld F.TACK_FW_STAT_SLOT 0 0
    (s.linkUp 0 = false → ∃ u, exec (.fwStage img t) s = .next u ∧ s1.FieldSet u F.TACK_FW_STAT_STAGE_STATUS 0 0 1) ∧
    (s.linkUp 0 = true → s.fwCheck img ≠ 0 →
      ∃ u, exec (.fwStage img t) s = .next u ∧ s1.FieldSet u F.TACK_FW_STAT_STAGE_STATUS 0 0 (s.fwCheck img)) ∧
    (s.linkUp 0 = true → s.fwCheck img = 0 → slot < 2 →
      ∃ u, exec (.fwStage img t) s = .next u ∧ u.fld F.TACK_FW_STAT_STAGE_STATUS 0 0 = 0 ∧ u.fwSlot (1 - slot) = img ∧
        u.fwSlot slot = s.fwSlot slot ∧ u.nv.staged = some (1 - slot) ∧ u.nv.svn = s.nv.svn ∧ SameData s u ∧
        s1.SameRegsBut u RG.TACK_FW_STAT.typ 0 RG.TACK_FW_STAT.off) ∧
    (∀ k, s.nv.staged = some k → exec (.fwArm t) s =
      .next { s1 with nv := { s.nv with prefer := k, trial := true, tried := false, staged := none } }) ∧
    (s.nv.staged = none → exec (.fwArm t) s = .next s1) ∧
    (s.fld F.TACK_FW_STAT_TRIAL 0 0 = 1 →
      ∃ u, exec (.fwConfirm t) s = .next u ∧ u.fld F.TACK_FW_STAT_TRIAL 0 0 = 0 ∧ u.nv.trial = false ∧ u.nv.tried = false ∧
        u.nv.svn = max s.nv.svn (fieldAt (s.fwSlot slot) 0x0C 4) ∧ u.fld F.TACK_FW_STAT_SVN_FUSE 0 0 = u.nv.svn % 128 ∧
        u.nv.slotA = s.nv.slotA ∧ u.nv.slotB = s.nv.slotB ∧ SameData s u ∧ u.parts = s.parts) ∧
    (let inRange := s.fld F.TACK_FW_ABI_RANGE_MIN 0 0 ≤ v ∧ v ≤ s.fld F.TACK_FW_ABI_RANGE_MAX 0 0
     let loaded := s.parts.any (fun e => e.2.harn.isSome)
     (inRange → loaded = false → ∃ u, exec (.fwAbiSelWrite v) s = .next u ∧ u.nv = { s.nv with abiSaved := some v } ∧
       ({ s with nv := u.nv } : State).RegSet u RG.TACK_FW_ABI_SEL 0 0 v) ∧
     (¬inRange ∨ loaded = true → exec (.fwAbiSelWrite v) s = .next s)) ∧
    (s.fld F.TACK_FW_STAT_TRIAL 0 0 = 1 → s.fld F.TACK_BRINGUP_READY 0 0 = 0 → s.bring.kind = 1 → 10 ^ 10 ≤ s1.mono → slot < 2 →
      s.fwCheck (s.fwSlot (1 - slot)) = 0 →
      ∃ u, exec (.fwTrialWatchdog t) s = .next u ∧ u.fld F.TACK_FW_STAT_SLOT 0 0 = 1 - slot ∧ u.fld F.TACK_FW_STAT_TRIAL 0 0 = 0 ∧
        u.nv.prefer = 1 - slot ∧ u.nv.trial = false ∧ u.nv.svn = s.nv.svn) ∧
    (s.recovery = false → s.err.log.length < 4096 →
      ∃ u, exec (.firmwareRestart addr t) s = .next u ∧ u.pwr = { s.pwr with fwDown := some s1.mono } ∧ SameData s u ∧ u.parts = s.parts ∧
        ∃ r, u.err.log = r :: s.err.log ∧ r.kind = 11 ∧ r.sev = 1 ∧ r.addr = addr % 2 ^ 64 ∧ r.mono = s1.mono) ∧
    (s.fld F.TACK_BRINGUP_SURVEY 0 0 = 1 → s.fld F.TACK_BRINGUP_READY 0 0 = 1 →
      ∃ u, exec (.surveyConfirm t) s = .next u ∧ u.fld F.TACK_BRINGUP_SURVEY 0 0 = 0 ∧ u.nv.flashA.events = s.nv.record.take 4096 ∧
        u.nv.flashB.events = s.nv.record.take 4096 ∧ u.nv.efuse = (s.nv.efuse ++ s.nv.record).take 2048 ∧
        u.nv.record = s.nv.record ∧ SameData s u)

/-- R561: with power good the device answers at its bus address what MCTP control and the sensors of PLDM ask, and no other
address; a sensor asked for outside recovery and stage 2 is read as it stands. Nothing but the answers changes.
(Log 123: PRESUMED.) -/
def Obligations.ManagementBusAnswers : Prop :=
  ∀ (addr kind n t : Nat) (s : State), addr < 128 →
    let s1 : State := { s with mono := max s.mono t }
    let mine := addr = 0x58 + s.pwr.addrSel ∧ s.pwr.pwrgd = true
    (¬mine → exec (.mctpMessage addr kind n t) s = .next s1) ∧
    (mine → kind = 0 → exec (.mctpMessage addr kind n t) s = .next { s1 with smb := s.smb ++ [⟨0, 0, 0⟩] }) ∧
    (mine → kind = 1 → s.recovery = false → s.fld F.TACK_BRINGUP_STAGE 0 0 ≠ 2 →
      (∀ x, s1.sensor n = some x → exec (.mctpMessage addr kind n t) s = .next { s1 with smb := s.smb ++ [⟨1, n, x⟩] }) ∧
      (s1.sensor n = none → exec (.mctpMessage addr kind n t) s = .next s1) ∧
      (18 < n → s1.sensor n = none) ∧ s1.sensor 1 = some ((s.fld F.PWR_BUS_MV_A_MV 0 0 : Nat) : Int) ∧
      s1.sensor 0 = some ((s.reg RG.MTR_INPUT_MW 0 0 / 1000 : Nat) : Int) ∧
      (s.pwr.tripped = false → s.fld F.TACK_BRINGUP_READY 0 0 = 1 → s.fld F.TACK_BRINGUP_SURVEY 0 0 = 0 → s1.sensor 18 = some 1))

/-! ## Power in service -/

/-- The block (`typ`, `inst`) of `u` shows an event of a code as posted. -/
def Posted (u : State) (typ inst code : Nat) : Prop := bitOf (u.creg typ inst RG.EVT_STAT) (evtBit code) = true

/-- `u` has the memories of `s`, and every partition of it. -/
def SameMemories (s u : State) : Prop := u.pantry = s.pantry ∧ u.larder = s.larder ∧ u.cellar = s.cellar ∧ u.parts = s.parts

/-- R433, R446: the regulator target of a room, in the 10 bits that show it: its point's voltage and the highest raise in force; 0 of
a room that is off or dark. -/
def TargetShown (u : State) (r : Nat) : Prop :=
  u.fld F.PWR_ROOM_MV_TARGET_MV r 0 = if (u.room r).seq = 0 ∨ u.fld F.PWR_ROOM_STAT_DARK r 0 = 1 then 0
    else (u.baseMv r + (u.room r).knocks.foldl (fun n k => max n k.raise) 0) % 1024

/-- R252, R433: a KNOCK puts the raise and mode it names in force at its room, and the end of its HOLD takes it out, the mode held
while the setpoint is on its way back; the target is the point's voltage and the highest raise in force. R431, R432: a droop of 30 mV stretches the room's clock with reason 5 in
force, until the minimum has been within 15 mV for 64 cycles, which count. R466, R468: a reason out of force for 1 ms ends, with
an event. (Log 111: DEDUCED.) -/
def Claims.KnocksAndDroop : Prop :=
  ∀ (core p w room k mv cycles t : Nat) (s : State), s.canon = true → keysRise s.pwr.rooms = true → keysRise s.rein.occ = true → room < 100 →
    let s1 : State := { s with mono := max s.mono t }
    let x := s.room room
    let kn := (s.part p).harness.knocks.getD (bitsOf w 19 4) {}
    let kr := s.physRoom (core / 128)
    (core < 12288 → s.ctlSlot core 4 = some (p, w) →
      ∃ u, exec (.knock core) s = .next u ∧ u.room kr = { s.room kr with knocks := (s.room kr).knocks ++ [⟨core, kn.raiseMv, kn.hb, kn.hold⟩] } ∧
        (∀ r, r ≠ kr → u.room r = s.room r) ∧ TargetShown u kr ∧ SameMemories s u ∧ (s.core core).SamePlace (u.core core) ∧
        ∀ d, d ≠ core → u.core d = s.core d) ∧
    (∀ n, x.knocks[k]? = some n →
      (256 * n.hold ≤ cycles → ∃ u, exec (.knockHoldEnd room (k, cycles)) s = .next u ∧
        u.room room = { x with knocks := x.knocks.eraseIdx k, hbBack := (u.room room).hbBack } ∧
        (x.hbBack = true → (u.room room).hbBack = true) ∧
        (x.hbBack = false → ((u.room room).hbBack = true ↔ x.knocks.any (fun q => q.hb) = true ∧
          (x.knocks.eraseIdx k).foldl (fun m q => max m q.raise) 0 < x.knocks.foldl (fun m q => max m q.raise) 0)) ∧
        (∀ r, r ≠ room → u.room r = s.room r) ∧ TargetShown u room ∧ SameMemories s u ∧ u.cores = s.cores) ∧
      (cycles < 256 * n.hold → exec (.knockHoldEnd room (k, cycles)) s = .next s)) ∧
    (mv < 1024 → s.roomLive room = true → mv + 30 ≤ s.fld F.PWR_ROOM_MV_TARGET_MV room 0 → s.fld F.PWR_ROOM_STAT_DROOP_STRETCH room 0 = 0 →
      ∃ u, exec (.droopStretchStart room mv t) s = .next u ∧ u.fld F.PWR_ROOM_STAT_DROOP_STRETCH room 0 = 1 ∧
        u.fld F.PWR_ROOM_MV_DROOP_MIN_MV room 0 = mv ∧ (u.occ 5 room).on = true ∧ SameMemories s u ∧ u.cores = s.cores ∧ u.pwr = s.pwr) ∧
    (mv < 1024 → s.fld F.PWR_ROOM_STAT_DROOP_STRETCH room 0 = 1 → s.fld F.PWR_ROOM_MV_TARGET_MV room 0 ≤ mv + 15 → 64 ≤ cycles →
      ∃ u, exec (.droopStretchEnd room mv cycles t) s = .next u ∧ u.fld F.PWR_ROOM_STAT_DROOP_STRETCH room 0 = 0 ∧
        u.fld F.PWR_ROOM_MV_DROOP_MIN_MV room 0 = mv ∧ (u.occ 5 room).on = false ∧
        u.reg RG.PWR_STRETCH_CYCLES room 0 = sat32 (s.reg RG.PWR_STRETCH_CYCLES room 0 + cycles) ∧ SameMemories s u ∧ u.cores = s.cores) ∧
    (k < 11 → s.occ k room ≠ {} → (s.occ k room).on = false → (s.occ k room).last + 1000000 ≤ s1.mono → s.recovery = false →
      ∃ u, exec (.throttleEnd k room t) s = .next u ∧ u.occ k room = {} ∧ Posted u 0x13 room Ev.THROTTLE_END ∧ SameMemories s u ∧
        u.cores = s.cores ∧ ∀ j r, 128 * j + r ≠ 128 * k + room → u.occ j r = s.occ j r) ∧
    (k < 11 → s.occ k devScope ≠ {} → (s.occ k devScope).on = false → (s.occ k devScope).last + 1000000 ≤ s1.mono → s.recovery = false →
      ∃ u, exec (.throttleEnd k devScope t) s = .next u ∧ u.occ k devScope = {} ∧ Posted u 0x7 0 Ev.THROTTLE_END ∧ SameMemories s u ∧
        u.cores = s.cores)

/-- `u` is without power but on standby: its memories and cores are lost, no partition has a harness, its links and ports are down. -/
def PowerGone (u : State) : Prop :=
  u.pwr.off = true ∧ u.pantry = [] ∧ u.larder = [] ∧ u.cellar = [] ∧ u.cores = [] ∧ u.linkUp 0 = false ∧ u.linkUp 1 = false ∧
    (∀ b, b < 96 → u.fld F.BRDL_PORT_STAT_STATE b 0 = 0) ∧ (∀ p, (u.part p).harn = none ∧ (u.part p).running = false) ∧
    (∀ r n, r < 100 → n < 12 → u.fld F.PWR_PHASE_STAT_HEALTHY r n = 0) ∧ u.fld F.PWR_PORCH_CONV_OK 0 0 = 0

/-- R422, R435, R557: 1 ms below 46 V, a thermal trip and RST_N stop every converter but standby, and what they power is lost; a trip is
latched, with its room or its outside cause, and THERMTRIP_N held low. R495, R499: when standby fails too, all but flash and eFuse
and the Meter's lines is at reset, with time at 0. R422: busbar voltages are shown, and a change of either's health reported.
(Log 101, 127, 128: DEDUCED; 129: DESIGN CHOICE.) -/
def Obligations.SuppliesFail : Prop :=
  ∀ (a b t : Nat) (s : State), s.canon = true → a < 2 ^ 16 → b < 2 ^ 16 →
    let s1 : State := { s with mono := max s.mono t }
    let new := b2n (decide (46000 < a)) + 2 * b2n (decide (46000 < b))
    (∃ u, exec (.busbarChange a b t) s = .next u ∧ u.reg RG.PWR_BUS_MV 0 0 = a + 2 ^ 16 * b ∧ u.reg RG.PWR_BUS 0 0 = new ∧
      SameMemories s u ∧ u.cores = s.cores ∧ u.pwr = s.pwr ∧
      (s.reg RG.PWR_BUS 0 0 ≠ new → s.recovery = false → Posted u 0x5 0 Ev.BUS_CHANGE) ∧
      (s.reg RG.PWR_BUS 0 0 = new → s1.SameRegsBut u RG.PWR_BUS_MV.typ 0 RG.PWR_BUS_MV.off)) ∧
    (∃ u, exec (.busUndervoltage t) s = .next u ∧ PowerGone u ∧ u.nv = s.nv ∧ u.pwr.tripped = s.pwr.tripped) ∧
    (∃ u, exec (.resetAssert t) s = .next u ∧ PowerGone u ∧ u.nv = s.nv ∧ u.pwr.rstLow = true) ∧
    (∀ room, room.getD 0 < 100 →
      (s.pwr.tripped = false → ∃ u, exec (.thermtrip room t) s = .next u ∧ PowerGone u ∧ u.nv = s.nv ∧ u.pwr.tripped = true ∧
        u.pwr.tripLow = true ∧ u.fld F.PWR_TRIP_SEEN 0 0 = 1 ∧ u.fld F.PWR_TRIP_EXTERNAL 0 0 = b2n room.isNone ∧
        u.fld F.PWR_TRIP_ROOM 0 0 = room.getD 0) ∧
      (s.pwr.tripped = true → exec (.thermtrip room t) s = .next s1)) ∧
    (∃ u, exec (.standbyFail t) s = .next u ∧ u.nv = { s.nv with record := [] } ∧ u.mtr.lines = s.mtr.lines ∧ u.mtr.total = s.mtr.total ∧
      u.mtr.kept = s.mtr.kept ∧ u.mono = 0 ∧ u.time.set = false ∧ u.parts = [] ∧ u.cores = [] ∧ u.pantry = [] ∧ u.larder = [] ∧
      u.cellar = [] ∧ u.pending = s.pending ∧ u.host.mem = s.host.mem ∧ u.reg RG.TIME_DISC 0 0 = s.reg RG.TIME_DISC 0 0 ∧
      u.reg64 RG.MTR_TOTAL_MJ_LO RG.MTR_TOTAL_MJ_HI 0 0 = s.reg64 RG.MTR_TOTAL_MJ_LO RG.MTR_TOTAL_MJ_HI 0 0 ∧
      u.reg RG.MTR_INPUT_MW 0 0 = regReset 0x40 RG.MTR_INPUT_MW.off ∧
      ∀ typ i off, typ ≠ 0x40 → typ ≠ 0x41 → u.regAt typ i off = regReset typ off)

/-- `u` has physical room `r` dark and a hole, every live partition stopped, and the room's on-wafer bytes zero. -/
def RoomLost (s u : State) (r : Nat) : Prop :=
  u.fld F.PWR_ROOM_STAT_DARK r 0 = 1 ∧ u.hole r = true ∧
    (∀ p, (s.part p).pstate = .live → (s.part p).stopped = none → (u.part p).stopped = some St.ROOM_DARK) ∧
    (∀ i off, s.logRoom r < 96 → i < 32 → off < 2 ^ 23 → tget u.pantry ((32 * s.logRoom r + i) * 2 ^ 23 + off) 0 = 0) ∧
    (∀ i off, s.logRoom r < 96 → i < 32 → off < sliceBytes → tget u.larder (larderKey (32 * s.logRoom r + i) off) 0 = 0)

/-- R423: a porch converter that fails is reported, and the second of a side takes the side's 24 ports down and stops every partition.
R426, R427: the partner of a room converter that fails takes the load through their tie, else the room is a hole, and with it the
partner whose load it carried, as after an overcurrent above 250 A (R434). R428-R430: a phase that fails opens, and below six healthy phases the room's tiles go dark. R217: of
two live neighbours more than 40 K apart the hotter one is sent to OP0 with reason 9. In service, or with power waves of a bring-up
still to come. (Log 106, 113, 114: DEDUCED.) -/
def Obligations.RoomSuppliesFail : Prop :=
  ∀ (room phase fault conv other q amps a ta b tb t : Nat) (s : State), s.canon = true → keysRise s.pwr.rooms = true → keysRise s.rein.occ = true →
    s.recovery = false → room < 100 → amps < 2 ^ 16 →
    let s1 : State := { s with mono := max s.mono t }
    let same := fun (u : State) => SameMemories s u ∧ u.cores = s.cores
    let on := s.bring.kind = 0 ∨ s.bring.waves ≠ []
    (conv < 8 → bitOf (s.fld F.PWR_PORCH_CONV_OK 0 0) conv = true →
      ∃ u, exec (.porchConverterFail conv t) s = .next u ∧ u.fld F.PWR_PORCH_CONV_OK 0 0 = s.fld F.PWR_PORCH_CONV_OK 0 0 - 2 ^ conv ∧
        Posted u 0x5 0 Ev.PORCH_CONV_FAIL ∧ (u.sideDown (conv / 2) = false → same u) ∧
        (u.sideDown (conv / 2) = true → (∀ i, i < 24 → u.fld F.BRDL_PORT_STAT_STATE (24 * (conv / 2) + i) 0 = 0) ∧
          ∀ p, (s.part p).pstate = .live → (s.part p).stopped = none → (u.part p).stopped = some St.PORCH_POWER)) ∧
    (s.convOk room = false → exec (.roomConverterFail room t) s = .next s1) ∧
    (s.convOk room = true →
      (tiePair room = some (q, other) → other < 100 → s.convOk other = true →
        ∃ u, exec (.roomConverterFail room t) s = .next u ∧ u.fld F.PWR_ROOM_STAT_CONV_FAIL room 0 = 1 ∧ u.fld F.PWR_ROOM_STAT_TIED room 0 = 1 ∧
          u.fld F.PWR_ROOM_STAT_TIED other 0 = 1 ∧ u.tieClosed q = true ∧ u.convOk room = false ∧ Posted u 0x11 room Ev.CONV_TIE ∧ same u) ∧
      (on → (tiePair room = none ∨ ∃ q' o, tiePair room = some (q', o) ∧ s.convOk o = false ∧ (s.tieClosed q' = false ∨ (s.room o).seq = 0)) →
        ∃ u, exec (.roomConverterFail room t) s = .next u ∧ RoomLost s u room ∧ u.convOk room = false ∧ Posted u 0x11 room Ev.ROOM_DARK) ∧
      (on → tiePair room = some (q, other) → s.convOk other = false → s.tieClosed q = true → (s.room other).seq ≠ 0 →
        ∃ u, exec (.roomConverterFail room t) s = .next u ∧ RoomLost s u room ∧ u.hole other = true ∧ u.room other = {} ∧
          Posted u 0x11 room Ev.ROOM_DARK ∧ Posted u 0x11 other Ev.ROOM_DARK)) ∧
    (phase < 12 → 1 ≤ fault → fault ≤ 4 → s.fld F.PWR_PHASE_STAT_HEALTHY room phase = 0 → exec (.phaseFail room phase fault t) s = .next s1) ∧
    (phase < 12 → 1 ≤ fault → fault ≤ 4 → s.fld F.PWR_PHASE_STAT_HEALTHY room phase = 1 → (on ∨ 7 ≤ s.healthyPhases room) →
      ∃ u, exec (.phaseFail room phase fault t) s = .next u ∧ u.fld F.PWR_PHASE_STAT_HEALTHY room phase = 0 ∧
        u.fld F.PWR_PHASE_STAT_FAULT room phase = fault ∧ u.healthyPhases room + 1 = s.healthyPhases room ∧
        Posted u 0x11 room Ev.PHASE_FAIL ∧
        (7 ≤ s.healthyPhases room → same u ∧ u.fld F.PWR_ROOM_STAT_HEALTHY_PHASES room 0 = u.healthyPhases room) ∧
        (s.healthyPhases room ≤ 6 → (s.room room).seq ≠ 0 → s.fld F.PWR_ROOM_STAT_DARK room 0 = 0 →
          u.fld F.PWR_ROOM_STAT_DARK room 0 = 1 ∧ Posted u 0x11 room Ev.ROOM_DARK ∧
          ∀ p tile, (s.part p).pstate = .live → (s.part p).stopped = none → tile ∈ (s.part p).tiles → tile / 32 = s.logRoom room →
            (u.part p).stopped = some St.ROOM_DARK)) ∧
    ((amps ≤ 2500 ∨ s.roomLive room = false) → ∃ u, exec (.roomOvercurrent room amps t) s = .next u ∧ s1.RegSet u RG.PWR_ROOM_AMPS room 0 amps) ∧
    (2500 < amps → on → s.roomLive room = true →
      ∃ u, exec (.roomOvercurrent room amps t) s = .next u ∧ RoomLost s u room ∧ Posted u 0x11 room Ev.ROOM_DARK) ∧
    (a < 100 → b < 100 → ta < 128 → tb < 128 → besides a b = true → s.roomLive a = true → s.roomLive b = true → (tb + 40 < ta ∨ ta + 40 < tb) →
      let hot := if tb ≤ ta then a else b
      let cool := if tb ≤ ta then b else a
      let rising := 1 ≤ (s.room hot).chg ∧ (s.room hot).chg ≤ 3
      ∃ u, exec (.neighbourTempSkew a ta b tb t) s = .next u ∧ u.rein.skew.contains (hot, cool) = true ∧
        (u.occ 9 hot).on = true ∧ Posted u 0x3 0 Ev.HALL_SKEW ∧ same u ∧
        ((s.roomOpp hot ≠ 0 ∨ rising) → (u.room hot).forcedOp = some 0) ∧
        (s.roomOpp hot = 0 → ¬rising → u.room hot = s.room hot) ∧
        (rising → u.fld F.CLK_ROOM_STAT_OP_TARGET hot 0 = 0) ∧
        ((s.room hot).chg = 0 → s.roomOpp hot ≠ 0 → u.fld F.CLK_ROOM_STAT_OP_TARGET hot 0 = 0 ∧ (u.room hot).chg = 2)) ∧
    (a < 100 → b < 100 → ta < 128 → tb < 128 → besides a b = true →
      (s.roomLive a = false ∨ s.roomLive b = false ∨ (ta ≤ tb + 40 ∧ tb ≤ ta + 40)) → exec (.neighbourTempSkew a ta b tb t) s = .next s1)

/-- R459, R458: SHED_N stretches every live room at 0.45 V with reason 4 in force for the device; its release takes the stretch and
the reason away, and the envelope is no higher than SHED_LEVEL. (Log 112: DEDUCED.) -/
def Claims.ShedStretches : Prop :=
  ∀ (t : Nat) (s : State), s.canon = true → keysRise s.rein.occ = true →
    (s.pwr.shed = false →
      ∃ u, exec (.shedAssert t) s = .next u ∧ u.pwr = { s.pwr with shed := true } ∧ SameMemories s u ∧ u.cores = s.cores ∧
        (u.occ 4 devScope).on = true ∧ ∀ r, r < 100 → s.roomLive r = true → u.fld F.REIN_ROOM_STAT_SHED_STRETCH r 0 = 1 ∧
          u.baseMv r = 450 ∧ TargetShown u r ∧ u.fld F.PWR_ROOM_STAT_FORCED_STRETCH r 0 = 1) ∧
    (s.pwr.shed = true → exec (.shedAssert t) s = .next { s with mono := max s.mono t }) ∧
    (s.pwr.shed = false → exec (.shedRelease t) s = .next { s with mono := max s.mono t }) ∧
    (s.pwr.shed = true →
      ∃ u, exec (.shedRelease t) s = .next u ∧ u.pwr = { s.pwr with shed := false } ∧ SameMemories s u ∧ u.cores = s.cores ∧
        (u.occ 4 devScope).on = false ∧ (∀ r, r < 100 → u.fld F.REIN_ROOM_STAT_SHED_STRETCH r 0 = 0) ∧
        u.rein.fac = min s.rein.fac ((s.fld F.REIN_SHED_LEVEL_W 0 0 : Nat) : Rat) ∧
        u.fld F.REIN_FAC_NOW_W 0 0 = u.rein.fac.floor.toNat % 2 ^ 14)

/-! ## Clocks and points -/

/-- R440, R441: a lost reference input is counted; its consumers follow the other, or, without one, Bridle stops and the cellar PHYs run
from their crystal; each PCIe link needs its own input. R442, R443: a room that loses its source takes its next present one or
holds over, the clock capped at OP3 with reason 8 from 1 ms on, until it locks to a present source again.
(Log 116: DEDUCED.) -/
def Claims.ReferencesComeAndGo : Prop :=
  ∀ (room rank t : Nat) (s : State), s.canon = true → keysRise s.pwr.rooms = true → keysRise s.rein.occ = true → room < 100 →
    let now := max s.mono t
    let s1 : State := { s with mono := now }
    let same := fun (u : State) => SameMemories s u ∧ u.cores = s.cores
    let src := s.fld F.CLK_ROOM_STAT_SRC room 0
    let ok := fun (k : Nat) => k ≠ src ∧ s.fld F.CLK_ROOM_SRC_PRESENT room k = 1 ∧ s.srcPresent room (s.fld F.CLK_ROOM_SRC_KIND room k) = true
    (s.refA = false → exec (.refclkLoss 0 t) s = .next s1) ∧ (s.refB = false → exec (.refclkLoss 1 t) s = .next s1) ∧
    (s.refA = true → exec (.refclkReturn 0 t) s = .next s1) ∧ (s.refB = true → exec (.refclkReturn 1 t) s = .next s1) ∧
    (s.refA = true → ∃ u, exec (.refclkLoss 0 t) s = .next u ∧ u.refA = false ∧ u.refB = s.refB ∧ u.linkUp 0 = false ∧
      u.fld F.CLK_REF_LOSSES_A 0 0 = min (2 ^ 16 - 1) (s.fld F.CLK_REF_LOSSES_A 0 0 + 1) ∧ SameMemories s u ∧
      (s.refB = true → u.fld F.CLK_REF_STAT_PORCH_SRC 0 0 = 1 ∧ u.linkUp 1 = s.linkUp 1 ∧ u.brdl = s.brdl ∧
        (s.fld F.CLK_REF_STAT_PORCH_SRC 0 0 = 0 → s.recovery = false → Posted u 0x6 0 Ev.REF_SWITCH)) ∧
      (s.refB = false → u.fld F.CLK_REF_STAT_BRIDLE_NOREF 0 0 = 1 ∧ u.fld F.CLK_REF_STAT_CELLAR_XTAL 0 0 = 1 ∧
        (∀ b, b < 96 → u.fld F.BRDL_PORT_STAT_STATE b 0 = 0) ∧ (s.recovery = false → Posted u 0x6 0 Ev.REF_LOST))) ∧
    (s.refB = true → ∃ u, exec (.refclkLoss 1 t) s = .next u ∧ u.refB = false ∧ u.refA = s.refA ∧ u.linkUp 1 = false ∧
      u.fld F.CLK_REF_LOSSES_B 0 0 = min (2 ^ 16 - 1) (s.fld F.CLK_REF_LOSSES_B 0 0 + 1) ∧ SameMemories s u ∧
      (s.refA = true → u.linkUp 0 = s.linkUp 0 ∧ u.brdl = s.brdl) ∧
      (s.refA = false → u.fld F.CLK_REF_STAT_BRIDLE_NOREF 0 0 = 1 ∧ ∀ b, b < 96 → u.fld F.BRDL_PORT_STAT_STATE b 0 = 0)) ∧
    (s.refA = false → ∃ u, exec (.refclkReturn 0 t) s = .next u ∧ u.refA = true ∧ u.refB = s.refB ∧ u.fld F.CLK_REF_STAT_PORCH_SRC 0 0 = 0 ∧
      u.fld F.CLK_REF_STAT_BRIDLE_NOREF 0 0 = 0 ∧ u.fld F.CLK_REF_STAT_CELLAR_XTAL 0 0 = 0 ∧ same u) ∧
    (s.refB = false → ∃ u, exec (.refclkReturn 1 t) s = .next u ∧ u.refB = true ∧ u.refA = s.refA ∧
      u.fld F.CLK_REF_STAT_PORCH_SRC 0 0 = (if s.refA = true then 0 else 1) ∧ u.fld F.CLK_REF_STAT_BRIDLE_NOREF 0 0 = 0 ∧ same u) ∧
    ((s.room room).seq = 10 → s.fld F.CLK_ROOM_STAT_HOLDOVER room 0 = 0 →
      (∀ k, k < 4 → ok k → (∀ j, j < k → ¬ok j) → ∃ u, exec (.roomRefLoss room t) s = .next u ∧ u.fld F.CLK_ROOM_STAT_SRC room 0 = k ∧
        u.fld F.CLK_ROOM_STAT_HOLDOVER room 0 = 0 ∧ u.fld F.CLK_ROOM_SRC_PRESENT room src = 0 ∧
        u.fld F.CLK_ROOM_REFSW_SWITCHES room 0 = min (2 ^ 16 - 1) (s.fld F.CLK_ROOM_REFSW_SWITCHES room 0 + 1) ∧ u = { s1 with regs := u.regs }) ∧
      ((∀ j, j < 4 → ¬ok j) → ∃ u, exec (.roomRefLoss room t) s = .next u ∧ u.fld F.CLK_ROOM_STAT_HOLDOVER room 0 = 1 ∧
        (u.room room).holdSince = now ∧ (∀ r, r ≠ room → u.room r = s.room r) ∧
        u.fld F.CLK_ROOM_REFSW_HOLDOVERS room 0 = min (2 ^ 16 - 1) (s.fld F.CLK_ROOM_REFSW_HOLDOVERS room 0 + 1) ∧ same u)) ∧
    (s.fld F.CLK_ROOM_STAT_HOLDOVER room 0 = 1 →
      ((s.room room).holdSince + 1000000 < now → ∃ u, exec (.holdoverCap room t) s = .next u ∧ u.fld F.CLK_ROOM_STAT_REF_CAPPED room 0 = 1 ∧
        (u.occ 8 room).on = true ∧ same u ∧ u.pwr = s.pwr) ∧
      (rank < 4 → s.srcPresent room (s.fld F.CLK_ROOM_SRC_KIND room rank) = true →
        ∃ u, exec (.roomRefLock room rank t) s = .next u ∧ u.fld F.CLK_ROOM_STAT_SRC room 0 = rank ∧ u.fld F.CLK_ROOM_STAT_HOLDOVER room 0 = 0 ∧
          u.fld F.CLK_ROOM_STAT_REF_CAPPED room 0 = 0 ∧ u.fld F.CLK_ROOM_SRC_PRESENT room rank = 1 ∧ (u.occ 8 room).on = false ∧ same u ∧
          u.pwr = s.pwr))

/-- R444, R448: a change of a room's point waits, its voltage raised, for every core to stop; it stops the clock and switches, or
relocks between the clock groups; the new point is the target or, if lower, what its phases and R217 allow; the time stopped counts;
a lower voltage then ramps down and the change counts as done, the next one beginning where R217 still forces the room down. Nothing else of the machine is touched. (Log 108: DESIGN CHOICE.) -/
def Claims.PointsChange : Prop :=
  ∀ (room t : Nat) (s : State), s.canon = true → keysRise s.pwr.rooms = true → keysRise s.rein.occ = true → room < 100 →
    let now := max s.mono t
    let s1 : State := { s with mono := now }
    let x := s.room room
    let same := fun (u : State) => SameMemories s u ∧ u.cores = s.cores ∧ ∀ r, r ≠ room → u.room r = s.room r
    let to_ := min (min (s.fld F.CLK_ROOM_STAT_OP_TARGET room 0) (s.opLimit room)) (x.forcedOp.getD 4)
    let op := s.roomOpp room
    let down := opMv to_ < s.baseMv room
    let counted := fun (u : State) => u.reg RG.CLK_ROOM_CHANGES room 0 = min (2 ^ 32 - 1) (s.reg RG.CLK_ROOM_CHANGES room 0 + 1)
    (x.chg = 1 → ∃ u, exec (.voltageRampDone room t) s = .next u ∧ u.room room = { x with chg := 2, hbBack := false } ∧ same u ∧
      (x.hbBack = false → u = { s1 with pwr := u.pwr })) ∧
    (x.chg = 5 → ∃ u, exec (.voltageRampDone room t) s = .next u ∧ same u ∧ counted u ∧
      ((∀ o, x.forcedOp = some o → o = op) → u.room room = { x with chg := 0, hbBack := false }) ∧
      (∀ o, x.forcedOp = some o → o < op → (u.room room).chg = 2 ∧ u.fld F.CLK_ROOM_STAT_OP_TARGET room 0 = o)) ∧
    (x.chg ≠ 1 → x.chg ≠ 5 → ∃ u, exec (.voltageRampDone room t) s = .next u ∧ u.room room = { x with hbBack := false } ∧ same u) ∧
    (x.chg = 2 → (s.roomCores room).all s.coreStopped = true →
      ∃ u, exec (.roomStopped room t) s = .next u ∧ u.room room = { x with chg := 3, stopAt := now } ∧ same u ∧ u.roomStop.contains room = true ∧
        u.fld F.CLK_ROOM_STAT_OP_TARGET room 0 = to_ ∧ u.roomOpp room = op ∧
        ((decide (to_ ≤ 1) = decide (op ≤ 1)) → u.fld F.CLK_ROOM_STAT_SWITCHING room 0 = 1) ∧
        ((decide (to_ ≤ 1) ≠ decide (op ≤ 1)) → u.fld F.CLK_ROOM_STAT_RELOCK room 0 = 1)) ∧
    (x.chg = 2 → (s.roomCores room).all s.coreStopped = false → exec (.roomStopped room t) s = .next s1) ∧
    (x.chg = 3 → ∃ u, exec (.clockSwitchDone room t) s = .next u ∧ same u ∧ u.roomStop.contains room = false ∧ u.roomOpp room = to_ ∧
      u.fld F.CLK_ROOM_STAT_SWITCHING room 0 = 0 ∧ u.fld F.CLK_ROOM_STAT_RELOCK room 0 = 0 ∧
      u.reg RG.CLK_ROOM_STOP_NS room 0 = sat32 (s.reg RG.CLK_ROOM_STOP_NS room 0 + (now - x.stopAt)) ∧
      (down → (u.room room).chg = 5) ∧ (¬down → (u.room room).chg = 0 ∧ counted u) ∧
      (u.room room).forcedOp = none) ∧
    (x.chg ≠ 2 → exec (.roomStopped room t) s = .next s1) ∧ (x.chg ≠ 3 → exec (.clockSwitchDone room t) s = .next s1)

/-! ## Rein -/

/-- R446, R452-R458, R462, R463, R470: a decision moves the facility envelope by its ramp toward its target, takes the least cap and shows it
with its reason, lowers the thermal ceiling of every room at 95 °C, shows every live room's assignment, and issues the change to
it where none is under way; the operator's power of the interval is kept for the next. Nothing in memory changes. Before READY, and
out of ready-idle, there is no decision. (Log 118, 119, 159: DEDUCED.) -/
def Obligations.ReinDecides : Prop :=
  ∀ (rooms : List (Nat × Nat × Bool × Int)) (sense : List (Nat × Nat × Nat × List Nat)) (inputMw t : Nat) (s : State), s.canon = true →
    keysRise s.pwr.rooms = true →
    keysRise s.rein.occ = true → rooms.all (fun q => decide (q.1 < 100)) = true → (rooms.map (fun q => q.1)).Nodup →
    sense.all (fun q => decide (q.1 < 100) && decide (q.2.1 < 1024) && decide (q.2.2.1 < 2 ^ 16) && q.2.2.2.all (fun a => decide (a < 256))) = true →
    let target : Rat := ((s.fld F.REIN_FAC_TARGET_W 0 0 : Nat) : Rat)
    let step : Rat := ((max 100 (min 5000 (s.fld F.REIN_FAC_RAMP_WPS 0 0)) : Nat) : Rat) / 10000
    let f := s.rein.fac
    ((s.fld F.TACK_BRINGUP_READY 0 0 = 0 ∨ s.fld F.GLB_POWER_STATE_STATE 0 0 ≠ 0) →
      ∃ u, exec (.reinDecision (rooms, sense) inputMw t) s = .next u ∧ u = { s with mono := max s.mono t, regs := u.regs }) ∧
    (s.fld F.TACK_BRINGUP_READY 0 0 ≠ 0 → s.fld F.GLB_POWER_STATE_STATE 0 0 = 0 →
    ∃ u, exec (.reinDecision (rooms, sense) inputMw t) s = .next u ∧ SameData s u ∧
      u.rein.fac = (if f ≤ target then min target (f + step) else max target (f - step)) ∧ u.rein.pOp = s.mtr.operMw ∧ u.rein.rth = s.rein.rth ∧
      u.reg RG.REIN_EFF_CAP 0 0 = (lowest u.caps).1.floor.toNat % 2 ^ 14 + 2 ^ 16 * (lowest u.caps).2 ∧
      u.fld F.REIN_THERM_CAP_W 0 0 = min 16383 u.thermCap.floor.toNat ∧
      (∀ q, q ∈ rooms → s.roomLive q.1 = true → u.fld F.REIN_ROOM_STAT_THERM_CEIL q.1 0 =
        (if 95 ≤ q.2.2.2 then s.fld F.REIN_ROOM_STAT_THERM_CEIL q.1 0 - 1 else s.fld F.REIN_ROOM_STAT_THERM_CEIL q.1 0)) ∧
      (∀ r, r < 100 → s.roomLive r = true → (s.room r).chg = 0 →
        let a := u.fld F.REIN_ROOM_STAT_ASSIGNED r 0
        a ≤ 4 ∧ (a ≠ s.roomOpp r → u.fld F.CLK_ROOM_STAT_OP_TARGET r 0 = a ∧ (u.room r).chg = (if s.roomOpp r < a then 1 else 2)) ∧
        (a = s.roomOpp r → (u.room r).chg = 0)))

/-- R460, R461, R463-R465: the inlet temperature is the highest an inlet sensor answers within -10 to 70 °C, and 45 without one; the
estimate of the cooling resistance moves an eighth of the way to its sample, or to a sample a tenth above it at once, within its
range; a thermal ceiling rises by one point; the fans' speeds show as measured, and their duty moves by its rule within 20 to 100 %, a failed fan, and the time before
READY, holding it at 100.
(Log 117: DEDUCED; 121: DESIGN CHOICE.) -/
def Obligations.CoolingFollowsReadings : Prop :=
  ∀ (a b c d : Option Int) (room meanMw fan rpm t : Nat) (rpms : List Nat) (s : State), s.canon = true → keysRise s.rein.occ = true → room < 100 →
    fan < 8 → rpm < 2 ^ 16 → rpms.all (fun v => decide (v < 2 ^ 16)) = true →
    let s1 : State := { s with mono := max s.mono t }
    let good := [a, b, c, d].filterMap (fun x => match x with
      | some v => if -10 ≤ v ∧ v ≤ 70 then some v else none
      | none => none)
    let duty := s.fld F.REIN_FAN_DUTY 0 0
    let tj := toSigned 8 (s.fld F.REIN_TEMP_TJ_MAX 0 0)
    let others := (lowest (s.caps.filter (fun q => q.2 != 2))).1
    let want := s.fld F.REIN_FAN_EXPECT_RPM_100 0 0 * duty
    let same := fun (u : State) => SameMemories s u ∧ u.cores = s.cores
    (∃ u, exec (.inletPoll a b c d t) s = .next u ∧ same u ∧
      (good = [] → toSigned 8 (u.fld F.REIN_TEMP_T_IN 0 0) = 45 ∧ u.reg RG.REIN_INLET 0 0 = 0x80808080 ∧
        (s.reg RG.REIN_INLET 0 0 ≠ 0x80808080 → s.recovery = false → Posted u 0x7 0 Ev.INLET_LOST)) ∧
      (good ≠ [] → toSigned 8 (u.fld F.REIN_TEMP_T_IN 0 0) ∈ good ∧ ∀ v, v ∈ good → v ≤ toSigned 8 (u.fld F.REIN_TEMP_T_IN 0 0))) ∧
    (meanMw ≠ 0 → 90 ≤ duty →
      let smp : Rat := (((tj - s.tIn : Int)) : Rat) * 1000000000 / ((meanMw : Nat) : Rat)
      let r := s.rein.rth
      ∃ u, exec (.rthEstimate true meanMw t) s = .next u ∧ same u ∧
        u.rein.rth = max 3000 (min 50000 (if r * 11 / 10 < smp then smp else r + (smp - r) / 8)) ∧
        u.fld F.REIN_RTH_UKW 0 0 = u.rein.rth.floor.toNat ∧
        (((s.rein.degraded = none ∧ 7500 < u.rein.rth) ∨ ∃ d, s.rein.degraded = some d ∧ d + 1000 ≤ u.rein.rth) →
          u.rein.degraded = some u.rein.rth ∧ (s.recovery = false → Posted u 0x7 0 Ev.COOLING_DEGRADED))) ∧
    (∀ calm, (calm = false ∨ meanMw = 0 ∨ duty < 90) → exec (.rthEstimate calm meanMw t) s = .next s1) ∧
    exec (.rthFlashSave t) s = .next { s1 with nv := { s.nv with rth := some (s.fld F.REIN_RTH_UKW 0 0) } } ∧
    (∃ u, exec (.thermalCeilingRaise room t) s = .next u ∧ same u ∧ u.pwr = s.pwr ∧
      u.fld F.REIN_ROOM_STAT_THERM_CEIL room 0 = min 4 (s.fld F.REIN_ROOM_STAT_THERM_CEIL room 0 + 1)) ∧
    (∃ u n, exec (.fanDutyUpdate (rpms, t)) s = .next u ∧ (s1.showFans rpms).FieldSet u F.REIN_FAN_DUTY 0 0 n ∧
      (∀ k v, k < 8 → rpms[k]? = some v → u.fld F.REIN_FAN_RPM_RPM 0 k = v) ∧ 20 ≤ n ∧ n ≤ 100 ∧
      ((s.fansOk = false ∨ s.fld F.TACK_BRINGUP_READY 0 0 = 0 ∨ s.thermCap < others * 11 / 10) → n = 100) ∧
      (s.fansOk = true → s.fld F.TACK_BRINGUP_READY 0 0 ≠ 0 → others * 11 / 10 ≤ s.thermCap →
        (((s.fld F.REIN_FAN_TARGET 0 0 : Nat) : Int) + 2 ≤ tj → n = max 20 (min 100 (duty + 5))) ∧
        (tj ≤ ((s.fld F.REIN_FAN_TARGET 0 0 : Nat) : Int) - 5 → n = max 20 (min 100 (duty - 2))))) ∧
    (bitOf (s.fld F.REIN_FAN_OK 0 0) fan = true → rpm * 1000 < want →
      ∃ u, exec (.fanFail fan rpm t) s = .next u ∧ same u ∧ u.fld F.REIN_FAN_OK 0 0 = s.fld F.REIN_FAN_OK 0 0 - 2 ^ fan ∧
        u.fld F.REIN_FAN_DUTY 0 0 = 100 ∧ u.fld F.REIN_FAN_RPM_RPM 0 fan = rpm ∧ (s.recovery = false → Posted u 0x7 0 Ev.FAN_FAIL)) ∧
    (bitOf (s.fld F.REIN_FAN_OK 0 0) fan = false → want ≤ rpm * 1000 →
      ∃ u, exec (.fanOk fan rpm t) s = .next u ∧ u = { s1 with regs := u.regs } ∧
        u.fld F.REIN_FAN_OK 0 0 = s.fld F.REIN_FAN_OK 0 0 + 2 ^ fan ∧ u.fld F.REIN_FAN_DUTY 0 0 = duty ∧ u.fld F.REIN_FAN_RPM_RPM 0 fan = rpm)

/-! ## Bring-up -/

/-- R365, R499, R500, R503, R508-R510, R530: a cold bring-up with a busbar up starts from reset with an empty machine, a new
incarnation unlike the last one and the Meter running; it runs the first acceptable image of the boot order, or, without one,
stands in recovery mode; the copies' vote or, without agreement, a survey gives its map. Without a busbar nothing happens.
(Log 10: DESIGN CHOICE; 105: DEDUCED.) -/
def Obligations.ColdBringupStarts : Prop :=
  ∀ (t : Nat) (out : BringOut) (s : State), s.canon = true → bringOk out = true → s.nv.inc < 65536 →
    (out.busA ≤ 46000 → out.busB ≤ 46000 → exec (.coldBringup out t) s = .next { s with mono := max s.mono t }) ∧
    ((46000 < out.busA ∨ 46000 < out.busB) →
      ∃ u, exec (.coldBringup out t) s = .next u ∧ u.mono = 0 ∧ u.parts = [] ∧ u.cores = [] ∧ u.pantry = [] ∧ u.larder = [] ∧
        u.cellar = [] ∧ u.host.rings = [] ∧ u.host.mem = s.host.mem ∧ u.pending = s.pending ∧ u.mtr.lines = s.mtr.lines ∧
        u.nv.svn = s.nv.svn ∧ u.nv.key0 = s.nv.key0 ∧ u.nv.bank0 = s.nv.bank0 ∧
        u.nv.inc ≠ s.nv.inc ∧ 1 ≤ u.nv.inc ∧ u.nv.inc ≤ 65535 ∧ u.fld F.BRDL_NODE_INC 0 0 = u.nv.inc ∧ u.fld F.MTR_STAT_RUNNING 0 0 = 1 ∧
        (∀ k, s.bootOrder.find? (fun k => s.fwCheck (s.fwSlot k) == 0) = some k →
          u.fld F.TACK_FW_STAT_SLOT 0 0 = k % 2 ∧
          (∀ l, s.agreed = some (l, true) → u.fld F.ID_REC_STAT_VOTE 0 0 = 0 ∧ u.fld F.TACK_BRINGUP_SURVEY 0 0 = 0) ∧
          (s.agreed = none → u.fld F.ID_REC_STAT_VOTE 0 0 = 2 ∧ u.fld F.TACK_BRINGUP_SURVEY 0 0 = 1)) ∧
        (s.bootOrder.find? (fun k => s.fwCheck (s.fwSlot k) == 0) = none → u.recovery = true ∧ u.fld F.TACK_BRINGUP_STAGE 0 0 = 2 ∧
          u.bring.kind = 0))

/-- R427, R428, R430, R436-R439: the lowest wave still to come starts 200 µs after the one before, once that is complete, a room that
cannot be powered staying a hole and one with five or fewer healthy phases dark; each header stage that ends well gives way to the
next, the headers of the room's tiles closing with the last; one that fails its short check, or a current above 250 A, isolates the
room, which is failed and reported, and holds the stages of the rooms around it until 50 µs after the fault clears, a room that
drooped repeating its full check. A room whose full check finds no fault is complete; a tile that fails once has it repeated, and one
that fails again is retired. (Log 108: DESIGN CHOICE; 109: DEDUCED.) -/
def Obligations.RoomsPowerUp : Prop :=
  ∀ (room rail amps q t : Nat) (tiles drooped : List Nat) (s : State), s.canon = true → keysRise s.pwr.rooms = true →
    s.recovery = false → room < 100 → amps < 2 ^ 16 → tiles.all (fun x => decide (x < 36)) = true →
    drooped.all (fun x => decide (x < 100)) = true →
    let now := max s.mono t
    let s1 : State := { s with mono := now }
    let x := s.room room
    let bad := (s.testedTiles room).filter (fun y => tiles.contains y)
    let sound := ((List.range 12).filter (fun n => s.fld F.PWR_PHASE_STAT_FAULT room n == 0)).length
    let stays := q < 100 ∧ q ≠ room ∧ s.powering q = true
    let elsewhere := fun (u : State) => u.cellar = s.cellar ∧ u.parts = s.parts
    let failed := fun (u : State) => u.fld F.PWR_ROOM_STAT_FAILED room 0 = 1 ∧ u.room room = {} ∧
      u.bring.faults.contains room = true ∧ Posted u 0x11 room Ev.INRUSH_FAULT ∧ elsewhere u ∧
      (∀ r, r ∈ drooped → r ≠ room → s.roomLive r = true → (u.room r).drooped.contains room = true) ∧
      (q ∈ aroundRoom room → 1 ≤ (s.room q).seq → (s.room q).seq ≤ 8 → (u.room q).held = true ∧ (u.room q).seq = (s.room q).seq)
    (∀ w, (w, room) ∈ s.bring.waves → (∀ e, e ∈ s.bring.waves → w ≤ e.1) → s.anyPowering = false → s.pwr.off = false →
      (∀ a, s.bring.waveAt = some a → a + 200000 ≤ now) →
      (s.canPower room = true → 6 ≤ sound →
        ∃ u, exec (.powerWaveStart t) s = .next u ∧ (u.room room).seq = 1 ∧ (u.room room).conv = true ∧ u.bring.waveAt = some now ∧
          u.bring.waves = s.bring.waves.filter (fun e => e.1 != w) ∧ SameMemories s u ∧ u.cores = s.cores) ∧
      (∀ e, e ∈ s.bring.waves → e.1 ≠ w →
        (s.canPower room = false → ∃ u, exec (.powerWaveStart t) s = .next u ∧ u.hole room = true ∧ u.room room = x) ∧
        (s.canPower room = true → sound ≤ 5 → (∀ n, n < 12 → s.fld F.PWR_PHASE_STAT_FAULT room n ≠ 0 → s.fld F.PWR_PHASE_STAT_HEALTHY room n = 0) →
          ∃ u, exec (.powerWaveStart t) s = .next u ∧ (u.room room).seq = 10 ∧ u.roomLive room = false ∧ (u.room room).headers = []))) ∧
    (1 ≤ x.seq → x.seq ≤ 8 → x.held = false →
      (200 ≤ rail → amps ≤ 2500 → ∃ u, exec (.headerStageEnd room rail (amps, drooped) t) s = .next u ∧ u = { s1 with regs := u.regs, pwr := u.pwr } ∧
        u.room room = { x with seq := x.seq + 1, headers := (u.room room).headers } ∧ u.reg RG.PWR_ROOM_AMPS room 0 = amps ∧
        (x.seq < 8 → (u.room room).headers = x.headers) ∧ (x.seq = 8 → ∀ y, y ∈ s.testedTiles room → y < 36 → y ∈ (u.room room).headers) ∧
        ∀ r, r ≠ room → u.room r = s.room r) ∧
      ((rail < 200 ∨ 2500 < amps) → stays → ∃ u, exec (.headerStageEnd room rail (amps, drooped) t) s = .next u ∧ failed u)) ∧
    ((x.seq = 0 ∨ 8 < x.seq ∨ x.held = true) → exec (.headerStageEnd room rail (amps, drooped) t) s = .next s1) ∧
    (1 ≤ x.seq → x.seq ≤ 9 → 2500 < amps → stays → ∃ u, exec (.inrushShortDetect room amps drooped t) s = .next u ∧ failed u) ∧
    ((x.seq = 0 ∨ 9 < x.seq ∨ amps ≤ 2500) → exec (.inrushShortDetect room amps drooped t) s = .next s1) ∧
    (s.bring.faults.contains room = true →
      ∃ u, exec (.inrushFaultClear room t) s = .next u ∧ u = { s1 with bring := u.bring, pwr := u.pwr } ∧
        u.bring = { s.bring with faults := setDel s.bring.faults room } ∧
        (q < 100 → q ∈ aroundRoom room → (s.room q).held = true → (∀ f, f ∈ u.bring.faults → q ∉ aroundRoom f) →
          (u.room q).heldUntil = some (now + 50000)) ∧
        (∀ f, f ∈ u.bring.faults → q ∈ aroundRoom f → (u.room q).heldUntil = (s.room q).heldUntil) ∧
        (q < 100 → (s.room q).drooped.contains room = true → (u.room q).recheck = true ∧
          (u.room q).seq = (if (s.room q).seq = 10 then 9 else (s.room q).seq))) ∧
    (∀ n, x.heldUntil = some n →
      (n ≤ now → ∃ u, exec (.headerStageHoldEnd room t) s = .next u ∧ u = { s1 with pwr := u.pwr } ∧
        u.room room = { x with held := false, heldUntil := none } ∧ ∀ r, r ≠ room → u.room r = s.room r) ∧
      (now < n → exec (.headerStageHoldEnd room t) s = .next s1)) ∧
    (x.seq = 9 →
      (s.fld F.PWR_ROOM_MV_TARGET_MV room 0 ≤ rail + 20 →
        (bad = [] → stays →
          ∃ u, exec (.roomFullCheck room rail tiles t) s = .next u ∧
            u.room room = { x with seq := 10, recheck := false, retry := [], headers := (u.room room).headers } ∧
            (x.recheck = false → u.bring.untested.contains room = true) ∧ SameMemories s u ∧ u.cores = s.cores) ∧
        (bad ≠ [] → x.retry = [] →
          ∃ u, exec (.roomFullCheck room rail tiles t) s = .next u ∧ u = { s1 with pwr := u.pwr } ∧ u.room room = { x with retry := bad }) ∧
        (bad ≠ [] → (∀ y, y ∈ bad → y ∈ x.retry ∧ y < 36) → s.surveying = false → stays →
          ∃ u, exec (.roomFullCheck room rail tiles t) s = .next u ∧ (u.room room).seq = 10 ∧ ∀ y, y ∈ bad → u.tileRetired room y = true)) ∧
      (rail + 20 < s.fld F.PWR_ROOM_MV_TARGET_MV room 0 → stays →
        ∃ u, exec (.roomFullCheck room rail tiles t) s = .next u ∧ u.fld F.PWR_ROOM_STAT_FAILED room 0 = 1 ∧ u.room room = {} ∧ elsewhere u)) ∧
    (x.seq ≠ 9 → exec (.roomFullCheck room rail tiles t) s = .next s1)

/-- R18, R502: re-bring-up of a logical room loses its on-wafer bytes and starts a bring-up of its room alone, or, where that is retired,
short or cannot be powered, of the spare that takes over, unless the step of a partition with a tile there runs. R500, R502: a bring-up whose rooms are powered and tested, and whose hallway
connects, ends with READY. (Log 108: DESIGN CHOICE.) -/
def Obligations.BringupsEnd : Prop :=
  ∀ (lr t : Nat) (out : BringOut) (s : State), s.canon = true → keysRise s.pwr.rooms = true → lr < 96 → bringOk out = true →
    let s1 : State := { s with mono := max s.mono t }
    let r := s.physRoom lr
    let go := s.fld F.TACK_BRINGUP_READY 0 0 = 1 ∧ s.bring.kind = 0 ∧ s.fld F.GLB_POWER_STATE_STATE 0 0 = 0 ∧
      s.fld F.GLB_ROOM_MAP_OUT_OF_SERVICE 0 lr = 0 ∧ s.pwr.off = false ∧ s.roomBusy lr = false
    let sound := tget s.roomRetire r 0 = 0 ∧ s.fld F.GLB_ROOM_MAP_SHORT 0 lr = 0 ∧ s.hole r = false ∧ s.canPower r = true
    (¬go → s.fld F.GLB_ROOM_MAP_OUT_OF_SERVICE 0 lr < 2 → s.fld F.TACK_BRINGUP_READY 0 0 < 2 →
      exec (.operatorRoomRebringup lr out t) s = .next s1) ∧
    (go → ¬sound → r < 100 → ∀ a bit, (s.retireRoom r).pickSpare r = some (a, bit) →
      ∃ u, exec (.operatorRoomRebringup lr out t) s = .next u ∧ u.bring.kind = 3 ∧ u.physRoom lr = a ∧ u.bring.waves = [(a / 10, a)] ∧
        u.hole r = true ∧ u.hole a = false ∧ u.cellar = s.cellar ∧ u.parts = s.parts ∧
        (∀ i off, i < 32 → off < 2 ^ 23 → tget u.pantry ((32 * lr + i) * 2 ^ 23 + off) 0 = 0)) ∧
    (go → sound →
      ∃ u, exec (.operatorRoomRebringup lr out t) s = .next u ∧ u.bring.kind = 3 ∧ u.bring.lr = lr ∧ u.bring.waves = [(r / 10, r)] ∧
        u.room r = {} ∧ (∀ q, q ≠ r → u.room q = s.room q) ∧ u.cellar = s.cellar ∧ u.parts = s.parts ∧
        (∀ i off, i < 32 → off < 2 ^ 23 → tget u.pantry ((32 * lr + i) * 2 ^ 23 + off) 0 = 0) ∧
        (∀ sl off, sl / 32 ≠ lr → off < 2 ^ 23 → tget u.pantry (sl * 2 ^ 23 + off) 0 = tget s.pantry (sl * 2 ^ 23 + off) 0)) ∧
    (∀ fuel, (s.bring.kind = 1 ∨ s.bring.kind = 2) → s.bring.waves = [] → s.anyPowering = false → s.bring.untested = [] → s.surveying = false →
      ({ s.trainCellar with hall := { s.hall with links := [] } } : State).hallFault = none →
      let u := s.bringGo (fuel + 1)
      u.fld F.TACK_BRINGUP_READY 0 0 = 1 ∧ u.fld F.TACK_BRINGUP_STAGE 0 0 = (if s.bring.kind = 1 then 9 else 6) ∧ u.bring.kind = 0 ∧
        (∀ c, c < 96 → u.fld F.CELL_STAT_TRAINED c 0 = b2n (!s.bring.out.badCells.contains c)) ∧ SameMemories s u ∧ u.cores = s.cores)

/-! ## The whole block -/

/-- R534: a 4-byte write to a register that has a row of its own does what that row does, at the time of the write. -/
def Obligations.RegisterWritesRunTheirRows : Prop :=
  ∀ (fn addr v typ inst t : Nat) (env : WriteEnv) (s : State), fn ≤ 513 → addr < barBytes fn → bringOk env.out = true → addr % 4 = 0 →
    v < 2 ^ 32 → s.recovery = false → s.pageAt fn addr = some (typ, inst) → s.pageShut typ inst = false → inst < pagesOf typ →
    let s1 : State := { s with mono := max s.mono t }
    let off := addr % 4096
    let runs := fun (c : Instr) => exec (.registerWrite fn addr 4 v env t) s = exec c s1
    (typ = 0x3 → off = 0x40 → runs (.hallSharedWrite v)) ∧
    (typ = 0x7 → (off = 0x44 → runs (.reinOpCapWrite v)) ∧ (off = 0x48 → runs (.reinFacTargetWrite v)) ∧
      (off = 0x54 → runs (.reinShedLevelWrite v))) ∧
    (typ = 0x8 → (off = 0x54 → runs (.fwAbiSelWrite v)) ∧ (off = 0x5C → runs (.ringAllotWrite 512 v)) ∧
      (off = 0x48 → (v = 1 → runs (.fwStage env.img t)) ∧ (v = 2 → runs (.fwArm t)) ∧ (v = 4 → runs (.fwConfirm t)))) ∧
    (typ = 0x9 → off = 0x58 → v % 2 = 1 → runs (.surveyConfirm t)) ∧
    (typ = 0x1 → off = 0x40 → (v % 4 = 0 → runs (.glbReqReadyIdle env.out t)) ∧ (v % 4 = 1 → runs (.glbReqRetain t)) ∧
      (v % 4 = 2 → runs (.glbReqDark t))) ∧
    (typ = 0x20 → 0x40 ≤ off → off < 0x140 → runs (.hallSlotWrite inst ((off - 0x40) / 4) v)) ∧
    (typ = 0x22 → off = 0x40 → runs (.eccOnWrite inst v)) ∧
    (typ = 0x27 → (off = 0x4C → runs (.ringAllotWrite inst v)) ∧
      (off = 0x40 → (v = 1 → runs (.partCreate inst t)) ∧ (v = 2 → runs (.partDestroy inst t)) ∧ (v = 4 → runs (.partMove inst t)))) ∧
    (typ = 0x31 → 0x100 ≤ off → off < 0x200 → runs (.porchSlotWrite 2 inst ((off - 0x100) / 4) v)) ∧
    (typ = 0x33 → 0x100 ≤ off → off < 0x900 → runs (.porchSlotWrite 1 inst ((off - 0x100) / 4) v)) ∧
    (typ = 0x34 → 0x100 ≤ off → off < 0x900 → runs (.porchSlotWrite 0 0 ((off - 0x100) / 4) v)) ∧
    (typ = 0x32 → 0x800 ≤ off → runs (.brdlPartAllotWrite ((off - 0x800) / 4) v)) ∧
    (typ = 0x35 → off = 0x40 → runs (.brdlRegionValidWrite inst v)) ∧
    (typ = 0x41 → (off = 0x60 → runs (.timeSetYmdWrite v)) ∧ (off = 0x64 → runs (.timeSetHmsWrite v)) ∧ (off = 0x68 → runs (.timeSetNsWrite v)) ∧
      (off = 0x6C → (v = 1 → runs (.timeSetGo t)) ∧ (v = 2 → runs (.timeSetAtPps t)))) ∧
    (typ = 0x50 → 0x40 ≤ off → off < 0x240 → runs (.ringDoorbell inst ((off - 0x40) / 4) (v % 2 ^ 16))) ∧
    (typ = 0x51 → off = 0x48 → inst < 514 → runs (.ringEvtEnable inst v)) ∧
    (typ = 0x54 → 0x40 ≤ off → off < 0x440 → (off - 0x40) % 32 = 8 → runs (.ringCtxEnable (ctxRing inst off).1 (ctxRing inst off).2 v)) ∧
    (off = 0x30 → v % 2 = 1 → s.pageIdle typ inst = false → runs (.cfgLockWrite typ inst v))

/-- A command whose operands all name units that exist takes effect, whatever the state; any other is refused, and no command faults
or leaves a command queue other than the one it met. (Log 2, 4: DESIGN CHOICE.) -/
def Obligations.CommandsRunWhenWellFormed : Prop :=
  ∀ (c : Instr) (s : State),
    (c.wf = true → ∃ u, exec c s = .next u ∧ u.pending = s.pending) ∧ (c.wf = false → exec c s = .refused .illFormed)

/-- An empty queue idles; reset's queue is empty. (Log 3: DESIGN CHOICE.) -/
def Claims.EmptyQueueIdles : Prop :=
  State.reset.pending = [] ∧ ∀ s : State, s.pending = [] → step s = .next s

/-- R7, R491, R492, R548: after reset every register holds the reset value its table gives, no partition exists, no core or
memory byte is other than zero, no wall time is set, and the state is canonical. (Log 8, 9, 10, 11: DESIGN CHOICE.) -/
def Claims.ResetLeaves : Prop :=
  let z := State.reset
  z.canon = true ∧ (∀ typ inst off, z.regAt typ inst off = regReset typ off) ∧ (∀ p, (z.part p).pstate = .free) ∧
    (∀ k, tget z.pantry k 0 = 0 ∧ tget z.larder k 0 = 0) ∧ z.mono = 0 ∧ z.time.set = false ∧ z.recovery = false ∧
    z.fld F.TIME_UTC_OFFSET_S 0 0 = 0x25 ∧ z.fld F.TIME_STAT_UNSYNCED 0 0 = 1 ∧ z.fld F.TACK_BRINGUP_READY 0 0 = 0 ∧
    z.fld F.TIME_SET_YMD_YEAR 0 0 = 2000 ∧ z.fld F.TIME_CFG_PTP_EN 0 0 = 1

/-- Every step keeps the state canonical: the byte memories strictly rising with no zero entry, and no table listing a key twice.
(Log 9: DESIGN CHOICE.) -/
def Obligations.StepKeepsCanon : Prop :=
  ∀ s t : State, s.canon = true → step s = .next t → t.canon = true

/-- R491, R510, R511: no command but a cold bring-up, and the loss of the standby supply, takes the monotonic counter back; none takes the
anti-rollback count back; and none changes the identity banks or the keys. (Log 101: DEDUCED.) -/
def Obligations.StepKeepsWhatIsBurnt : Prop :=
  ∀ s t : State, step s = .next t →
    t.nv.bank0 = s.nv.bank0 ∧ t.nv.bank1 = s.nv.bank1 ∧ t.nv.key0 = s.nv.key0 ∧ t.nv.key1 = s.nv.key1 ∧ s.nv.svn ≤ t.nv.svn ∧
      ((∀ out now rest, s.pending ≠ .coldBringup out now :: rest) → (∀ now rest, s.pending ≠ .standbyFail now :: rest) → s.mono ≤ t.mono)

/-! ## Statements of several parts -/

/-- The arithmetic of the vector unit: of two registers, of one, and across lanes. -/
def Obligations.VectorArithmetic : Prop :=
  Claims.VectorBinaryLanes ∧ Claims.VectorLanes ∧ Claims.VectorAcrossLanes

/-- The vector unit and the pantry: loads and stores, and the narrow formats and records. -/
def Obligations.VectorMemory : Prop :=
  Claims.VectorLoadStore ∧ Claims.VectorRecords

/-- Scalar accesses: how each is issued, how a misaligned one stops, and how a load returns. -/
def Obligations.ScalarAccesses : Prop :=
  Claims.ScalarAccessesIssue ∧ Claims.MisalignedScalarStops ∧ Claims.ScalarLoadReturns

/-- Fences: what each orders, and the probes of a fabric fence. -/
def Obligations.Fences : Prop :=
  Claims.FencesOrderLater ∧ Claims.FabricFenceProbes

/-- Barriers: arrival, and completion when all have arrived. -/
def Obligations.Barriers : Prop :=
  Claims.BarrierArrives ∧ Claims.BarrierCompletes

/-- Control slots: loops, and the other control operations. -/
def Obligations.ControlFlow : Prop :=
  Claims.LoopStack ∧ Claims.PhaseAndSafepoint ∧ Claims.WaitvWaits ∧ Claims.EndOfStep

/-- Copies: issue, the bytes a unit moves, and the end. -/
def Obligations.Copies : Prop :=
  Claims.CopiesIssue ∧ Claims.CopiesEnd ∧ Claims.CopyUnitMovesBytes

/-- Flits: each hop, and what arrival does. -/
def Obligations.FlitsTravel : Prop :=
  Claims.FlitsForward ∧ Claims.FlitsArrive ∧ Claims.ResponsesArrive

/-- Array instructions: issue, and what each computes. -/
def Obligations.ArrayInstructions : Prop :=
  Claims.ArraySlotsIssue ∧ Claims.ArrayInstructionsRun

/-- Array results: wide accumulation, and the drain. -/
def Obligations.ArrayResults : Prop :=
  Claims.WideMacFolds ∧ Claims.ArraysDrain

/-- Register accesses by size and alignment, and reads without a side effect but the latch of a pair. -/
def Obligations.RegisterReads : Prop :=
  Claims.AccessSizes ∧ Claims.PairsReadWithoutTearing

/-- The hallway's mode and the slot tables. -/
def Obligations.HallSlotWrites : Prop :=
  Claims.HallModeWrite ∧ Claims.SlotTableWrites

/-- Writes that a rule guards: allotments and locks, ring enables, freezes and soft resets. -/
def Obligations.GuardedWrites : Prop :=
  Claims.GuardedFieldWrites ∧ Claims.RingEnables ∧ Claims.FreezeAndSoftReset

/-- Link packets: acceptance, and acknowledgements and credits. -/
def Obligations.LinkPackets : Prop :=
  Claims.LinkPacketsAccepted ∧ Claims.LinkAcknowledgements

/-- Requests of Bridle: what each does, in its turn. -/
def Obligations.BridleRequests : Prop :=
  Claims.BridleRequestsPerformed ∧ Claims.RequestsTakeTheirTurn

/-- Responses of Bridle: completion, holding and refusal. -/
def Obligations.BridleResponses : Prop :=
  Claims.ResponsesComplete ∧ Claims.ResponsesHoldOrRefuse

/-- Command rings: doorbells, the arbiter, and the descriptors taken. -/
def Obligations.RingsServed : Prop :=
  Claims.DoorbellsAndArbiter ∧ Claims.DescriptorsTaken

/-- Completion records, queries and fences. -/
def Obligations.RecordsAndQueries : Prop :=
  Claims.CompletionRecords ∧ Claims.QueriesAndFences

/-- Loads of a harness, and the beginning of steps. -/
def Obligations.LoadsAndSteps : Prop :=
  Claims.LoadsEnd ∧ Claims.RunStepsBegins

/-- Snapshots and checkpoints, restores and replays. -/
def Obligations.SavesAndReplays : Prop :=
  Claims.SnapshotsAndCheckpoints ∧ Claims.RestoresAndReplays

/-- Gradient checks, packs and unpacks, and the end of a job. -/
def Obligations.ChecksPacksUnpacks : Prop :=
  Claims.ChecksAndPacks ∧ Claims.UnpacksAndJobEnds

/-- Attempts, votes and migrations. -/
def Obligations.AttemptsAndMigrations : Prop :=
  Claims.AttemptsAndVotes ∧ Claims.Migrations

/-- The Meter: intervals, signing, receipts and faults. -/
def Obligations.Metering : Prop :=
  Claims.MeterIntervals ∧ Claims.ReceiptsAndFaults

/-- Moves, resets of functions and links, and host windows that time out. -/
def Obligations.ResetsAndTimeouts : Prop :=
  Claims.MovesAndResets ∧ Claims.HostWindowTimeouts

/-- Knocks, droop and SHED_N. -/
def Obligations.RoomPowerInService : Prop :=
  Claims.KnocksAndDroop ∧ Claims.ShedStretches

/-- Reference clocks and changes of a room's point. -/
def Obligations.ClocksAndPoints : Prop :=
  Claims.ReferencesComeAndGo ∧ Claims.PointsChange

/-- What reset leaves, and the empty queue. -/
def Obligations.ResetAndIdle : Prop :=
  Claims.ResetLeaves ∧ Claims.EmptyQueueIdles
end

