-- ==== Sys2Proof/Laws/Exec.lean ====
section
/-! SUPPORT. What exec does with each command: the one call of its arm. -/

namespace Sys2Proof.Machine
open Sys2Proof

theorem exec_arraySlotIssue (core arr : Nat) (det : Option (Nat × Nat)) (s : State) :
    exec (.arraySlotIssue core arr det) s = execArraySlotIssue core arr det s := rfl
theorem exec_mac (core arr : Nat) (faults : List ArrFault) (s : State) :
    exec (.mac core arr faults) s = execMac core arr faults s := rfl
theorem exec_mac3 (core arr : Nat) (faults : List ArrFault) (s : State) :
    exec (.mac3 core arr faults) s = execMac3 core arr faults s := rfl
theorem exec_minplus (core arr : Nat) (s : State) :
    exec (.minplus core arr) s = execMinplus core arr s := rfl
theorem exec_maxplus (core arr : Nat) (s : State) :
    exec (.maxplus core arr) s = execMaxplus core arr s := rfl
theorem exec_l1 (core arr : Nat) (s : State) :
    exec (.l1 core arr) s = execL1 core arr s := rfl
theorem exec_l2sq (core arr : Nat) (s : State) :
    exec (.l2sq core arr) s = execL2sq core arr s := rfl
theorem exec_cmpcount (core arr : Nat) (s : State) :
    exec (.cmpcount core arr) s = execCmpcount core arr s := rfl
theorem exec_ham (core arr : Nat) (s : State) :
    exec (.ham core arr) s = execHam core arr s := rfl
theorem exec_arrayDrain (core arr quarter : Nat) (s : State) :
    exec (.arrayDrain core arr quarter) s = execArrayDrain core arr quarter s := rfl
theorem exec_shadowWriteoutDone (core arr : Nat) (s : State) :
    exec (.shadowWriteoutDone core arr) s = execShadowWriteoutDone core arr s := rfl
theorem exec_vld (core : Nat) (det : Option (Nat × Nat)) (s : State) :
    exec (.vld core det) s = execVld core det s := rfl
theorem exec_vst (core : Nat) (s : State) :
    exec (.vst core) s = execVst core s := rfl
theorem exec_vadd (core : Nat) (s : State) :
    exec (.vadd core) s = execVadd core s := rfl
theorem exec_vsub (core : Nat) (s : State) :
    exec (.vsub core) s = execVsub core s := rfl
theorem exec_vmul (core : Nat) (s : State) :
    exec (.vmul core) s = execVmul core s := rfl
theorem exec_vfma (core : Nat) (s : State) :
    exec (.vfma core) s = execVfma core s := rfl
theorem exec_vmin (core : Nat) (s : State) :
    exec (.vmin core) s = execVmin core s := rfl
theorem exec_vmax (core : Nat) (s : State) :
    exec (.vmax core) s = execVmax core s := rfl
theorem exec_vabs (core : Nat) (s : State) :
    exec (.vabs core) s = execVabs core s := rfl
theorem exec_vneg (core : Nat) (s : State) :
    exec (.vneg core) s = execVneg core s := rfl
theorem exec_vcmp (core : Nat) (s : State) :
    exec (.vcmp core) s = execVcmp core s := rfl
theorem exec_vsel (core : Nat) (s : State) :
    exec (.vsel core) s = execVsel core s := rfl
theorem exec_vexp2 (core : Nat) (s : State) :
    exec (.vexp2 core) s = execVexp2 core s := rfl
theorem exec_vlog2 (core : Nat) (s : State) :
    exec (.vlog2 core) s = execVlog2 core s := rfl
theorem exec_vrcp (core : Nat) (s : State) :
    exec (.vrcp core) s = execVrcp core s := rfl
theorem exec_vrsqrt (core : Nat) (s : State) :
    exec (.vrsqrt core) s = execVrsqrt core s := rfl
theorem exec_vrsum (core : Nat) (s : State) :
    exec (.vrsum core) s = execVrsum core s := rfl
theorem exec_vrmax (core : Nat) (s : State) :
    exec (.vrmax core) s = execVrmax core s := rfl
theorem exec_vbcast (core : Nat) (s : State) :
    exec (.vbcast core) s = execVbcast core s := rfl
theorem exec_vlds (core : Nat) (det : Option (Nat × Nat)) (s : State) :
    exec (.vlds core det) s = execVlds core det s := rfl
theorem exec_vlda (core : Nat) (det : Option (Nat × Nat)) (s : State) :
    exec (.vlda core det) s = execVlda core det s := rfl
theorem exec_vsts (core : Nat) (s : State) :
    exec (.vsts core) s = execVsts core s := rfl
theorem exec_vstr (core : Nat) (s : State) :
    exec (.vstr core) s = execVstr core s := rfl
theorem exec_scalarLoadReturn (core vd : Nat) (s : State) :
    exec (.scalarLoadReturn core vd) s = execScalarLoadReturn core vd s := rfl
theorem exec_quant (core : Nat) (s : State) :
    exec (.quant core) s = execQuant core s := rfl
theorem exec_dequant (core : Nat) (s : State) :
    exec (.dequant core) s = execDequant core s := rfl
theorem exec_wstore (core : Nat) (s : State) :
    exec (.wstore core) s = execWstore core s := rfl
theorem exec_aadd (core : Nat) (s : State) :
    exec (.aadd core) s = execAadd core s := rfl
theorem exec_fadd (core : Nat) (s : State) :
    exec (.fadd core) s = execFadd core s := rfl
theorem exec_smin (core : Nat) (s : State) :
    exec (.smin core) s = execSmin core s := rfl
theorem exec_smax (core : Nat) (s : State) :
    exec (.smax core) s = execSmax core s := rfl
theorem exec_umin (core : Nat) (s : State) :
    exec (.umin core) s = execUmin core s := rfl
theorem exec_umax (core : Nat) (s : State) :
    exec (.umax core) s = execUmax core s := rfl
theorem exec_fmin (core : Nat) (s : State) :
    exec (.fmin core) s = execFmin core s := rfl
theorem exec_fmax (core : Nat) (s : State) :
    exec (.fmax core) s = execFmax core s := rfl
theorem exec_cas (core : Nat) (s : State) :
    exec (.cas core) s = execCas core s := rfl
theorem exec_fenceSt (core : Nat) (s : State) :
    exec (.fenceSt core) s = execFenceSt core s := rfl
theorem exec_fenceFull (core : Nat) (s : State) :
    exec (.fenceFull core) s = execFenceFull core s := rfl
theorem exec_fenceFabric (core : Nat) (s : State) :
    exec (.fenceFabric core) s = execFenceFabric core s := rfl
theorem exec_fabricFenceProbe (core t : Nat) (s : State) :
    exec (.fabricFenceProbe core t) s = execFabricFenceProbe core t s := rfl
theorem exec_barrier (core : Nat) (s : State) :
    exec (.barrier core) s = execBarrier core s := rfl
theorem exec_barrierComplete (part group : Nat) (s : State) :
    exec (.barrierComplete part group) s = execBarrierComplete part group s := rfl
theorem exec_safepoint (core cycles t : Nat) (s : State) :
    exec (.safepoint core cycles t) s = execSafepoint core cycles t s := rfl
theorem exec_knock (core : Nat) (s : State) :
    exec (.knock core) s = execKnock core s := rfl
theorem exec_knockHoldEnd (room : Nat) (ended : Nat × Nat) (s : State) :
    exec (.knockHoldEnd room ended) s = execKnockHoldEnd room ended s := rfl
theorem exec_phase (core : Nat) (s : State) :
    exec (.phase core) s = execPhase core s := rfl
theorem exec_loop (core : Nat) (s : State) :
    exec (.loop core) s = execLoop core s := rfl
theorem exec_waitv (core : Nat) (sev : Option Nat) (off : Nat) (s : State) :
    exec (.waitv core sev off) s = execWaitv core sev off s := rfl
theorem exec_endStep (core : Nat) (det : Option (Nat × Nat)) (s : State) :
    exec (.endStep core det) s = execEndStep core det s := rfl
theorem exec_copyLinear (core : Nat) (s : State) :
    exec (.copyLinear core) s = execCopyLinear core s := rfl
theorem exec_copyStrided (core : Nat) (s : State) :
    exec (.copyStrided core) s = execCopyStrided core s := rfl
theorem exec_copyGather (core : Nat) (s : State) :
    exec (.copyGather core) s = execCopyGather core s := rfl
theorem exec_copyScatter (core : Nat) (s : State) :
    exec (.copyScatter core) s = execCopyScatter core s := rfl
theorem exec_copyTable (core : Nat) (s : State) :
    exec (.copyTable core) s = execCopyTable core s := rfl
theorem exec_copyReduce (core : Nat) (s : State) :
    exec (.copyReduce core) s = execCopyReduce core s := rfl
theorem exec_copyWait (core : Nat) (s : State) :
    exec (.copyWait core) s = execCopyWait core s := rfl
theorem exec_copyUnitMove (core slot unit : Nat) (ext : Bytes) (det : Option (Nat × Nat)) (link : Nat × Nat) (t : Nat) (s : State) :
    exec (.copyUnitMove core slot unit ext det link t) s = execCopyUnitMove core slot unit ext det link t s := rfl
theorem exec_copyComplete (core slot : Nat) (s : State) :
    exec (.copyComplete core slot) s = execCopyComplete core slot s := rfl
theorem exec_flitForward (id : Nat) (hop : Option Nat × Nat) (s : State) :
    exec (.flitForward id hop) s = execFlitForward id hop s := rfl
theorem exec_hallSlotFrameBoundary (lane : Nat) (s : State) :
    exec (.hallSlotFrameBoundary lane) s = execHallSlotFrameBoundary lane s := rfl
theorem exec_flitArrive (id : Nat) (crcBad : Bool) (host : Nat) (det : Option (Nat × Nat)) (t : Nat) (s : State) :
    exec (.flitArrive id crcBad host det t) s = execFlitArrive id crcBad host det t s := rfl
theorem exec_reduceWriteArrive (id : Nat) (det : Option (Nat × Nat)) (s : State) :
    exec (.reduceWriteArrive id det) s = execReduceWriteArrive id det s := rfl
theorem exec_hallLinkRetrainEnd (room side : Nat) (ok : Bool) (t : Nat) (s : State) :
    exec (.hallLinkRetrainEnd room side ok t) s = execHallLinkRetrainEnd room side ok t s := rfl
theorem exec_cellarAccess (ctrl : Nat) (det : Option (Nat × Nat)) (link : Nat) (s : State) :
    exec (.cellarAccess ctrl det link) s = execCellarAccess ctrl det link s := rfl
theorem exec_cellarMr4Poll (pkg mr4 range t : Nat) (s : State) :
    exec (.cellarMr4Poll pkg mr4 range t) s = execCellarMr4Poll pkg mr4 range t s := rfl
theorem exec_attemptStart (part t : Nat) (s : State) :
    exec (.attemptStart part t) s = execAttemptStart part t s := rfl
theorem exec_attemptClose (part t : Nat) (s : State) :
    exec (.attemptClose part t) s = execAttemptClose part t s := rfl
theorem exec_finalVote (part t : Nat) (s : State) :
    exec (.finalVote part t) s = execFinalVote part t s := rfl
theorem exec_quiesceDone (part : Nat) (s : State) :
    exec (.quiesceDone part) s = execQuiesceDone part s := rfl
theorem exec_migrationDone (moved : Nat × Bool) (s : State) :
    exec (.migrationDone moved) s = execMigrationDone moved s := rfl
theorem exec_currierOrtho (part job : Nat) (fails : List StitchDet) (s : State) :
    exec (.currierOrtho part job fails) s = execCurrierOrtho part job fails s := rfl
theorem exec_kronStats (part job : Nat) (fails : List StitchDet) (s : State) :
    exec (.kronStats part job fails) s = execKronStats part job fails s := rfl
theorem exec_kronRoot (part job : Nat) (fails : List StitchDet) (s : State) :
    exec (.kronRoot part job fails) s = execKronRoot part job fails s := rfl
theorem exec_kronApply (part job : Nat) (fails : List StitchDet) (s : State) :
    exec (.kronApply part job fails) s = execKronApply part job fails s := rfl
theorem exec_gradcheck (part job : Nat) (s : State) :
    exec (.gradcheck part job) s = execGradcheck part job s := rfl
theorem exec_pack (part job : Nat) (s : State) :
    exec (.pack part job) s = execPack part job s := rfl
theorem exec_unpack (part job : Nat) (s : State) :
    exec (.unpack part job) s = execUnpack part job s := rfl
theorem exec_unpackChunkDecode (part job : Nat) (s : State) :
    exec (.unpackChunkDecode part job) s = execUnpackChunkDecode part job s := rfl
theorem exec_currierJobDone (part job : Nat) (s : State) :
    exec (.currierJobDone part job) s = execCurrierJobDone part job s := rfl
theorem exec_xgMessageReceive (part t : Nat) (s : State) :
    exec (.xgMessageReceive part t) s = execXgMessageReceive part t s := rfl
theorem exec_exchangeStallTimeout (part t : Nat) (s : State) :
    exec (.exchangeStallTimeout part t) s = execExchangeStallTimeout part t s := rfl
theorem exec_brdlRead (port : Nat) (det : Option (Nat × Nat)) (t : Nat) (s : State) :
    exec (.brdlRead port det t) s = execBrdlRead port det t s := rfl
theorem exec_brdlWrite (port : Nat) (met : Option (Nat × Nat) × Nat) (s : State) :
    exec (.brdlWrite port met) s = execBrdlWrite port met s := rfl
theorem exec_brdlFence (port t : Nat) (s : State) :
    exec (.brdlFence port t) s = execBrdlFence port t s := rfl
theorem exec_brdlExchange (port t : Nat) (s : State) :
    exec (.brdlExchange port t) s = execBrdlExchange port t s := rfl
theorem exec_atomicAdd (port : Nat) (met : Option (Nat × Nat) × Nat) (s : State) :
    exec (.atomicAdd port met) s = execAtomicAdd port met s := rfl
theorem exec_atomicMin (port : Nat) (met : Option (Nat × Nat) × Nat) (s : State) :
    exec (.atomicMin port met) s = execAtomicMin port met s := rfl
theorem exec_atomicMax (port : Nat) (met : Option (Nat × Nat) × Nat) (s : State) :
    exec (.atomicMax port met) s = execAtomicMax port met s := rfl
theorem exec_atomicCas (port : Nat) (met : Option (Nat × Nat) × Nat) (s : State) :
    exec (.atomicCas port met) s = execAtomicCas port met s := rfl
theorem exec_ownReq (port t : Nat) (s : State) :
    exec (.ownReq port t) s = execOwnReq port t s := rfl
theorem exec_ownGrant (port t : Nat) (s : State) :
    exec (.ownGrant port t) s = execOwnGrant port t s := rfl
theorem exec_ownRelease (port t : Nat) (s : State) :
    exec (.ownRelease port t) s = execOwnRelease port t s := rfl
theorem exec_ptp (port err t : Nat) (s : State) :
    exec (.ptp port err t) s = execPtp port err t s := rfl
theorem exec_readRsp (port t : Nat) (s : State) :
    exec (.readRsp port t) s = execReadRsp port t s := rfl
theorem exec_writeAck (port t : Nat) (s : State) :
    exec (.writeAck port t) s = execWriteAck port t s := rfl
theorem exec_fenceRsp (port t : Nat) (s : State) :
    exec (.fenceRsp port t) s = execFenceRsp port t s := rfl
theorem exec_exchangeAck (port t : Nat) (s : State) :
    exec (.exchangeAck port t) s = execExchangeAck port t s := rfl
theorem exec_atomicRsp (port t : Nat) (s : State) :
    exec (.atomicRsp port t) s = execAtomicRsp port t s := rfl
theorem exec_ownAck (port t : Nat) (s : State) :
    exec (.ownAck port t) s = execOwnAck port t s := rfl
theorem exec_grantAck (port t : Nat) (s : State) :
    exec (.grantAck port t) s = execGrantAck port t s := rfl
theorem exec_releaseAck (port t : Nat) (s : State) :
    exec (.releaseAck port t) s = execReleaseAck port t s := rfl
theorem exec_txnHeldRetry (tag t : Nat) (s : State) :
    exec (.txnHeldRetry tag t) s = execTxnHeldRetry tag t s := rfl
theorem exec_txnAttemptTimeout (tag t : Nat) (s : State) :
    exec (.txnAttemptTimeout tag t) s = execTxnAttemptTimeout tag t s := rfl
theorem exec_txnLifetimeExpiry (tag t : Nat) (s : State) :
    exec (.txnLifetimeExpiry tag t) s = execTxnLifetimeExpiry tag t s := rfl
theorem exec_linkPacketReceive (port : Nat) (pkt : Bytes) (marked : Nat) (t : Nat) (s : State) :
    exec (.linkPacketReceive port pkt marked t) s = execLinkPacketReceive port pkt marked t s := rfl
theorem exec_linkAck (port : Nat) (pkt : Bytes) (t : Nat) (s : State) :
    exec (.linkAck port pkt t) s = execLinkAck port pkt t s := rfl
theorem exec_linkNak (port : Nat) (pkt : Bytes) (t : Nat) (s : State) :
    exec (.linkNak port pkt t) s = execLinkNak port pkt t s := rfl
theorem exec_linkCredit (port : Nat) (pkt : Bytes) (t : Nat) (s : State) :
    exec (.linkCredit port pkt t) s = execLinkCredit port pkt t s := rfl
theorem exec_linkAckDelayExpiry (port t : Nat) (s : State) :
    exec (.linkAckDelayExpiry port t) s = execLinkAckDelayExpiry port t s := rfl
theorem exec_linkReplayTimeout (port t : Nat) (s : State) :
    exec (.linkReplayTimeout port t) s = execLinkReplayTimeout port t s := rfl
theorem exec_linkRetrainComplete (port peerE t : Nat) (s : State) :
    exec (.linkRetrainComplete port peerE t) s = execLinkRetrainComplete port peerE t s := rfl
theorem exec_linkDown (port t : Nat) (s : State) :
    exec (.linkDown port t) s = execLinkDown port t s := rfl
theorem exec_portLinkUp (port medium mw t : Nat) (s : State) :
    exec (.portLinkUp port medium mw t) s = execPortLinkUp port medium mw t s := rfl
theorem exec_bridleStartDelayEnd (t : Nat) (s : State) :
    exec (.bridleStartDelayEnd t) s = execBridleStartDelayEnd t s := rfl
theorem exec_ringDoorbell (fn ring val : Nat) (s : State) :
    exec (.ringDoorbell fn ring val) s = execRingDoorbell fn ring val s := rfl
theorem exec_descriptorFetch (fn ring : Nat) (desc : Bytes) (t : Nat) (s : State) :
    exec (.descriptorFetch fn ring desc t) s = execDescriptorFetch fn ring desc t s := rfl
theorem exec_arbiterDecision (port slot : Nat) (s : State) :
    exec (.arbiterDecision port slot) s = execArbiterDecision port slot s := rfl
theorem exec_loadHarness (part ring : Nat) (img img2 : Bytes) (t : Nat) (s : State) :
    exec (.loadHarness part ring img img2 t) s = execLoadHarness part ring img img2 t s := rfl
theorem exec_runSteps (part ring t : Nat) (s : State) :
    exec (.runSteps part ring t) s = execRunSteps part ring t s := rfl
theorem exec_hostCopy (part ring : Nat) (read : Bytes × Option (Nat × Nat)) (t : Nat) (s : State) :
    exec (.hostCopy part ring read t) s = execHostCopy part ring read t s := rfl
theorem exec_snapshot (part ring : Nat) (ext : Bytes) (t : Nat) (s : State) :
    exec (.snapshot part ring ext t) s = execSnapshot part ring ext t s := rfl
theorem exec_snapshotDone (part t : Nat) (s : State) :
    exec (.snapshotDone part t) s = execSnapshotDone part t s := rfl
theorem exec_checkpoint (part ring : Nat) (ext : Bytes) (t : Nat) (s : State) :
    exec (.checkpoint part ring ext t) s = execCheckpoint part ring ext t s := rfl
theorem exec_restore (part ring : Nat) (ext img : Bytes) (t : Nat) (s : State) :
    exec (.restore part ring ext img t) s = execRestore part ring ext img t s := rfl
theorem exec_replay (part ring : Nat) (ext jbytes : Bytes) (t : Nat) (s : State) :
    exec (.replay part ring ext jbytes t) s = execReplay part ring ext jbytes t s := rfl
theorem exec_queryStatus (fn ring t : Nat) (s : State) :
    exec (.queryStatus fn ring t) s = execQueryStatus fn ring t s := rfl
theorem exec_queryTime (fn ring t : Nat) (s : State) :
    exec (.queryTime fn ring t) s = execQueryTime fn ring t s := rfl
theorem exec_hostFence (fn ring t : Nat) (s : State) :
    exec (.hostFence fn ring t) s = execHostFence fn ring t s := rfl
theorem exec_completionRecordWrite (fn ring t : Nat) (s : State) :
    exec (.completionRecordWrite fn ring t) s = execCompletionRecordWrite fn ring t s := rfl
theorem exec_receiptSign (t : Nat) (s : State) :
    exec (.receiptSign t) s = execReceiptSign t s := rfl
theorem exec_signBudgetTick (t : Nat) (s : State) :
    exec (.signBudgetTick t) s = execSignBudgetTick t s := rfl
theorem exec_functionLevelReset (fn t : Nat) (s : State) :
    exec (.functionLevelReset fn t) s = execFunctionLevelReset fn t s := rfl
theorem exec_perstN (port us t : Nat) (s : State) :
    exec (.perstN port us t) s = execPerstN port us t s := rfl
theorem exec_pcieLinkChange (port rate width flit t : Nat) (s : State) :
    exec (.pcieLinkChange port rate width flit t) s = execPcieLinkChange port rate width flit t s := rfl
theorem exec_hostWindowTimeout (kind a b t : Nat) (s : State) :
    exec (.hostWindowTimeout kind a b t) s = execHostWindowTimeout kind a b t s := rfl
theorem exec_partCreate (part t : Nat) (s : State) :
    exec (.partCreate part t) s = execPartCreate part t s := rfl
theorem exec_partDestroy (part t : Nat) (s : State) :
    exec (.partDestroy part t) s = execPartDestroy part t s := rfl
theorem exec_partMove (part t : Nat) (s : State) :
    exec (.partMove part t) s = execPartMove part t s := rfl
theorem exec_partZeroised (part t : Nat) (s : State) :
    exec (.partZeroised part t) s = execPartZeroised part t s := rfl
theorem exec_operatorRoomRebringup (lr : Nat) (out : BringOut) (t : Nat) (s : State) :
    exec (.operatorRoomRebringup lr out t) s = execOperatorRoomRebringup lr out t s := rfl
theorem exec_glbReqReadyIdle (out : BringOut) (t : Nat) (s : State) :
    exec (.glbReqReadyIdle out t) s = execGlbReqReadyIdle out t s := rfl
theorem exec_glbReqRetain (t : Nat) (s : State) :
    exec (.glbReqRetain t) s = execGlbReqRetain t s := rfl
theorem exec_glbReqDark (t : Nat) (s : State) :
    exec (.glbReqDark t) s = execGlbReqDark t s := rfl
theorem exec_powerStateChangeDone (t : Nat) (s : State) :
    exec (.powerStateChangeDone t) s = execPowerStateChangeDone t s := rfl
theorem exec_retainAutoWake (port : Option Nat) (fn ring op t : Nat) (s : State) :
    exec (.retainAutoWake port fn ring op t) s = execRetainAutoWake port fn ring op t s := rfl
theorem exec_busbarChange (aMv bMv t : Nat) (s : State) :
    exec (.busbarChange aMv bMv t) s = execBusbarChange aMv bMv t s := rfl
theorem exec_busUndervoltage (t : Nat) (s : State) :
    exec (.busUndervoltage t) s = execBusUndervoltage t s := rfl
theorem exec_porchConverterFail (conv t : Nat) (s : State) :
    exec (.porchConverterFail conv t) s = execPorchConverterFail conv t s := rfl
theorem exec_roomConverterFail (room t : Nat) (s : State) :
    exec (.roomConverterFail room t) s = execRoomConverterFail room t s := rfl
theorem exec_phaseFail (room phase fault t : Nat) (s : State) :
    exec (.phaseFail room phase fault t) s = execPhaseFail room phase fault t s := rfl
theorem exec_roomOvercurrent (room deciamps t : Nat) (s : State) :
    exec (.roomOvercurrent room deciamps t) s = execRoomOvercurrent room deciamps t s := rfl
theorem exec_droopStretchStart (room mv t : Nat) (s : State) :
    exec (.droopStretchStart room mv t) s = execDroopStretchStart room mv t s := rfl
theorem exec_droopStretchEnd (room mv cycles t : Nat) (s : State) :
    exec (.droopStretchEnd room mv cycles t) s = execDroopStretchEnd room mv cycles t s := rfl
theorem exec_thermtrip (room : Option Nat) (t : Nat) (s : State) :
    exec (.thermtrip room t) s = execThermtrip room t s := rfl
theorem exec_shedAssert (t : Nat) (s : State) :
    exec (.shedAssert t) s = execShedAssert t s := rfl
theorem exec_shedRelease (t : Nat) (s : State) :
    exec (.shedRelease t) s = execShedRelease t s := rfl
theorem exec_neighbourTempSkew (a ta b tb t : Nat) (s : State) :
    exec (.neighbourTempSkew a ta b tb t) s = execNeighbourTempSkew a ta b tb t s := rfl
theorem exec_powerWaveStart (t : Nat) (s : State) :
    exec (.powerWaveStart t) s = execPowerWaveStart t s := rfl
theorem exec_headerStageEnd (room railMv : Nat) (drawn : Nat × List Nat) (t : Nat) (s : State) :
    exec (.headerStageEnd room railMv drawn t) s = execHeaderStageEnd room railMv drawn t s := rfl
theorem exec_roomFullCheck (room railMv : Nat) (tiles : List Nat) (t : Nat) (s : State) :
    exec (.roomFullCheck room railMv tiles t) s = execRoomFullCheck room railMv tiles t s := rfl
theorem exec_inrushShortDetect (room deciamps : Nat) (drooped : List Nat) (t : Nat) (s : State) :
    exec (.inrushShortDetect room deciamps drooped t) s = execInrushShortDetect room deciamps drooped t s := rfl
theorem exec_inrushFaultClear (room t : Nat) (s : State) :
    exec (.inrushFaultClear room t) s = execInrushFaultClear room t s := rfl
theorem exec_headerStageHoldEnd (room t : Nat) (s : State) :
    exec (.headerStageHoldEnd room t) s = execHeaderStageHoldEnd room t s := rfl
theorem exec_refclkLoss (input t : Nat) (s : State) :
    exec (.refclkLoss input t) s = execRefclkLoss input t s := rfl
theorem exec_refclkReturn (input t : Nat) (s : State) :
    exec (.refclkReturn input t) s = execRefclkReturn input t s := rfl
theorem exec_roomRefLoss (room t : Nat) (s : State) :
    exec (.roomRefLoss room t) s = execRoomRefLoss room t s := rfl
theorem exec_holdoverCap (room t : Nat) (s : State) :
    exec (.holdoverCap room t) s = execHoldoverCap room t s := rfl
theorem exec_roomStopped (room t : Nat) (s : State) :
    exec (.roomStopped room t) s = execRoomStopped room t s := rfl
theorem exec_clockSwitchDone (room t : Nat) (s : State) :
    exec (.clockSwitchDone room t) s = execClockSwitchDone room t s := rfl
theorem exec_voltageRampDone (room t : Nat) (s : State) :
    exec (.voltageRampDone room t) s = execVoltageRampDone room t s := rfl
theorem exec_reinDecision (seen : List (Nat × Nat × Bool × Int) × List (Nat × Nat × Nat × List Nat)) (inputMw t : Nat) (s : State) :
    exec (.reinDecision seen inputMw t) s = execReinDecision seen inputMw t s := rfl
theorem exec_inletPoll (a b c d : Option Int) (t : Nat) (s : State) :
    exec (.inletPoll a b c d t) s = execInletPoll a b c d t s := rfl
theorem exec_rthEstimate (calm : Bool) (meanMw t : Nat) (s : State) :
    exec (.rthEstimate calm meanMw t) s = execRthEstimate calm meanMw t s := rfl
theorem exec_thermalCeilingRaise (room t : Nat) (s : State) :
    exec (.thermalCeilingRaise room t) s = execThermalCeilingRaise room t s := rfl
theorem exec_fanDutyUpdate (seen : List Nat × Nat) (s : State) :
    exec (.fanDutyUpdate seen) s = execFanDutyUpdate seen s := rfl
theorem exec_fanFail (fan rpm t : Nat) (s : State) :
    exec (.fanFail fan rpm t) s = execFanFail fan rpm t s := rfl
theorem exec_throttleEnd (k room t : Nat) (s : State) :
    exec (.throttleEnd k room t) s = execThrottleEnd k room t s := rfl
theorem exec_meterInterval (input : Nat) (rooms : List (Nat × Nat)) (counts : List (Nat × Nat × Nat × Nat)) (t : Nat) (s : State) :
    exec (.meterInterval input rooms counts t) s = execMeterInterval input rooms counts t s := rfl
theorem exec_ledgerResend (day : Nat) (s : State) :
    exec (.ledgerResend day) s = execLedgerResend day s := rfl
theorem exec_meterIntegrityFault (cal key : Bool) (s : State) :
    exec (.meterIntegrityFault cal key) s = execMeterIntegrityFault cal key s := rfl
theorem exec_standbyFail (t : Nat) (s : State) :
    exec (.standbyFail t) s = execStandbyFail t s := rfl
theorem exec_epochRoll (t : Nat) (s : State) :
    exec (.epochRoll t) s = execEpochRoll t s := rfl
theorem exec_timeSetGo (t : Nat) (s : State) :
    exec (.timeSetGo t) s = execTimeSetGo t s := rfl
theorem exec_timeSetAtPps (t : Nat) (s : State) :
    exec (.timeSetAtPps t) s = execTimeSetAtPps t s := rfl
theorem exec_ppsEdge (falling : Bool) (t : Nat) (s : State) :
    exec (.ppsEdge falling t) s = execPpsEdge falling t s := rfl
theorem exec_timeSetYmdWrite (v : Nat) (s : State) :
    exec (.timeSetYmdWrite v) s = execTimeSetYmdWrite v s := rfl
theorem exec_timeSetHmsWrite (v : Nat) (s : State) :
    exec (.timeSetHmsWrite v) s = execTimeSetHmsWrite v s := rfl
theorem exec_timeSetNsWrite (v : Nat) (s : State) :
    exec (.timeSetNsWrite v) s = execTimeSetNsWrite v s := rfl
theorem exec_utcOffsetChange (t : Nat) (s : State) :
    exec (.utcOffsetChange t) s = execUtcOffsetChange t s := rfl
theorem exec_wallTimeUnsyncTimeout (t : Nat) (s : State) :
    exec (.wallTimeUnsyncTimeout t) s = execWallTimeUnsyncTimeout t s := rfl
theorem exec_coldBringup (out : BringOut) (t : Nat) (s : State) :
    exec (.coldBringup out t) s = execColdBringup out t s := rfl
theorem exec_resetAssert (t : Nat) (s : State) :
    exec (.resetAssert t) s = execResetAssert t s := rfl
theorem exec_surveyConfirm (t : Nat) (s : State) :
    exec (.surveyConfirm t) s = execSurveyConfirm t s := rfl
theorem exec_fwStage (img : Bytes) (t : Nat) (s : State) :
    exec (.fwStage img t) s = execFwStage img t s := rfl
theorem exec_fwArm (t : Nat) (s : State) :
    exec (.fwArm t) s = execFwArm t s := rfl
theorem exec_fwConfirm (t : Nat) (s : State) :
    exec (.fwConfirm t) s = execFwConfirm t s := rfl
theorem exec_fwTrialWatchdog (t : Nat) (s : State) :
    exec (.fwTrialWatchdog t) s = execFwTrialWatchdog t s := rfl
theorem exec_fwAbiSelWrite (v : Nat) (s : State) :
    exec (.fwAbiSelWrite v) s = execFwAbiSelWrite v s := rfl
theorem exec_mctpMessage (addr kind sensor t : Nat) (s : State) :
    exec (.mctpMessage addr kind sensor t) s = execMctpMessage addr kind sensor t s := rfl
theorem exec_hallSharedWrite (v : Nat) (s : State) :
    exec (.hallSharedWrite v) s = execHallSharedWrite v s := rfl
theorem exec_hallSlotWrite (lane slot v : Nat) (s : State) :
    exec (.hallSlotWrite lane slot v) s = execHallSlotWrite lane slot v s := rfl
theorem exec_porchSlotWrite (kind inst idx v : Nat) (s : State) :
    exec (.porchSlotWrite kind inst idx v) s = execPorchSlotWrite kind inst idx v s := rfl
theorem exec_brdlPartAllotWrite (part v : Nat) (s : State) :
    exec (.brdlPartAllotWrite part v) s = execBrdlPartAllotWrite part v s := rfl
theorem exec_brdlRegionValidWrite (region v : Nat) (s : State) :
    exec (.brdlRegionValidWrite region v) s = execBrdlRegionValidWrite region v s := rfl
theorem exec_eccOnWrite (part v : Nat) (s : State) :
    exec (.eccOnWrite part v) s = execEccOnWrite part v s := rfl
theorem exec_ringAllotWrite (fn v : Nat) (s : State) :
    exec (.ringAllotWrite fn v) s = execRingAllotWrite fn v s := rfl
theorem exec_ringCtxEnable (fn ring v : Nat) (s : State) :
    exec (.ringCtxEnable fn ring v) s = execRingCtxEnable fn ring v s := rfl
theorem exec_ringEvtEnable (e v : Nat) (s : State) :
    exec (.ringEvtEnable e v) s = execRingEvtEnable e v s := rfl
theorem exec_reinOpCapWrite (v : Nat) (s : State) :
    exec (.reinOpCapWrite v) s = execReinOpCapWrite v s := rfl
theorem exec_reinFacTargetWrite (v : Nat) (s : State) :
    exec (.reinFacTargetWrite v) s = execReinFacTargetWrite v s := rfl
theorem exec_reinShedLevelWrite (v : Nat) (s : State) :
    exec (.reinShedLevelWrite v) s = execReinShedLevelWrite v s := rfl
theorem exec_journalFloorWrite (part v : Nat) (s : State) :
    exec (.journalFloorWrite part v) s = execJournalFloorWrite part v s := rfl
theorem exec_cfgLockWrite (typ inst v : Nat) (s : State) :
    exec (.cfgLockWrite typ inst v) s = execCfgLockWrite typ inst v s := rfl
theorem exec_softReset (typ inst : Nat) (s : State) :
    exec (.softReset typ inst) s = execSoftReset typ inst s := rfl
theorem exec_portDisable (port t : Nat) (s : State) :
    exec (.portDisable port t) s = execPortDisable port t s := rfl
theorem exec_portEnable (port medium mw t : Nat) (s : State) :
    exec (.portEnable port medium mw t) s = execPortEnable port medium mw t s := rfl
theorem exec_freezeWrite (typ inst : Nat) (on : Bool) (t : Nat) (s : State) :
    exec (.freezeWrite typ inst on t) s = execFreezeWrite typ inst on t s := rfl
theorem exec_loRegisterRead (fn addr n t : Nat) (s : State) :
    exec (.loRegisterRead fn addr n t) s = execLoRegisterRead fn addr n t s := rfl
theorem exec_registerWrite (fn addr n v : Nat) (env : WriteEnv) (t : Nat) (s : State) :
    exec (.registerWrite fn addr n v env t) s = execRegisterWrite fn addr n v env t s := rfl
theorem exec_roomRefLock (room rank t : Nat) (s : State) :
    exec (.roomRefLock room rank t) s = execRoomRefLock room rank t s := rfl
theorem exec_cableSupplyOverload (conn t : Nat) (s : State) :
    exec (.cableSupplyOverload conn t) s = execCableSupplyOverload conn t s := rfl
theorem exec_rthFlashSave (t : Nat) (s : State) :
    exec (.rthFlashSave t) s = execRthFlashSave t s := rfl
theorem exec_wallTimeSlewDone (t : Nat) (s : State) :
    exec (.wallTimeSlewDone t) s = execWallTimeSlewDone t s := rfl
theorem exec_fanOk (fan rpm t : Nat) (s : State) :
    exec (.fanOk fan rpm t) s = execFanOk fan rpm t s := rfl
theorem exec_firmwareRestart (addr t : Nat) (s : State) :
    exec (.firmwareRestart addr t) s = execFirmwareRestart addr t s := rfl

end Sys2Proof.Machine
end

