-- ==== Sys2Proof/Laws/Table.lean ====
section
/-! SUPPORT. Laws of the sparse tables and byte memories: read after write, other keys, canonical form kept. -/

namespace Sys2Proof.Machine
open Sys2Proof

/-! ### Lookup after an update -/

theorem tget_tins_same {α : Type} (t : Table α) (k : Nat) (v d : α) : tget (tins t k v) k d = v := by
  induction t with
  | nil => simp [tins, tget]
  | cons e r ih =>
    obtain ⟨k', v'⟩ := e
    unfold tins
    split
    · simp [tget]
    · split
      · simp [tget]
      · simp only [tget]; rw [if_neg (by omega)]; exact ih

theorem tget_tins_other {α : Type} (t : Table α) (k j : Nat) (v d : α) (h : j ≠ k) :
    tget (tins t k v) j d = tget t j d := by
  induction t with
  | nil => simp [tins, tget, h]
  | cons e r ih =>
    obtain ⟨k', v'⟩ := e
    unfold tins
    split
    · simp [tget, h]
    · split
      · subst_vars; simp [tget, h]
      · simp only [tget]; split
        · rfl
        · exact ih

theorem tget_tdel_other {α : Type} (t : Table α) (k j : Nat) (d : α) (h : j ≠ k) :
    tget (tdel t k) j d = tget t j d := by
  induction t with
  | nil => simp [tdel]
  | cons e r ih =>
    obtain ⟨k', v'⟩ := e
    unfold tdel
    split
    · rfl
    · split
      · subst_vars; simp [tget, h]
      · simp only [tget]; split
        · rfl
        · exact ih

theorem tget_of_keysFrom {α : Type} (t : Table α) (lo k : Nat) (d : α) (h : keysFrom lo t = true) (hk : k < lo) :
    tget t k d = d := by
  induction t generalizing lo with
  | nil => rfl
  | cons e r ih =>
    obtain ⟨k', v'⟩ := e
    simp only [keysFrom, Bool.and_eq_true, decide_eq_true_eq] at h
    simp only [tget]
    rw [if_neg (by omega)]
    exact ih (k' + 1) h.2 (by omega)

theorem tget_tdel_same {α : Type} (t : Table α) (lo k : Nat) (d : α) (h : keysFrom lo t = true) :
    tget (tdel t k) k d = d := by
  induction t generalizing lo with
  | nil => rfl
  | cons e r ih =>
    obtain ⟨k', v'⟩ := e
    have h' := h
    simp only [keysFrom, Bool.and_eq_true, decide_eq_true_eq] at h
    unfold tdel
    split
    · simp only [tget]; rw [if_neg (by omega)]; exact tget_of_keysFrom r (k' + 1) k d h.2 (by omega)
    · split
      · exact tget_of_keysFrom r (k' + 1) k d h.2 (by omega)
      · simp only [tget]; rw [if_neg (by omega)]; exact ih (k' + 1) h.2

/-- Read after write at the same key. -/
theorem tget_tput_same {α : Type} [DecidableEq α] (t : Table α) (k : Nat) (v d : α) (h : keysRise t = true) :
    tget (tput t k v d) k d = v := by
  unfold tput
  split
  · subst_vars; exact tget_tdel_same t 0 k _ h
  · exact tget_tins_same t k v d

/-- A write leaves every other key. -/
theorem tget_tput_other {α : Type} [DecidableEq α] (t : Table α) (k j : Nat) (v d e : α) (h : j ≠ k) :
    tget (tput t k v d) j e = tget t j e := by
  unfold tput
  split
  · exact tget_tdel_other t k j e h
  · exact tget_tins_other t k j v e h

/-! ### Keys stay rising -/

theorem keysFrom_mono {α : Type} (t : Table α) (lo lo' : Nat) (h : keysFrom lo t = true) (hl : lo' ≤ lo) :
    keysFrom lo' t = true := by
  cases t with
  | nil => rfl
  | cons e r =>
    obtain ⟨k, v⟩ := e
    simp only [keysFrom, Bool.and_eq_true, decide_eq_true_eq] at h ⊢
    exact ⟨by omega, h.2⟩

theorem keysFrom_tins {α : Type} (t : Table α) (lo k : Nat) (v : α) (h : keysFrom lo t = true) (hk : lo ≤ k) :
    keysFrom lo (tins t k v) = true := by
  induction t generalizing lo with
  | nil => simp [tins, keysFrom, hk]
  | cons e r ih =>
    obtain ⟨k', v'⟩ := e
    simp only [keysFrom, Bool.and_eq_true, decide_eq_true_eq] at h
    unfold tins
    split
    · simp only [keysFrom, Bool.and_eq_true, decide_eq_true_eq]; exact ⟨hk, by omega, h.2⟩
    · split
      · subst_vars; simp only [keysFrom, Bool.and_eq_true, decide_eq_true_eq]; exact h
      · simp only [keysFrom, Bool.and_eq_true, decide_eq_true_eq]
        exact ⟨h.1, ih (k' + 1) h.2 (by omega)⟩

theorem keysFrom_tdel {α : Type} (t : Table α) (lo k : Nat) (h : keysFrom lo t = true) : keysFrom lo (tdel t k) = true := by
  induction t generalizing lo with
  | nil => rfl
  | cons e r ih =>
    obtain ⟨k', v'⟩ := e
    have h' := h
    simp only [keysFrom, Bool.and_eq_true, decide_eq_true_eq] at h
    unfold tdel
    split
    · exact h'
    · split
      · exact keysFrom_mono r (k' + 1) lo h.2 (by omega)
      · simp only [keysFrom, Bool.and_eq_true, decide_eq_true_eq]; exact ⟨h.1, ih (k' + 1) h.2⟩

theorem keysRise_tput {α : Type} [DecidableEq α] (t : Table α) (k : Nat) (v d : α) (h : keysRise t = true) :
    keysRise (tput t k v d) = true := by
  unfold tput
  split
  · exact keysFrom_tdel t 0 k h
  · exact keysFrom_tins t 0 k v h (Nat.zero_le k)

theorem keysFrom_filter {α : Type} (t : Table α) (lo : Nat) (q : Nat × α → Bool) (h : keysFrom lo t = true) :
    keysFrom lo (t.filter q) = true := by
  induction t generalizing lo with
  | nil => rfl
  | cons e r ih =>
    obtain ⟨k', v'⟩ := e
    simp only [keysFrom, Bool.and_eq_true, decide_eq_true_eq] at h
    rw [List.filter_cons]
    split
    · simp only [keysFrom, Bool.and_eq_true, decide_eq_true_eq]; exact ⟨h.1, ih (k' + 1) h.2⟩
    · exact keysFrom_mono _ (k' + 1) lo (ih (k' + 1) h.2) (by omega)

theorem keysRise_tclear {α : Type} (t : Table α) (lo n : Nat) (h : keysRise t = true) : keysRise (tclear t lo n) = true :=
  keysFrom_filter t 0 _ h

theorem keysRise_trange {α : Type} (t : Table α) (lo n : Nat) (h : keysRise t = true) : keysRise (trange t lo n) = true :=
  keysFrom_filter t 0 _ h

/-! ### The canonical form is kept -/

theorem tableWfFrom_keys {α : Type} [DecidableEq α] (d : Nat → α) (t : Table α) (lo : Nat) (h : tableWfFrom d lo t = true) :
    keysFrom lo t = true := by
  induction t generalizing lo with
  | nil => rfl
  | cons e r ih =>
    obtain ⟨k, v⟩ := e
    simp only [tableWfFrom, Bool.and_eq_true, decide_eq_true_eq] at h
    simp only [keysFrom, Bool.and_eq_true, decide_eq_true_eq]
    exact ⟨h.1.1, ih (k + 1) h.2⟩

theorem tableWfFrom_mono {α : Type} [DecidableEq α] (d : Nat → α) (t : Table α) (lo lo' : Nat)
    (h : tableWfFrom d lo t = true) (hl : lo' ≤ lo) : tableWfFrom d lo' t = true := by
  cases t with
  | nil => rfl
  | cons e r =>
    obtain ⟨k, v⟩ := e
    simp only [tableWfFrom, Bool.and_eq_true, decide_eq_true_eq] at h ⊢
    exact ⟨⟨by omega, h.1.2⟩, h.2⟩

theorem tableWfFrom_tins {α : Type} [DecidableEq α] (d : Nat → α) (t : Table α) (lo k : Nat) (v : α)
    (h : tableWfFrom d lo t = true) (hk : lo ≤ k) (hv : v ≠ d k) : tableWfFrom d lo (tins t k v) = true := by
  induction t generalizing lo with
  | nil => simp [tins, tableWfFrom, hk, hv]
  | cons e r ih =>
    obtain ⟨k', v'⟩ := e
    simp only [tableWfFrom, Bool.and_eq_true, decide_eq_true_eq, Bool.not_eq_true', decide_eq_false_iff_not] at h
    unfold tins
    split
    · simp only [tableWfFrom, Bool.and_eq_true, decide_eq_true_eq, Bool.not_eq_true', decide_eq_false_iff_not]
      exact ⟨⟨hk, hv⟩, ⟨by omega, h.1.2⟩, h.2⟩
    · split
      · subst_vars
        simp only [tableWfFrom, Bool.and_eq_true, decide_eq_true_eq, Bool.not_eq_true', decide_eq_false_iff_not]
        exact ⟨⟨h.1.1, hv⟩, h.2⟩
      · simp only [tableWfFrom, Bool.and_eq_true, decide_eq_true_eq, Bool.not_eq_true', decide_eq_false_iff_not]
        exact ⟨h.1, ih (k' + 1) h.2 (by omega)⟩

theorem tableWfFrom_tdel {α : Type} [DecidableEq α] (d : Nat → α) (t : Table α) (lo k : Nat)
    (h : tableWfFrom d lo t = true) : tableWfFrom d lo (tdel t k) = true := by
  induction t generalizing lo with
  | nil => rfl
  | cons e r ih =>
    obtain ⟨k', v'⟩ := e
    have h' := h
    simp only [tableWfFrom, Bool.and_eq_true] at h
    simp only [decide_eq_true_eq] at h
    unfold tdel
    split
    · exact h'
    · split
      · exact tableWfFrom_mono d r (k' + 1) lo h.2 (by omega)
      · simp only [tableWfFrom, Bool.and_eq_true, decide_eq_true_eq]; exact ⟨h.1, ih (k' + 1) h.2⟩

theorem tableWfFrom_filter {α : Type} [DecidableEq α] (d : Nat → α) (t : Table α) (lo : Nat) (q : Nat × α → Bool)
    (h : tableWfFrom d lo t = true) : tableWfFrom d lo (t.filter q) = true := by
  induction t generalizing lo with
  | nil => rfl
  | cons e r ih =>
    obtain ⟨k', v'⟩ := e
    simp only [tableWfFrom, Bool.and_eq_true] at h
    simp only [decide_eq_true_eq] at h
    rw [List.filter_cons]
    split
    · simp only [tableWfFrom, Bool.and_eq_true, decide_eq_true_eq]; exact ⟨h.1, ih (k' + 1) h.2⟩
    · exact tableWfFrom_mono d _ (k' + 1) lo (ih (k' + 1) h.2) (by omega)

theorem memory_wf_tput (m : List Host.Cell) (k : Nat) (b : Byte) (h : Memory.wf m = true) :
    Memory.wf (tput m k b 0) = true := by
  unfold tput
  split
  · exact tableWfFrom_tdel _ m 0 k h
  · exact tableWfFrom_tins _ m 0 k b h (Nat.zero_le k) ‹_›

/-- A write of any bytes keeps a memory canonical. -/
theorem memory_wf_memWrite (m : List Host.Cell) (k : Nat) (bs : Bytes) (h : Memory.wf m = true) :
    Memory.wf (memWrite m k bs) = true := by
  induction bs generalizing m k with
  | nil => exact h
  | cons b bs ih => exact ih _ _ (memory_wf_tput m k b h)

theorem memory_wf_tclear (m : List Host.Cell) (lo n : Nat) (h : Memory.wf m = true) : Memory.wf (tclear m lo n) = true :=
  tableWfFrom_filter _ m 0 _ h

theorem memory_keysRise (m : List Host.Cell) (h : Memory.wf m = true) : keysRise m = true := tableWfFrom_keys _ m 0 h

/-! ### Bytes of a memory after a write -/

/-- The byte at `a` after `bs` is written from `k`. -/
theorem tget_memWrite (m : List Host.Cell) (k a : Nat) (bs : Bytes) (h : Memory.wf m = true) :
    tget (memWrite m k bs) a 0 = if k ≤ a ∧ a < k + bs.length then bs.getD (a - k) 0 else tget m a 0 := by
  induction bs generalizing m k with
  | nil => simp [memWrite]
  | cons b bs ih =>
    simp only [memWrite]
    rw [ih _ _ (memory_wf_tput m k b h)]
    by_cases e : a = k
    · subst e
      rw [if_neg (by omega), if_pos (by simp)]
      rw [tget_tput_same _ _ _ _ (memory_keysRise m h)]; simp
    · rw [tget_tput_other _ _ _ _ _ _ e]
      simp only [List.length_cons]
      by_cases c : k + 1 ≤ a ∧ a < k + 1 + bs.length
      · rw [if_pos c, if_pos (by omega)]
        have : a - k = (a - (k + 1)) + 1 := by omega
        rw [this]; simp
      · rw [if_neg c, if_neg (by omega)]

end Sys2Proof.Machine
end

