-- ==== Sys2Proof/Laws/State.lean ====
section
/-! SUPPORT. One lemma per field per update of the state, so that no proof unfolds an update. -/

namespace Sys2Proof.Machine
open Sys2Proof

@[simp] theorem State.setRegAt_pending (s : State) (typ inst off : Nat) (v : Word) : (s.setRegAt typ inst off v).pending = s.pending := rfl
@[simp] theorem State.setRegAt_free (s : State) (typ inst off : Nat) (v : Word) : (s.setRegAt typ inst off v).free = s.free := rfl
@[simp] theorem State.setRegAt_mono (s : State) (typ inst off : Nat) (v : Word) : (s.setRegAt typ inst off v).mono = s.mono := rfl
@[simp] theorem State.setRegAt_frozen (s : State) (typ inst off : Nat) (v : Word) : (s.setRegAt typ inst off v).frozen = s.frozen := rfl
@[simp] theorem State.setRegAt_latch (s : State) (typ inst off : Nat) (v : Word) : (s.setRegAt typ inst off v).latch = s.latch := rfl
@[simp] theorem State.setRegAt_pantry (s : State) (typ inst off : Nat) (v : Word) : (s.setRegAt typ inst off v).pantry = s.pantry := rfl
@[simp] theorem State.setRegAt_larder (s : State) (typ inst off : Nat) (v : Word) : (s.setRegAt typ inst off v).larder = s.larder := rfl
@[simp] theorem State.setRegAt_cellar (s : State) (typ inst off : Nat) (v : Word) : (s.setRegAt typ inst off v).cellar = s.cellar := rfl
@[simp] theorem State.setRegAt_cellKey (s : State) (typ inst off : Nat) (v : Word) : (s.setRegAt typ inst off v).cellKey = s.cellKey := rfl
@[simp] theorem State.setRegAt_pantryMark (s : State) (typ inst off : Nat) (v : Word) : (s.setRegAt typ inst off v).pantryMark = s.pantryMark := rfl
@[simp] theorem State.setRegAt_larderMark (s : State) (typ inst off : Nat) (v : Word) : (s.setRegAt typ inst off v).larderMark = s.larderMark := rfl
@[simp] theorem State.setRegAt_cellarMark (s : State) (typ inst off : Nat) (v : Word) : (s.setRegAt typ inst off v).cellarMark = s.cellarMark := rfl
@[simp] theorem State.setRegAt_cache (s : State) (typ inst off : Nat) (v : Word) : (s.setRegAt typ inst off v).cache = s.cache := rfl
@[simp] theorem State.setRegAt_cores (s : State) (typ inst off : Nat) (v : Word) : (s.setRegAt typ inst off v).cores = s.cores := rfl
@[simp] theorem State.setRegAt_roomStop (s : State) (typ inst off : Nat) (v : Word) : (s.setRegAt typ inst off v).roomStop = s.roomStop := rfl
@[simp] theorem State.setRegAt_parts (s : State) (typ inst off : Nat) (v : Word) : (s.setRegAt typ inst off v).parts = s.parts := rfl
@[simp] theorem State.setRegAt_hall (s : State) (typ inst off : Nat) (v : Word) : (s.setRegAt typ inst off v).hall = s.hall := rfl
@[simp] theorem State.setRegAt_brdl (s : State) (typ inst off : Nat) (v : Word) : (s.setRegAt typ inst off v).brdl = s.brdl := rfl
@[simp] theorem State.setRegAt_heat (s : State) (typ inst off : Nat) (v : Word) : (s.setRegAt typ inst off v).heat = s.heat := rfl
@[simp] theorem State.setRegAt_host (s : State) (typ inst off : Nat) (v : Word) : (s.setRegAt typ inst off v).host = s.host := rfl
@[simp] theorem State.setRegAt_err (s : State) (typ inst off : Nat) (v : Word) : (s.setRegAt typ inst off v).err = s.err := rfl
@[simp] theorem State.setRegAt_nv (s : State) (typ inst off : Nat) (v : Word) : (s.setRegAt typ inst off v).nv = s.nv := rfl
@[simp] theorem State.setRegAt_time (s : State) (typ inst off : Nat) (v : Word) : (s.setRegAt typ inst off v).time = s.time := rfl
@[simp] theorem State.setRegAt_rein (s : State) (typ inst off : Nat) (v : Word) : (s.setRegAt typ inst off v).rein = s.rein := rfl
@[simp] theorem State.setRegAt_pwr (s : State) (typ inst off : Nat) (v : Word) : (s.setRegAt typ inst off v).pwr = s.pwr := rfl
@[simp] theorem State.setRegAt_bring (s : State) (typ inst off : Nat) (v : Word) : (s.setRegAt typ inst off v).bring = s.bring := rfl
@[simp] theorem State.setRegAt_smb (s : State) (typ inst off : Nat) (v : Word) : (s.setRegAt typ inst off v).smb = s.smb := rfl
@[simp] theorem State.setRegAt_mtr (s : State) (typ inst off : Nat) (v : Word) : (s.setRegAt typ inst off v).mtr = s.mtr := rfl
@[simp] theorem State.setRegAt_strikes (s : State) (typ inst off : Nat) (v : Word) : (s.setRegAt typ inst off v).strikes = s.strikes := rfl
@[simp] theorem State.setRegAt_condemned (s : State) (typ inst off : Nat) (v : Word) : (s.setRegAt typ inst off v).condemned = s.condemned := rfl
@[simp] theorem State.setRegAt_roomRetire (s : State) (typ inst off : Nat) (v : Word) : (s.setRegAt typ inst off v).roomRetire = s.roomRetire := rfl

@[simp] theorem State.setReg_pending (s : State) (r : Reg) (inst k v : Nat) : (s.setReg r inst k v).pending = s.pending := rfl
@[simp] theorem State.setReg_free (s : State) (r : Reg) (inst k v : Nat) : (s.setReg r inst k v).free = s.free := rfl
@[simp] theorem State.setReg_mono (s : State) (r : Reg) (inst k v : Nat) : (s.setReg r inst k v).mono = s.mono := rfl
@[simp] theorem State.setReg_frozen (s : State) (r : Reg) (inst k v : Nat) : (s.setReg r inst k v).frozen = s.frozen := rfl
@[simp] theorem State.setReg_latch (s : State) (r : Reg) (inst k v : Nat) : (s.setReg r inst k v).latch = s.latch := rfl
@[simp] theorem State.setReg_pantry (s : State) (r : Reg) (inst k v : Nat) : (s.setReg r inst k v).pantry = s.pantry := rfl
@[simp] theorem State.setReg_larder (s : State) (r : Reg) (inst k v : Nat) : (s.setReg r inst k v).larder = s.larder := rfl
@[simp] theorem State.setReg_cellar (s : State) (r : Reg) (inst k v : Nat) : (s.setReg r inst k v).cellar = s.cellar := rfl
@[simp] theorem State.setReg_cellKey (s : State) (r : Reg) (inst k v : Nat) : (s.setReg r inst k v).cellKey = s.cellKey := rfl
@[simp] theorem State.setReg_pantryMark (s : State) (r : Reg) (inst k v : Nat) : (s.setReg r inst k v).pantryMark = s.pantryMark := rfl
@[simp] theorem State.setReg_larderMark (s : State) (r : Reg) (inst k v : Nat) : (s.setReg r inst k v).larderMark = s.larderMark := rfl
@[simp] theorem State.setReg_cellarMark (s : State) (r : Reg) (inst k v : Nat) : (s.setReg r inst k v).cellarMark = s.cellarMark := rfl
@[simp] theorem State.setReg_cache (s : State) (r : Reg) (inst k v : Nat) : (s.setReg r inst k v).cache = s.cache := rfl
@[simp] theorem State.setReg_cores (s : State) (r : Reg) (inst k v : Nat) : (s.setReg r inst k v).cores = s.cores := rfl
@[simp] theorem State.setReg_roomStop (s : State) (r : Reg) (inst k v : Nat) : (s.setReg r inst k v).roomStop = s.roomStop := rfl
@[simp] theorem State.setReg_parts (s : State) (r : Reg) (inst k v : Nat) : (s.setReg r inst k v).parts = s.parts := rfl
@[simp] theorem State.setReg_hall (s : State) (r : Reg) (inst k v : Nat) : (s.setReg r inst k v).hall = s.hall := rfl
@[simp] theorem State.setReg_brdl (s : State) (r : Reg) (inst k v : Nat) : (s.setReg r inst k v).brdl = s.brdl := rfl
@[simp] theorem State.setReg_heat (s : State) (r : Reg) (inst k v : Nat) : (s.setReg r inst k v).heat = s.heat := rfl
@[simp] theorem State.setReg_host (s : State) (r : Reg) (inst k v : Nat) : (s.setReg r inst k v).host = s.host := rfl
@[simp] theorem State.setReg_err (s : State) (r : Reg) (inst k v : Nat) : (s.setReg r inst k v).err = s.err := rfl
@[simp] theorem State.setReg_nv (s : State) (r : Reg) (inst k v : Nat) : (s.setReg r inst k v).nv = s.nv := rfl
@[simp] theorem State.setReg_time (s : State) (r : Reg) (inst k v : Nat) : (s.setReg r inst k v).time = s.time := rfl
@[simp] theorem State.setReg_rein (s : State) (r : Reg) (inst k v : Nat) : (s.setReg r inst k v).rein = s.rein := rfl
@[simp] theorem State.setReg_pwr (s : State) (r : Reg) (inst k v : Nat) : (s.setReg r inst k v).pwr = s.pwr := rfl
@[simp] theorem State.setReg_bring (s : State) (r : Reg) (inst k v : Nat) : (s.setReg r inst k v).bring = s.bring := rfl
@[simp] theorem State.setReg_smb (s : State) (r : Reg) (inst k v : Nat) : (s.setReg r inst k v).smb = s.smb := rfl
@[simp] theorem State.setReg_mtr (s : State) (r : Reg) (inst k v : Nat) : (s.setReg r inst k v).mtr = s.mtr := rfl
@[simp] theorem State.setReg_strikes (s : State) (r : Reg) (inst k v : Nat) : (s.setReg r inst k v).strikes = s.strikes := rfl
@[simp] theorem State.setReg_condemned (s : State) (r : Reg) (inst k v : Nat) : (s.setReg r inst k v).condemned = s.condemned := rfl
@[simp] theorem State.setReg_roomRetire (s : State) (r : Reg) (inst k v : Nat) : (s.setReg r inst k v).roomRetire = s.roomRetire := rfl

@[simp] theorem State.setFld_pending (s : State) (f : Fld) (inst k v : Nat) : (s.setFld f inst k v).pending = s.pending := rfl
@[simp] theorem State.setFld_free (s : State) (f : Fld) (inst k v : Nat) : (s.setFld f inst k v).free = s.free := rfl
@[simp] theorem State.setFld_mono (s : State) (f : Fld) (inst k v : Nat) : (s.setFld f inst k v).mono = s.mono := rfl
@[simp] theorem State.setFld_frozen (s : State) (f : Fld) (inst k v : Nat) : (s.setFld f inst k v).frozen = s.frozen := rfl
@[simp] theorem State.setFld_latch (s : State) (f : Fld) (inst k v : Nat) : (s.setFld f inst k v).latch = s.latch := rfl
@[simp] theorem State.setFld_pantry (s : State) (f : Fld) (inst k v : Nat) : (s.setFld f inst k v).pantry = s.pantry := rfl
@[simp] theorem State.setFld_larder (s : State) (f : Fld) (inst k v : Nat) : (s.setFld f inst k v).larder = s.larder := rfl
@[simp] theorem State.setFld_cellar (s : State) (f : Fld) (inst k v : Nat) : (s.setFld f inst k v).cellar = s.cellar := rfl
@[simp] theorem State.setFld_cellKey (s : State) (f : Fld) (inst k v : Nat) : (s.setFld f inst k v).cellKey = s.cellKey := rfl
@[simp] theorem State.setFld_pantryMark (s : State) (f : Fld) (inst k v : Nat) : (s.setFld f inst k v).pantryMark = s.pantryMark := rfl
@[simp] theorem State.setFld_larderMark (s : State) (f : Fld) (inst k v : Nat) : (s.setFld f inst k v).larderMark = s.larderMark := rfl
@[simp] theorem State.setFld_cellarMark (s : State) (f : Fld) (inst k v : Nat) : (s.setFld f inst k v).cellarMark = s.cellarMark := rfl
@[simp] theorem State.setFld_cache (s : State) (f : Fld) (inst k v : Nat) : (s.setFld f inst k v).cache = s.cache := rfl
@[simp] theorem State.setFld_cores (s : State) (f : Fld) (inst k v : Nat) : (s.setFld f inst k v).cores = s.cores := rfl
@[simp] theorem State.setFld_roomStop (s : State) (f : Fld) (inst k v : Nat) : (s.setFld f inst k v).roomStop = s.roomStop := rfl
@[simp] theorem State.setFld_parts (s : State) (f : Fld) (inst k v : Nat) : (s.setFld f inst k v).parts = s.parts := rfl
@[simp] theorem State.setFld_hall (s : State) (f : Fld) (inst k v : Nat) : (s.setFld f inst k v).hall = s.hall := rfl
@[simp] theorem State.setFld_brdl (s : State) (f : Fld) (inst k v : Nat) : (s.setFld f inst k v).brdl = s.brdl := rfl
@[simp] theorem State.setFld_heat (s : State) (f : Fld) (inst k v : Nat) : (s.setFld f inst k v).heat = s.heat := rfl
@[simp] theorem State.setFld_host (s : State) (f : Fld) (inst k v : Nat) : (s.setFld f inst k v).host = s.host := rfl
@[simp] theorem State.setFld_err (s : State) (f : Fld) (inst k v : Nat) : (s.setFld f inst k v).err = s.err := rfl
@[simp] theorem State.setFld_nv (s : State) (f : Fld) (inst k v : Nat) : (s.setFld f inst k v).nv = s.nv := rfl
@[simp] theorem State.setFld_time (s : State) (f : Fld) (inst k v : Nat) : (s.setFld f inst k v).time = s.time := rfl
@[simp] theorem State.setFld_rein (s : State) (f : Fld) (inst k v : Nat) : (s.setFld f inst k v).rein = s.rein := rfl
@[simp] theorem State.setFld_pwr (s : State) (f : Fld) (inst k v : Nat) : (s.setFld f inst k v).pwr = s.pwr := rfl
@[simp] theorem State.setFld_bring (s : State) (f : Fld) (inst k v : Nat) : (s.setFld f inst k v).bring = s.bring := rfl
@[simp] theorem State.setFld_smb (s : State) (f : Fld) (inst k v : Nat) : (s.setFld f inst k v).smb = s.smb := rfl
@[simp] theorem State.setFld_mtr (s : State) (f : Fld) (inst k v : Nat) : (s.setFld f inst k v).mtr = s.mtr := rfl
@[simp] theorem State.setFld_strikes (s : State) (f : Fld) (inst k v : Nat) : (s.setFld f inst k v).strikes = s.strikes := rfl
@[simp] theorem State.setFld_condemned (s : State) (f : Fld) (inst k v : Nat) : (s.setFld f inst k v).condemned = s.condemned := rfl
@[simp] theorem State.setFld_roomRetire (s : State) (f : Fld) (inst k v : Nat) : (s.setFld f inst k v).roomRetire = s.roomRetire := rfl

@[simp] theorem State.incFld_pending (s : State) (f : Fld) (inst k : Nat) : (s.incFld f inst k).pending = s.pending := rfl
@[simp] theorem State.incFld_free (s : State) (f : Fld) (inst k : Nat) : (s.incFld f inst k).free = s.free := rfl
@[simp] theorem State.incFld_mono (s : State) (f : Fld) (inst k : Nat) : (s.incFld f inst k).mono = s.mono := rfl
@[simp] theorem State.incFld_frozen (s : State) (f : Fld) (inst k : Nat) : (s.incFld f inst k).frozen = s.frozen := rfl
@[simp] theorem State.incFld_latch (s : State) (f : Fld) (inst k : Nat) : (s.incFld f inst k).latch = s.latch := rfl
@[simp] theorem State.incFld_pantry (s : State) (f : Fld) (inst k : Nat) : (s.incFld f inst k).pantry = s.pantry := rfl
@[simp] theorem State.incFld_larder (s : State) (f : Fld) (inst k : Nat) : (s.incFld f inst k).larder = s.larder := rfl
@[simp] theorem State.incFld_cellar (s : State) (f : Fld) (inst k : Nat) : (s.incFld f inst k).cellar = s.cellar := rfl
@[simp] theorem State.incFld_cellKey (s : State) (f : Fld) (inst k : Nat) : (s.incFld f inst k).cellKey = s.cellKey := rfl
@[simp] theorem State.incFld_pantryMark (s : State) (f : Fld) (inst k : Nat) : (s.incFld f inst k).pantryMark = s.pantryMark := rfl
@[simp] theorem State.incFld_larderMark (s : State) (f : Fld) (inst k : Nat) : (s.incFld f inst k).larderMark = s.larderMark := rfl
@[simp] theorem State.incFld_cellarMark (s : State) (f : Fld) (inst k : Nat) : (s.incFld f inst k).cellarMark = s.cellarMark := rfl
@[simp] theorem State.incFld_cache (s : State) (f : Fld) (inst k : Nat) : (s.incFld f inst k).cache = s.cache := rfl
@[simp] theorem State.incFld_cores (s : State) (f : Fld) (inst k : Nat) : (s.incFld f inst k).cores = s.cores := rfl
@[simp] theorem State.incFld_roomStop (s : State) (f : Fld) (inst k : Nat) : (s.incFld f inst k).roomStop = s.roomStop := rfl
@[simp] theorem State.incFld_parts (s : State) (f : Fld) (inst k : Nat) : (s.incFld f inst k).parts = s.parts := rfl
@[simp] theorem State.incFld_hall (s : State) (f : Fld) (inst k : Nat) : (s.incFld f inst k).hall = s.hall := rfl
@[simp] theorem State.incFld_brdl (s : State) (f : Fld) (inst k : Nat) : (s.incFld f inst k).brdl = s.brdl := rfl
@[simp] theorem State.incFld_heat (s : State) (f : Fld) (inst k : Nat) : (s.incFld f inst k).heat = s.heat := rfl
@[simp] theorem State.incFld_host (s : State) (f : Fld) (inst k : Nat) : (s.incFld f inst k).host = s.host := rfl
@[simp] theorem State.incFld_err (s : State) (f : Fld) (inst k : Nat) : (s.incFld f inst k).err = s.err := rfl
@[simp] theorem State.incFld_nv (s : State) (f : Fld) (inst k : Nat) : (s.incFld f inst k).nv = s.nv := rfl
@[simp] theorem State.incFld_time (s : State) (f : Fld) (inst k : Nat) : (s.incFld f inst k).time = s.time := rfl
@[simp] theorem State.incFld_rein (s : State) (f : Fld) (inst k : Nat) : (s.incFld f inst k).rein = s.rein := rfl
@[simp] theorem State.incFld_pwr (s : State) (f : Fld) (inst k : Nat) : (s.incFld f inst k).pwr = s.pwr := rfl
@[simp] theorem State.incFld_bring (s : State) (f : Fld) (inst k : Nat) : (s.incFld f inst k).bring = s.bring := rfl
@[simp] theorem State.incFld_smb (s : State) (f : Fld) (inst k : Nat) : (s.incFld f inst k).smb = s.smb := rfl
@[simp] theorem State.incFld_mtr (s : State) (f : Fld) (inst k : Nat) : (s.incFld f inst k).mtr = s.mtr := rfl
@[simp] theorem State.incFld_strikes (s : State) (f : Fld) (inst k : Nat) : (s.incFld f inst k).strikes = s.strikes := rfl
@[simp] theorem State.incFld_condemned (s : State) (f : Fld) (inst k : Nat) : (s.incFld f inst k).condemned = s.condemned := rfl
@[simp] theorem State.incFld_roomRetire (s : State) (f : Fld) (inst k : Nat) : (s.incFld f inst k).roomRetire = s.roomRetire := rfl

@[simp] theorem State.setReg64_pending (s : State) (lo hi : Reg) (inst k v : Nat) : (s.setReg64 lo hi inst k v).pending = s.pending := rfl
@[simp] theorem State.setReg64_free (s : State) (lo hi : Reg) (inst k v : Nat) : (s.setReg64 lo hi inst k v).free = s.free := rfl
@[simp] theorem State.setReg64_mono (s : State) (lo hi : Reg) (inst k v : Nat) : (s.setReg64 lo hi inst k v).mono = s.mono := rfl
@[simp] theorem State.setReg64_frozen (s : State) (lo hi : Reg) (inst k v : Nat) : (s.setReg64 lo hi inst k v).frozen = s.frozen := rfl
@[simp] theorem State.setReg64_latch (s : State) (lo hi : Reg) (inst k v : Nat) : (s.setReg64 lo hi inst k v).latch = s.latch := rfl
@[simp] theorem State.setReg64_pantry (s : State) (lo hi : Reg) (inst k v : Nat) : (s.setReg64 lo hi inst k v).pantry = s.pantry := rfl
@[simp] theorem State.setReg64_larder (s : State) (lo hi : Reg) (inst k v : Nat) : (s.setReg64 lo hi inst k v).larder = s.larder := rfl
@[simp] theorem State.setReg64_cellar (s : State) (lo hi : Reg) (inst k v : Nat) : (s.setReg64 lo hi inst k v).cellar = s.cellar := rfl
@[simp] theorem State.setReg64_cellKey (s : State) (lo hi : Reg) (inst k v : Nat) : (s.setReg64 lo hi inst k v).cellKey = s.cellKey := rfl
@[simp] theorem State.setReg64_pantryMark (s : State) (lo hi : Reg) (inst k v : Nat) : (s.setReg64 lo hi inst k v).pantryMark = s.pantryMark := rfl
@[simp] theorem State.setReg64_larderMark (s : State) (lo hi : Reg) (inst k v : Nat) : (s.setReg64 lo hi inst k v).larderMark = s.larderMark := rfl
@[simp] theorem State.setReg64_cellarMark (s : State) (lo hi : Reg) (inst k v : Nat) : (s.setReg64 lo hi inst k v).cellarMark = s.cellarMark := rfl
@[simp] theorem State.setReg64_cache (s : State) (lo hi : Reg) (inst k v : Nat) : (s.setReg64 lo hi inst k v).cache = s.cache := rfl
@[simp] theorem State.setReg64_cores (s : State) (lo hi : Reg) (inst k v : Nat) : (s.setReg64 lo hi inst k v).cores = s.cores := rfl
@[simp] theorem State.setReg64_roomStop (s : State) (lo hi : Reg) (inst k v : Nat) : (s.setReg64 lo hi inst k v).roomStop = s.roomStop := rfl
@[simp] theorem State.setReg64_parts (s : State) (lo hi : Reg) (inst k v : Nat) : (s.setReg64 lo hi inst k v).parts = s.parts := rfl
@[simp] theorem State.setReg64_hall (s : State) (lo hi : Reg) (inst k v : Nat) : (s.setReg64 lo hi inst k v).hall = s.hall := rfl
@[simp] theorem State.setReg64_brdl (s : State) (lo hi : Reg) (inst k v : Nat) : (s.setReg64 lo hi inst k v).brdl = s.brdl := rfl
@[simp] theorem State.setReg64_heat (s : State) (lo hi : Reg) (inst k v : Nat) : (s.setReg64 lo hi inst k v).heat = s.heat := rfl
@[simp] theorem State.setReg64_host (s : State) (lo hi : Reg) (inst k v : Nat) : (s.setReg64 lo hi inst k v).host = s.host := rfl
@[simp] theorem State.setReg64_err (s : State) (lo hi : Reg) (inst k v : Nat) : (s.setReg64 lo hi inst k v).err = s.err := rfl
@[simp] theorem State.setReg64_nv (s : State) (lo hi : Reg) (inst k v : Nat) : (s.setReg64 lo hi inst k v).nv = s.nv := rfl
@[simp] theorem State.setReg64_time (s : State) (lo hi : Reg) (inst k v : Nat) : (s.setReg64 lo hi inst k v).time = s.time := rfl
@[simp] theorem State.setReg64_rein (s : State) (lo hi : Reg) (inst k v : Nat) : (s.setReg64 lo hi inst k v).rein = s.rein := rfl
@[simp] theorem State.setReg64_pwr (s : State) (lo hi : Reg) (inst k v : Nat) : (s.setReg64 lo hi inst k v).pwr = s.pwr := rfl
@[simp] theorem State.setReg64_bring (s : State) (lo hi : Reg) (inst k v : Nat) : (s.setReg64 lo hi inst k v).bring = s.bring := rfl
@[simp] theorem State.setReg64_smb (s : State) (lo hi : Reg) (inst k v : Nat) : (s.setReg64 lo hi inst k v).smb = s.smb := rfl
@[simp] theorem State.setReg64_mtr (s : State) (lo hi : Reg) (inst k v : Nat) : (s.setReg64 lo hi inst k v).mtr = s.mtr := rfl
@[simp] theorem State.setReg64_strikes (s : State) (lo hi : Reg) (inst k v : Nat) : (s.setReg64 lo hi inst k v).strikes = s.strikes := rfl
@[simp] theorem State.setReg64_condemned (s : State) (lo hi : Reg) (inst k v : Nat) : (s.setReg64 lo hi inst k v).condemned = s.condemned := rfl
@[simp] theorem State.setReg64_roomRetire (s : State) (lo hi : Reg) (inst k v : Nat) : (s.setReg64 lo hi inst k v).roomRetire = s.roomRetire := rfl

@[simp] theorem State.setCreg_pending (s : State) (typ inst : Nat) (r : Reg) (v : Nat) : (s.setCreg typ inst r v).pending = s.pending := rfl
@[simp] theorem State.setCreg_free (s : State) (typ inst : Nat) (r : Reg) (v : Nat) : (s.setCreg typ inst r v).free = s.free := rfl
@[simp] theorem State.setCreg_mono (s : State) (typ inst : Nat) (r : Reg) (v : Nat) : (s.setCreg typ inst r v).mono = s.mono := rfl
@[simp] theorem State.setCreg_frozen (s : State) (typ inst : Nat) (r : Reg) (v : Nat) : (s.setCreg typ inst r v).frozen = s.frozen := rfl
@[simp] theorem State.setCreg_latch (s : State) (typ inst : Nat) (r : Reg) (v : Nat) : (s.setCreg typ inst r v).latch = s.latch := rfl
@[simp] theorem State.setCreg_pantry (s : State) (typ inst : Nat) (r : Reg) (v : Nat) : (s.setCreg typ inst r v).pantry = s.pantry := rfl
@[simp] theorem State.setCreg_larder (s : State) (typ inst : Nat) (r : Reg) (v : Nat) : (s.setCreg typ inst r v).larder = s.larder := rfl
@[simp] theorem State.setCreg_cellar (s : State) (typ inst : Nat) (r : Reg) (v : Nat) : (s.setCreg typ inst r v).cellar = s.cellar := rfl
@[simp] theorem State.setCreg_cellKey (s : State) (typ inst : Nat) (r : Reg) (v : Nat) : (s.setCreg typ inst r v).cellKey = s.cellKey := rfl
@[simp] theorem State.setCreg_pantryMark (s : State) (typ inst : Nat) (r : Reg) (v : Nat) : (s.setCreg typ inst r v).pantryMark = s.pantryMark := rfl
@[simp] theorem State.setCreg_larderMark (s : State) (typ inst : Nat) (r : Reg) (v : Nat) : (s.setCreg typ inst r v).larderMark = s.larderMark := rfl
@[simp] theorem State.setCreg_cellarMark (s : State) (typ inst : Nat) (r : Reg) (v : Nat) : (s.setCreg typ inst r v).cellarMark = s.cellarMark := rfl
@[simp] theorem State.setCreg_cache (s : State) (typ inst : Nat) (r : Reg) (v : Nat) : (s.setCreg typ inst r v).cache = s.cache := rfl
@[simp] theorem State.setCreg_cores (s : State) (typ inst : Nat) (r : Reg) (v : Nat) : (s.setCreg typ inst r v).cores = s.cores := rfl
@[simp] theorem State.setCreg_roomStop (s : State) (typ inst : Nat) (r : Reg) (v : Nat) : (s.setCreg typ inst r v).roomStop = s.roomStop := rfl
@[simp] theorem State.setCreg_parts (s : State) (typ inst : Nat) (r : Reg) (v : Nat) : (s.setCreg typ inst r v).parts = s.parts := rfl
@[simp] theorem State.setCreg_hall (s : State) (typ inst : Nat) (r : Reg) (v : Nat) : (s.setCreg typ inst r v).hall = s.hall := rfl
@[simp] theorem State.setCreg_brdl (s : State) (typ inst : Nat) (r : Reg) (v : Nat) : (s.setCreg typ inst r v).brdl = s.brdl := rfl
@[simp] theorem State.setCreg_heat (s : State) (typ inst : Nat) (r : Reg) (v : Nat) : (s.setCreg typ inst r v).heat = s.heat := rfl
@[simp] theorem State.setCreg_host (s : State) (typ inst : Nat) (r : Reg) (v : Nat) : (s.setCreg typ inst r v).host = s.host := rfl
@[simp] theorem State.setCreg_err (s : State) (typ inst : Nat) (r : Reg) (v : Nat) : (s.setCreg typ inst r v).err = s.err := rfl
@[simp] theorem State.setCreg_nv (s : State) (typ inst : Nat) (r : Reg) (v : Nat) : (s.setCreg typ inst r v).nv = s.nv := rfl
@[simp] theorem State.setCreg_time (s : State) (typ inst : Nat) (r : Reg) (v : Nat) : (s.setCreg typ inst r v).time = s.time := rfl
@[simp] theorem State.setCreg_rein (s : State) (typ inst : Nat) (r : Reg) (v : Nat) : (s.setCreg typ inst r v).rein = s.rein := rfl
@[simp] theorem State.setCreg_pwr (s : State) (typ inst : Nat) (r : Reg) (v : Nat) : (s.setCreg typ inst r v).pwr = s.pwr := rfl
@[simp] theorem State.setCreg_bring (s : State) (typ inst : Nat) (r : Reg) (v : Nat) : (s.setCreg typ inst r v).bring = s.bring := rfl
@[simp] theorem State.setCreg_smb (s : State) (typ inst : Nat) (r : Reg) (v : Nat) : (s.setCreg typ inst r v).smb = s.smb := rfl
@[simp] theorem State.setCreg_mtr (s : State) (typ inst : Nat) (r : Reg) (v : Nat) : (s.setCreg typ inst r v).mtr = s.mtr := rfl
@[simp] theorem State.setCreg_strikes (s : State) (typ inst : Nat) (r : Reg) (v : Nat) : (s.setCreg typ inst r v).strikes = s.strikes := rfl
@[simp] theorem State.setCreg_condemned (s : State) (typ inst : Nat) (r : Reg) (v : Nat) : (s.setCreg typ inst r v).condemned = s.condemned := rfl
@[simp] theorem State.setCreg_roomRetire (s : State) (typ inst : Nat) (r : Reg) (v : Nat) : (s.setCreg typ inst r v).roomRetire = s.roomRetire := rfl

@[simp] theorem State.resetPage_pending (s : State) (typ inst : Nat) : (s.resetPage typ inst).pending = s.pending := rfl
@[simp] theorem State.resetPage_free (s : State) (typ inst : Nat) : (s.resetPage typ inst).free = s.free := rfl
@[simp] theorem State.resetPage_mono (s : State) (typ inst : Nat) : (s.resetPage typ inst).mono = s.mono := rfl
@[simp] theorem State.resetPage_frozen (s : State) (typ inst : Nat) : (s.resetPage typ inst).frozen = s.frozen := rfl
@[simp] theorem State.resetPage_latch (s : State) (typ inst : Nat) : (s.resetPage typ inst).latch = s.latch := rfl
@[simp] theorem State.resetPage_pantry (s : State) (typ inst : Nat) : (s.resetPage typ inst).pantry = s.pantry := rfl
@[simp] theorem State.resetPage_larder (s : State) (typ inst : Nat) : (s.resetPage typ inst).larder = s.larder := rfl
@[simp] theorem State.resetPage_cellar (s : State) (typ inst : Nat) : (s.resetPage typ inst).cellar = s.cellar := rfl
@[simp] theorem State.resetPage_cellKey (s : State) (typ inst : Nat) : (s.resetPage typ inst).cellKey = s.cellKey := rfl
@[simp] theorem State.resetPage_pantryMark (s : State) (typ inst : Nat) : (s.resetPage typ inst).pantryMark = s.pantryMark := rfl
@[simp] theorem State.resetPage_larderMark (s : State) (typ inst : Nat) : (s.resetPage typ inst).larderMark = s.larderMark := rfl
@[simp] theorem State.resetPage_cellarMark (s : State) (typ inst : Nat) : (s.resetPage typ inst).cellarMark = s.cellarMark := rfl
@[simp] theorem State.resetPage_cache (s : State) (typ inst : Nat) : (s.resetPage typ inst).cache = s.cache := rfl
@[simp] theorem State.resetPage_cores (s : State) (typ inst : Nat) : (s.resetPage typ inst).cores = s.cores := rfl
@[simp] theorem State.resetPage_roomStop (s : State) (typ inst : Nat) : (s.resetPage typ inst).roomStop = s.roomStop := rfl
@[simp] theorem State.resetPage_parts (s : State) (typ inst : Nat) : (s.resetPage typ inst).parts = s.parts := rfl
@[simp] theorem State.resetPage_hall (s : State) (typ inst : Nat) : (s.resetPage typ inst).hall = s.hall := rfl
@[simp] theorem State.resetPage_brdl (s : State) (typ inst : Nat) : (s.resetPage typ inst).brdl = s.brdl := rfl
@[simp] theorem State.resetPage_heat (s : State) (typ inst : Nat) : (s.resetPage typ inst).heat = s.heat := rfl
@[simp] theorem State.resetPage_host (s : State) (typ inst : Nat) : (s.resetPage typ inst).host = s.host := rfl
@[simp] theorem State.resetPage_err (s : State) (typ inst : Nat) : (s.resetPage typ inst).err = s.err := rfl
@[simp] theorem State.resetPage_nv (s : State) (typ inst : Nat) : (s.resetPage typ inst).nv = s.nv := rfl
@[simp] theorem State.resetPage_time (s : State) (typ inst : Nat) : (s.resetPage typ inst).time = s.time := rfl
@[simp] theorem State.resetPage_rein (s : State) (typ inst : Nat) : (s.resetPage typ inst).rein = s.rein := rfl
@[simp] theorem State.resetPage_pwr (s : State) (typ inst : Nat) : (s.resetPage typ inst).pwr = s.pwr := rfl
@[simp] theorem State.resetPage_bring (s : State) (typ inst : Nat) : (s.resetPage typ inst).bring = s.bring := rfl
@[simp] theorem State.resetPage_smb (s : State) (typ inst : Nat) : (s.resetPage typ inst).smb = s.smb := rfl
@[simp] theorem State.resetPage_mtr (s : State) (typ inst : Nat) : (s.resetPage typ inst).mtr = s.mtr := rfl
@[simp] theorem State.resetPage_strikes (s : State) (typ inst : Nat) : (s.resetPage typ inst).strikes = s.strikes := rfl
@[simp] theorem State.resetPage_condemned (s : State) (typ inst : Nat) : (s.resetPage typ inst).condemned = s.condemned := rfl
@[simp] theorem State.resetPage_roomRetire (s : State) (typ inst : Nat) : (s.resetPage typ inst).roomRetire = s.roomRetire := rfl

@[simp] theorem State.toTime_pending (s : State) (t : Nat) : (s.toTime t).pending = s.pending := rfl
@[simp] theorem State.toTime_free (s : State) (t : Nat) : (s.toTime t).free = s.free := rfl
@[simp] theorem State.toTime_regs (s : State) (t : Nat) : (s.toTime t).regs = s.regs := rfl
@[simp] theorem State.toTime_frozen (s : State) (t : Nat) : (s.toTime t).frozen = s.frozen := rfl
@[simp] theorem State.toTime_latch (s : State) (t : Nat) : (s.toTime t).latch = s.latch := rfl
@[simp] theorem State.toTime_pantry (s : State) (t : Nat) : (s.toTime t).pantry = s.pantry := rfl
@[simp] theorem State.toTime_larder (s : State) (t : Nat) : (s.toTime t).larder = s.larder := rfl
@[simp] theorem State.toTime_cellar (s : State) (t : Nat) : (s.toTime t).cellar = s.cellar := rfl
@[simp] theorem State.toTime_cellKey (s : State) (t : Nat) : (s.toTime t).cellKey = s.cellKey := rfl
@[simp] theorem State.toTime_pantryMark (s : State) (t : Nat) : (s.toTime t).pantryMark = s.pantryMark := rfl
@[simp] theorem State.toTime_larderMark (s : State) (t : Nat) : (s.toTime t).larderMark = s.larderMark := rfl
@[simp] theorem State.toTime_cellarMark (s : State) (t : Nat) : (s.toTime t).cellarMark = s.cellarMark := rfl
@[simp] theorem State.toTime_cache (s : State) (t : Nat) : (s.toTime t).cache = s.cache := rfl
@[simp] theorem State.toTime_cores (s : State) (t : Nat) : (s.toTime t).cores = s.cores := rfl
@[simp] theorem State.toTime_roomStop (s : State) (t : Nat) : (s.toTime t).roomStop = s.roomStop := rfl
@[simp] theorem State.toTime_parts (s : State) (t : Nat) : (s.toTime t).parts = s.parts := rfl
@[simp] theorem State.toTime_hall (s : State) (t : Nat) : (s.toTime t).hall = s.hall := rfl
@[simp] theorem State.toTime_brdl (s : State) (t : Nat) : (s.toTime t).brdl = s.brdl := rfl
@[simp] theorem State.toTime_heat (s : State) (t : Nat) : (s.toTime t).heat = s.heat := rfl
@[simp] theorem State.toTime_host (s : State) (t : Nat) : (s.toTime t).host = s.host := rfl
@[simp] theorem State.toTime_err (s : State) (t : Nat) : (s.toTime t).err = s.err := rfl
@[simp] theorem State.toTime_nv (s : State) (t : Nat) : (s.toTime t).nv = s.nv := rfl
@[simp] theorem State.toTime_time (s : State) (t : Nat) : (s.toTime t).time = s.time := rfl
@[simp] theorem State.toTime_rein (s : State) (t : Nat) : (s.toTime t).rein = s.rein := rfl
@[simp] theorem State.toTime_pwr (s : State) (t : Nat) : (s.toTime t).pwr = s.pwr := rfl
@[simp] theorem State.toTime_bring (s : State) (t : Nat) : (s.toTime t).bring = s.bring := rfl
@[simp] theorem State.toTime_smb (s : State) (t : Nat) : (s.toTime t).smb = s.smb := rfl
@[simp] theorem State.toTime_mtr (s : State) (t : Nat) : (s.toTime t).mtr = s.mtr := rfl
@[simp] theorem State.toTime_strikes (s : State) (t : Nat) : (s.toTime t).strikes = s.strikes := rfl
@[simp] theorem State.toTime_condemned (s : State) (t : Nat) : (s.toTime t).condemned = s.condemned := rfl
@[simp] theorem State.toTime_roomRetire (s : State) (t : Nat) : (s.toTime t).roomRetire = s.roomRetire := rfl

@[simp] theorem State.setCore_pending (s : State) (c : Nat) (x : CoreSt) : (s.setCore c x).pending = s.pending := rfl
@[simp] theorem State.setCore_free (s : State) (c : Nat) (x : CoreSt) : (s.setCore c x).free = s.free := rfl
@[simp] theorem State.setCore_mono (s : State) (c : Nat) (x : CoreSt) : (s.setCore c x).mono = s.mono := rfl
@[simp] theorem State.setCore_regs (s : State) (c : Nat) (x : CoreSt) : (s.setCore c x).regs = s.regs := rfl
@[simp] theorem State.setCore_frozen (s : State) (c : Nat) (x : CoreSt) : (s.setCore c x).frozen = s.frozen := rfl
@[simp] theorem State.setCore_latch (s : State) (c : Nat) (x : CoreSt) : (s.setCore c x).latch = s.latch := rfl
@[simp] theorem State.setCore_pantry (s : State) (c : Nat) (x : CoreSt) : (s.setCore c x).pantry = s.pantry := rfl
@[simp] theorem State.setCore_larder (s : State) (c : Nat) (x : CoreSt) : (s.setCore c x).larder = s.larder := rfl
@[simp] theorem State.setCore_cellar (s : State) (c : Nat) (x : CoreSt) : (s.setCore c x).cellar = s.cellar := rfl
@[simp] theorem State.setCore_cellKey (s : State) (c : Nat) (x : CoreSt) : (s.setCore c x).cellKey = s.cellKey := rfl
@[simp] theorem State.setCore_pantryMark (s : State) (c : Nat) (x : CoreSt) : (s.setCore c x).pantryMark = s.pantryMark := rfl
@[simp] theorem State.setCore_larderMark (s : State) (c : Nat) (x : CoreSt) : (s.setCore c x).larderMark = s.larderMark := rfl
@[simp] theorem State.setCore_cellarMark (s : State) (c : Nat) (x : CoreSt) : (s.setCore c x).cellarMark = s.cellarMark := rfl
@[simp] theorem State.setCore_cache (s : State) (c : Nat) (x : CoreSt) : (s.setCore c x).cache = s.cache := rfl
@[simp] theorem State.setCore_roomStop (s : State) (c : Nat) (x : CoreSt) : (s.setCore c x).roomStop = s.roomStop := rfl
@[simp] theorem State.setCore_parts (s : State) (c : Nat) (x : CoreSt) : (s.setCore c x).parts = s.parts := rfl
@[simp] theorem State.setCore_hall (s : State) (c : Nat) (x : CoreSt) : (s.setCore c x).hall = s.hall := rfl
@[simp] theorem State.setCore_brdl (s : State) (c : Nat) (x : CoreSt) : (s.setCore c x).brdl = s.brdl := rfl
@[simp] theorem State.setCore_heat (s : State) (c : Nat) (x : CoreSt) : (s.setCore c x).heat = s.heat := rfl
@[simp] theorem State.setCore_host (s : State) (c : Nat) (x : CoreSt) : (s.setCore c x).host = s.host := rfl
@[simp] theorem State.setCore_err (s : State) (c : Nat) (x : CoreSt) : (s.setCore c x).err = s.err := rfl
@[simp] theorem State.setCore_nv (s : State) (c : Nat) (x : CoreSt) : (s.setCore c x).nv = s.nv := rfl
@[simp] theorem State.setCore_time (s : State) (c : Nat) (x : CoreSt) : (s.setCore c x).time = s.time := rfl
@[simp] theorem State.setCore_rein (s : State) (c : Nat) (x : CoreSt) : (s.setCore c x).rein = s.rein := rfl
@[simp] theorem State.setCore_pwr (s : State) (c : Nat) (x : CoreSt) : (s.setCore c x).pwr = s.pwr := rfl
@[simp] theorem State.setCore_bring (s : State) (c : Nat) (x : CoreSt) : (s.setCore c x).bring = s.bring := rfl
@[simp] theorem State.setCore_smb (s : State) (c : Nat) (x : CoreSt) : (s.setCore c x).smb = s.smb := rfl
@[simp] theorem State.setCore_mtr (s : State) (c : Nat) (x : CoreSt) : (s.setCore c x).mtr = s.mtr := rfl
@[simp] theorem State.setCore_strikes (s : State) (c : Nat) (x : CoreSt) : (s.setCore c x).strikes = s.strikes := rfl
@[simp] theorem State.setCore_condemned (s : State) (c : Nat) (x : CoreSt) : (s.setCore c x).condemned = s.condemned := rfl
@[simp] theorem State.setCore_roomRetire (s : State) (c : Nat) (x : CoreSt) : (s.setCore c x).roomRetire = s.roomRetire := rfl

@[simp] theorem State.modCore_pending (s : State) (c : Nat) (f : CoreSt → CoreSt) : (s.modCore c f).pending = s.pending := rfl
@[simp] theorem State.modCore_free (s : State) (c : Nat) (f : CoreSt → CoreSt) : (s.modCore c f).free = s.free := rfl
@[simp] theorem State.modCore_mono (s : State) (c : Nat) (f : CoreSt → CoreSt) : (s.modCore c f).mono = s.mono := rfl
@[simp] theorem State.modCore_regs (s : State) (c : Nat) (f : CoreSt → CoreSt) : (s.modCore c f).regs = s.regs := rfl
@[simp] theorem State.modCore_frozen (s : State) (c : Nat) (f : CoreSt → CoreSt) : (s.modCore c f).frozen = s.frozen := rfl
@[simp] theorem State.modCore_latch (s : State) (c : Nat) (f : CoreSt → CoreSt) : (s.modCore c f).latch = s.latch := rfl
@[simp] theorem State.modCore_pantry (s : State) (c : Nat) (f : CoreSt → CoreSt) : (s.modCore c f).pantry = s.pantry := rfl
@[simp] theorem State.modCore_larder (s : State) (c : Nat) (f : CoreSt → CoreSt) : (s.modCore c f).larder = s.larder := rfl
@[simp] theorem State.modCore_cellar (s : State) (c : Nat) (f : CoreSt → CoreSt) : (s.modCore c f).cellar = s.cellar := rfl
@[simp] theorem State.modCore_cellKey (s : State) (c : Nat) (f : CoreSt → CoreSt) : (s.modCore c f).cellKey = s.cellKey := rfl
@[simp] theorem State.modCore_pantryMark (s : State) (c : Nat) (f : CoreSt → CoreSt) : (s.modCore c f).pantryMark = s.pantryMark := rfl
@[simp] theorem State.modCore_larderMark (s : State) (c : Nat) (f : CoreSt → CoreSt) : (s.modCore c f).larderMark = s.larderMark := rfl
@[simp] theorem State.modCore_cellarMark (s : State) (c : Nat) (f : CoreSt → CoreSt) : (s.modCore c f).cellarMark = s.cellarMark := rfl
@[simp] theorem State.modCore_cache (s : State) (c : Nat) (f : CoreSt → CoreSt) : (s.modCore c f).cache = s.cache := rfl
@[simp] theorem State.modCore_roomStop (s : State) (c : Nat) (f : CoreSt → CoreSt) : (s.modCore c f).roomStop = s.roomStop := rfl
@[simp] theorem State.modCore_parts (s : State) (c : Nat) (f : CoreSt → CoreSt) : (s.modCore c f).parts = s.parts := rfl
@[simp] theorem State.modCore_hall (s : State) (c : Nat) (f : CoreSt → CoreSt) : (s.modCore c f).hall = s.hall := rfl
@[simp] theorem State.modCore_brdl (s : State) (c : Nat) (f : CoreSt → CoreSt) : (s.modCore c f).brdl = s.brdl := rfl
@[simp] theorem State.modCore_heat (s : State) (c : Nat) (f : CoreSt → CoreSt) : (s.modCore c f).heat = s.heat := rfl
@[simp] theorem State.modCore_host (s : State) (c : Nat) (f : CoreSt → CoreSt) : (s.modCore c f).host = s.host := rfl
@[simp] theorem State.modCore_err (s : State) (c : Nat) (f : CoreSt → CoreSt) : (s.modCore c f).err = s.err := rfl
@[simp] theorem State.modCore_nv (s : State) (c : Nat) (f : CoreSt → CoreSt) : (s.modCore c f).nv = s.nv := rfl
@[simp] theorem State.modCore_time (s : State) (c : Nat) (f : CoreSt → CoreSt) : (s.modCore c f).time = s.time := rfl
@[simp] theorem State.modCore_rein (s : State) (c : Nat) (f : CoreSt → CoreSt) : (s.modCore c f).rein = s.rein := rfl
@[simp] theorem State.modCore_pwr (s : State) (c : Nat) (f : CoreSt → CoreSt) : (s.modCore c f).pwr = s.pwr := rfl
@[simp] theorem State.modCore_bring (s : State) (c : Nat) (f : CoreSt → CoreSt) : (s.modCore c f).bring = s.bring := rfl
@[simp] theorem State.modCore_smb (s : State) (c : Nat) (f : CoreSt → CoreSt) : (s.modCore c f).smb = s.smb := rfl
@[simp] theorem State.modCore_mtr (s : State) (c : Nat) (f : CoreSt → CoreSt) : (s.modCore c f).mtr = s.mtr := rfl
@[simp] theorem State.modCore_strikes (s : State) (c : Nat) (f : CoreSt → CoreSt) : (s.modCore c f).strikes = s.strikes := rfl
@[simp] theorem State.modCore_condemned (s : State) (c : Nat) (f : CoreSt → CoreSt) : (s.modCore c f).condemned = s.condemned := rfl
@[simp] theorem State.modCore_roomRetire (s : State) (c : Nat) (f : CoreSt → CoreSt) : (s.modCore c f).roomRetire = s.roomRetire := rfl

@[simp] theorem State.setPart_pending (s : State) (p : Nat) (x : PartSt) : (s.setPart p x).pending = s.pending := rfl
@[simp] theorem State.setPart_free (s : State) (p : Nat) (x : PartSt) : (s.setPart p x).free = s.free := rfl
@[simp] theorem State.setPart_mono (s : State) (p : Nat) (x : PartSt) : (s.setPart p x).mono = s.mono := rfl
@[simp] theorem State.setPart_regs (s : State) (p : Nat) (x : PartSt) : (s.setPart p x).regs = s.regs := rfl
@[simp] theorem State.setPart_frozen (s : State) (p : Nat) (x : PartSt) : (s.setPart p x).frozen = s.frozen := rfl
@[simp] theorem State.setPart_latch (s : State) (p : Nat) (x : PartSt) : (s.setPart p x).latch = s.latch := rfl
@[simp] theorem State.setPart_pantry (s : State) (p : Nat) (x : PartSt) : (s.setPart p x).pantry = s.pantry := rfl
@[simp] theorem State.setPart_larder (s : State) (p : Nat) (x : PartSt) : (s.setPart p x).larder = s.larder := rfl
@[simp] theorem State.setPart_cellar (s : State) (p : Nat) (x : PartSt) : (s.setPart p x).cellar = s.cellar := rfl
@[simp] theorem State.setPart_cellKey (s : State) (p : Nat) (x : PartSt) : (s.setPart p x).cellKey = s.cellKey := rfl
@[simp] theorem State.setPart_pantryMark (s : State) (p : Nat) (x : PartSt) : (s.setPart p x).pantryMark = s.pantryMark := rfl
@[simp] theorem State.setPart_larderMark (s : State) (p : Nat) (x : PartSt) : (s.setPart p x).larderMark = s.larderMark := rfl
@[simp] theorem State.setPart_cellarMark (s : State) (p : Nat) (x : PartSt) : (s.setPart p x).cellarMark = s.cellarMark := rfl
@[simp] theorem State.setPart_cache (s : State) (p : Nat) (x : PartSt) : (s.setPart p x).cache = s.cache := rfl
@[simp] theorem State.setPart_cores (s : State) (p : Nat) (x : PartSt) : (s.setPart p x).cores = s.cores := rfl
@[simp] theorem State.setPart_roomStop (s : State) (p : Nat) (x : PartSt) : (s.setPart p x).roomStop = s.roomStop := rfl
@[simp] theorem State.setPart_hall (s : State) (p : Nat) (x : PartSt) : (s.setPart p x).hall = s.hall := rfl
@[simp] theorem State.setPart_brdl (s : State) (p : Nat) (x : PartSt) : (s.setPart p x).brdl = s.brdl := rfl
@[simp] theorem State.setPart_heat (s : State) (p : Nat) (x : PartSt) : (s.setPart p x).heat = s.heat := rfl
@[simp] theorem State.setPart_host (s : State) (p : Nat) (x : PartSt) : (s.setPart p x).host = s.host := rfl
@[simp] theorem State.setPart_err (s : State) (p : Nat) (x : PartSt) : (s.setPart p x).err = s.err := rfl
@[simp] theorem State.setPart_nv (s : State) (p : Nat) (x : PartSt) : (s.setPart p x).nv = s.nv := rfl
@[simp] theorem State.setPart_time (s : State) (p : Nat) (x : PartSt) : (s.setPart p x).time = s.time := rfl
@[simp] theorem State.setPart_rein (s : State) (p : Nat) (x : PartSt) : (s.setPart p x).rein = s.rein := rfl
@[simp] theorem State.setPart_pwr (s : State) (p : Nat) (x : PartSt) : (s.setPart p x).pwr = s.pwr := rfl
@[simp] theorem State.setPart_bring (s : State) (p : Nat) (x : PartSt) : (s.setPart p x).bring = s.bring := rfl
@[simp] theorem State.setPart_smb (s : State) (p : Nat) (x : PartSt) : (s.setPart p x).smb = s.smb := rfl
@[simp] theorem State.setPart_mtr (s : State) (p : Nat) (x : PartSt) : (s.setPart p x).mtr = s.mtr := rfl
@[simp] theorem State.setPart_strikes (s : State) (p : Nat) (x : PartSt) : (s.setPart p x).strikes = s.strikes := rfl
@[simp] theorem State.setPart_condemned (s : State) (p : Nat) (x : PartSt) : (s.setPart p x).condemned = s.condemned := rfl
@[simp] theorem State.setPart_roomRetire (s : State) (p : Nat) (x : PartSt) : (s.setPart p x).roomRetire = s.roomRetire := rfl

@[simp] theorem State.modPart_pending (s : State) (p : Nat) (f : PartSt → PartSt) : (s.modPart p f).pending = s.pending := rfl
@[simp] theorem State.modPart_free (s : State) (p : Nat) (f : PartSt → PartSt) : (s.modPart p f).free = s.free := rfl
@[simp] theorem State.modPart_mono (s : State) (p : Nat) (f : PartSt → PartSt) : (s.modPart p f).mono = s.mono := rfl
@[simp] theorem State.modPart_regs (s : State) (p : Nat) (f : PartSt → PartSt) : (s.modPart p f).regs = s.regs := rfl
@[simp] theorem State.modPart_frozen (s : State) (p : Nat) (f : PartSt → PartSt) : (s.modPart p f).frozen = s.frozen := rfl
@[simp] theorem State.modPart_latch (s : State) (p : Nat) (f : PartSt → PartSt) : (s.modPart p f).latch = s.latch := rfl
@[simp] theorem State.modPart_pantry (s : State) (p : Nat) (f : PartSt → PartSt) : (s.modPart p f).pantry = s.pantry := rfl
@[simp] theorem State.modPart_larder (s : State) (p : Nat) (f : PartSt → PartSt) : (s.modPart p f).larder = s.larder := rfl
@[simp] theorem State.modPart_cellar (s : State) (p : Nat) (f : PartSt → PartSt) : (s.modPart p f).cellar = s.cellar := rfl
@[simp] theorem State.modPart_cellKey (s : State) (p : Nat) (f : PartSt → PartSt) : (s.modPart p f).cellKey = s.cellKey := rfl
@[simp] theorem State.modPart_pantryMark (s : State) (p : Nat) (f : PartSt → PartSt) : (s.modPart p f).pantryMark = s.pantryMark := rfl
@[simp] theorem State.modPart_larderMark (s : State) (p : Nat) (f : PartSt → PartSt) : (s.modPart p f).larderMark = s.larderMark := rfl
@[simp] theorem State.modPart_cellarMark (s : State) (p : Nat) (f : PartSt → PartSt) : (s.modPart p f).cellarMark = s.cellarMark := rfl
@[simp] theorem State.modPart_cache (s : State) (p : Nat) (f : PartSt → PartSt) : (s.modPart p f).cache = s.cache := rfl
@[simp] theorem State.modPart_cores (s : State) (p : Nat) (f : PartSt → PartSt) : (s.modPart p f).cores = s.cores := rfl
@[simp] theorem State.modPart_roomStop (s : State) (p : Nat) (f : PartSt → PartSt) : (s.modPart p f).roomStop = s.roomStop := rfl
@[simp] theorem State.modPart_hall (s : State) (p : Nat) (f : PartSt → PartSt) : (s.modPart p f).hall = s.hall := rfl
@[simp] theorem State.modPart_brdl (s : State) (p : Nat) (f : PartSt → PartSt) : (s.modPart p f).brdl = s.brdl := rfl
@[simp] theorem State.modPart_heat (s : State) (p : Nat) (f : PartSt → PartSt) : (s.modPart p f).heat = s.heat := rfl
@[simp] theorem State.modPart_host (s : State) (p : Nat) (f : PartSt → PartSt) : (s.modPart p f).host = s.host := rfl
@[simp] theorem State.modPart_err (s : State) (p : Nat) (f : PartSt → PartSt) : (s.modPart p f).err = s.err := rfl
@[simp] theorem State.modPart_nv (s : State) (p : Nat) (f : PartSt → PartSt) : (s.modPart p f).nv = s.nv := rfl
@[simp] theorem State.modPart_time (s : State) (p : Nat) (f : PartSt → PartSt) : (s.modPart p f).time = s.time := rfl
@[simp] theorem State.modPart_rein (s : State) (p : Nat) (f : PartSt → PartSt) : (s.modPart p f).rein = s.rein := rfl
@[simp] theorem State.modPart_pwr (s : State) (p : Nat) (f : PartSt → PartSt) : (s.modPart p f).pwr = s.pwr := rfl
@[simp] theorem State.modPart_bring (s : State) (p : Nat) (f : PartSt → PartSt) : (s.modPart p f).bring = s.bring := rfl
@[simp] theorem State.modPart_smb (s : State) (p : Nat) (f : PartSt → PartSt) : (s.modPart p f).smb = s.smb := rfl
@[simp] theorem State.modPart_mtr (s : State) (p : Nat) (f : PartSt → PartSt) : (s.modPart p f).mtr = s.mtr := rfl
@[simp] theorem State.modPart_strikes (s : State) (p : Nat) (f : PartSt → PartSt) : (s.modPart p f).strikes = s.strikes := rfl
@[simp] theorem State.modPart_condemned (s : State) (p : Nat) (f : PartSt → PartSt) : (s.modPart p f).condemned = s.condemned := rfl
@[simp] theorem State.modPart_roomRetire (s : State) (p : Nat) (f : PartSt → PartSt) : (s.modPart p f).roomRetire = s.roomRetire := rfl

@[simp] theorem State.raiseVote_pending (s : State) (p v : Nat) : (s.raiseVote p v).pending = s.pending := rfl
@[simp] theorem State.raiseVote_free (s : State) (p v : Nat) : (s.raiseVote p v).free = s.free := rfl
@[simp] theorem State.raiseVote_mono (s : State) (p v : Nat) : (s.raiseVote p v).mono = s.mono := rfl
@[simp] theorem State.raiseVote_regs (s : State) (p v : Nat) : (s.raiseVote p v).regs = s.regs := rfl
@[simp] theorem State.raiseVote_frozen (s : State) (p v : Nat) : (s.raiseVote p v).frozen = s.frozen := rfl
@[simp] theorem State.raiseVote_latch (s : State) (p v : Nat) : (s.raiseVote p v).latch = s.latch := rfl
@[simp] theorem State.raiseVote_pantry (s : State) (p v : Nat) : (s.raiseVote p v).pantry = s.pantry := rfl
@[simp] theorem State.raiseVote_larder (s : State) (p v : Nat) : (s.raiseVote p v).larder = s.larder := rfl
@[simp] theorem State.raiseVote_cellar (s : State) (p v : Nat) : (s.raiseVote p v).cellar = s.cellar := rfl
@[simp] theorem State.raiseVote_cellKey (s : State) (p v : Nat) : (s.raiseVote p v).cellKey = s.cellKey := rfl
@[simp] theorem State.raiseVote_pantryMark (s : State) (p v : Nat) : (s.raiseVote p v).pantryMark = s.pantryMark := rfl
@[simp] theorem State.raiseVote_larderMark (s : State) (p v : Nat) : (s.raiseVote p v).larderMark = s.larderMark := rfl
@[simp] theorem State.raiseVote_cellarMark (s : State) (p v : Nat) : (s.raiseVote p v).cellarMark = s.cellarMark := rfl
@[simp] theorem State.raiseVote_cache (s : State) (p v : Nat) : (s.raiseVote p v).cache = s.cache := rfl
@[simp] theorem State.raiseVote_cores (s : State) (p v : Nat) : (s.raiseVote p v).cores = s.cores := rfl
@[simp] theorem State.raiseVote_roomStop (s : State) (p v : Nat) : (s.raiseVote p v).roomStop = s.roomStop := rfl
@[simp] theorem State.raiseVote_hall (s : State) (p v : Nat) : (s.raiseVote p v).hall = s.hall := rfl
@[simp] theorem State.raiseVote_brdl (s : State) (p v : Nat) : (s.raiseVote p v).brdl = s.brdl := rfl
@[simp] theorem State.raiseVote_heat (s : State) (p v : Nat) : (s.raiseVote p v).heat = s.heat := rfl
@[simp] theorem State.raiseVote_host (s : State) (p v : Nat) : (s.raiseVote p v).host = s.host := rfl
@[simp] theorem State.raiseVote_err (s : State) (p v : Nat) : (s.raiseVote p v).err = s.err := rfl
@[simp] theorem State.raiseVote_nv (s : State) (p v : Nat) : (s.raiseVote p v).nv = s.nv := rfl
@[simp] theorem State.raiseVote_time (s : State) (p v : Nat) : (s.raiseVote p v).time = s.time := rfl
@[simp] theorem State.raiseVote_rein (s : State) (p v : Nat) : (s.raiseVote p v).rein = s.rein := rfl
@[simp] theorem State.raiseVote_pwr (s : State) (p v : Nat) : (s.raiseVote p v).pwr = s.pwr := rfl
@[simp] theorem State.raiseVote_bring (s : State) (p v : Nat) : (s.raiseVote p v).bring = s.bring := rfl
@[simp] theorem State.raiseVote_smb (s : State) (p v : Nat) : (s.raiseVote p v).smb = s.smb := rfl
@[simp] theorem State.raiseVote_mtr (s : State) (p v : Nat) : (s.raiseVote p v).mtr = s.mtr := rfl
@[simp] theorem State.raiseVote_strikes (s : State) (p v : Nat) : (s.raiseVote p v).strikes = s.strikes := rfl
@[simp] theorem State.raiseVote_condemned (s : State) (p v : Nat) : (s.raiseVote p v).condemned = s.condemned := rfl
@[simp] theorem State.raiseVote_roomRetire (s : State) (p v : Nat) : (s.raiseVote p v).roomRetire = s.roomRetire := rfl

@[simp] theorem State.setRoom_pending (s : State) (r : Nat) (x : RoomPwr) : (s.setRoom r x).pending = s.pending := rfl
@[simp] theorem State.setRoom_free (s : State) (r : Nat) (x : RoomPwr) : (s.setRoom r x).free = s.free := rfl
@[simp] theorem State.setRoom_mono (s : State) (r : Nat) (x : RoomPwr) : (s.setRoom r x).mono = s.mono := rfl
@[simp] theorem State.setRoom_regs (s : State) (r : Nat) (x : RoomPwr) : (s.setRoom r x).regs = s.regs := rfl
@[simp] theorem State.setRoom_frozen (s : State) (r : Nat) (x : RoomPwr) : (s.setRoom r x).frozen = s.frozen := rfl
@[simp] theorem State.setRoom_latch (s : State) (r : Nat) (x : RoomPwr) : (s.setRoom r x).latch = s.latch := rfl
@[simp] theorem State.setRoom_pantry (s : State) (r : Nat) (x : RoomPwr) : (s.setRoom r x).pantry = s.pantry := rfl
@[simp] theorem State.setRoom_larder (s : State) (r : Nat) (x : RoomPwr) : (s.setRoom r x).larder = s.larder := rfl
@[simp] theorem State.setRoom_cellar (s : State) (r : Nat) (x : RoomPwr) : (s.setRoom r x).cellar = s.cellar := rfl
@[simp] theorem State.setRoom_cellKey (s : State) (r : Nat) (x : RoomPwr) : (s.setRoom r x).cellKey = s.cellKey := rfl
@[simp] theorem State.setRoom_pantryMark (s : State) (r : Nat) (x : RoomPwr) : (s.setRoom r x).pantryMark = s.pantryMark := rfl
@[simp] theorem State.setRoom_larderMark (s : State) (r : Nat) (x : RoomPwr) : (s.setRoom r x).larderMark = s.larderMark := rfl
@[simp] theorem State.setRoom_cellarMark (s : State) (r : Nat) (x : RoomPwr) : (s.setRoom r x).cellarMark = s.cellarMark := rfl
@[simp] theorem State.setRoom_cache (s : State) (r : Nat) (x : RoomPwr) : (s.setRoom r x).cache = s.cache := rfl
@[simp] theorem State.setRoom_cores (s : State) (r : Nat) (x : RoomPwr) : (s.setRoom r x).cores = s.cores := rfl
@[simp] theorem State.setRoom_roomStop (s : State) (r : Nat) (x : RoomPwr) : (s.setRoom r x).roomStop = s.roomStop := rfl
@[simp] theorem State.setRoom_parts (s : State) (r : Nat) (x : RoomPwr) : (s.setRoom r x).parts = s.parts := rfl
@[simp] theorem State.setRoom_hall (s : State) (r : Nat) (x : RoomPwr) : (s.setRoom r x).hall = s.hall := rfl
@[simp] theorem State.setRoom_brdl (s : State) (r : Nat) (x : RoomPwr) : (s.setRoom r x).brdl = s.brdl := rfl
@[simp] theorem State.setRoom_heat (s : State) (r : Nat) (x : RoomPwr) : (s.setRoom r x).heat = s.heat := rfl
@[simp] theorem State.setRoom_host (s : State) (r : Nat) (x : RoomPwr) : (s.setRoom r x).host = s.host := rfl
@[simp] theorem State.setRoom_err (s : State) (r : Nat) (x : RoomPwr) : (s.setRoom r x).err = s.err := rfl
@[simp] theorem State.setRoom_nv (s : State) (r : Nat) (x : RoomPwr) : (s.setRoom r x).nv = s.nv := rfl
@[simp] theorem State.setRoom_time (s : State) (r : Nat) (x : RoomPwr) : (s.setRoom r x).time = s.time := rfl
@[simp] theorem State.setRoom_rein (s : State) (r : Nat) (x : RoomPwr) : (s.setRoom r x).rein = s.rein := rfl
@[simp] theorem State.setRoom_bring (s : State) (r : Nat) (x : RoomPwr) : (s.setRoom r x).bring = s.bring := rfl
@[simp] theorem State.setRoom_smb (s : State) (r : Nat) (x : RoomPwr) : (s.setRoom r x).smb = s.smb := rfl
@[simp] theorem State.setRoom_mtr (s : State) (r : Nat) (x : RoomPwr) : (s.setRoom r x).mtr = s.mtr := rfl
@[simp] theorem State.setRoom_strikes (s : State) (r : Nat) (x : RoomPwr) : (s.setRoom r x).strikes = s.strikes := rfl
@[simp] theorem State.setRoom_condemned (s : State) (r : Nat) (x : RoomPwr) : (s.setRoom r x).condemned = s.condemned := rfl
@[simp] theorem State.setRoom_roomRetire (s : State) (r : Nat) (x : RoomPwr) : (s.setRoom r x).roomRetire = s.roomRetire := rfl

@[simp] theorem State.modRoom_pending (s : State) (r : Nat) (f : RoomPwr → RoomPwr) : (s.modRoom r f).pending = s.pending := rfl
@[simp] theorem State.modRoom_free (s : State) (r : Nat) (f : RoomPwr → RoomPwr) : (s.modRoom r f).free = s.free := rfl
@[simp] theorem State.modRoom_mono (s : State) (r : Nat) (f : RoomPwr → RoomPwr) : (s.modRoom r f).mono = s.mono := rfl
@[simp] theorem State.modRoom_regs (s : State) (r : Nat) (f : RoomPwr → RoomPwr) : (s.modRoom r f).regs = s.regs := rfl
@[simp] theorem State.modRoom_frozen (s : State) (r : Nat) (f : RoomPwr → RoomPwr) : (s.modRoom r f).frozen = s.frozen := rfl
@[simp] theorem State.modRoom_latch (s : State) (r : Nat) (f : RoomPwr → RoomPwr) : (s.modRoom r f).latch = s.latch := rfl
@[simp] theorem State.modRoom_pantry (s : State) (r : Nat) (f : RoomPwr → RoomPwr) : (s.modRoom r f).pantry = s.pantry := rfl
@[simp] theorem State.modRoom_larder (s : State) (r : Nat) (f : RoomPwr → RoomPwr) : (s.modRoom r f).larder = s.larder := rfl
@[simp] theorem State.modRoom_cellar (s : State) (r : Nat) (f : RoomPwr → RoomPwr) : (s.modRoom r f).cellar = s.cellar := rfl
@[simp] theorem State.modRoom_cellKey (s : State) (r : Nat) (f : RoomPwr → RoomPwr) : (s.modRoom r f).cellKey = s.cellKey := rfl
@[simp] theorem State.modRoom_pantryMark (s : State) (r : Nat) (f : RoomPwr → RoomPwr) : (s.modRoom r f).pantryMark = s.pantryMark := rfl
@[simp] theorem State.modRoom_larderMark (s : State) (r : Nat) (f : RoomPwr → RoomPwr) : (s.modRoom r f).larderMark = s.larderMark := rfl
@[simp] theorem State.modRoom_cellarMark (s : State) (r : Nat) (f : RoomPwr → RoomPwr) : (s.modRoom r f).cellarMark = s.cellarMark := rfl
@[simp] theorem State.modRoom_cache (s : State) (r : Nat) (f : RoomPwr → RoomPwr) : (s.modRoom r f).cache = s.cache := rfl
@[simp] theorem State.modRoom_cores (s : State) (r : Nat) (f : RoomPwr → RoomPwr) : (s.modRoom r f).cores = s.cores := rfl
@[simp] theorem State.modRoom_roomStop (s : State) (r : Nat) (f : RoomPwr → RoomPwr) : (s.modRoom r f).roomStop = s.roomStop := rfl
@[simp] theorem State.modRoom_parts (s : State) (r : Nat) (f : RoomPwr → RoomPwr) : (s.modRoom r f).parts = s.parts := rfl
@[simp] theorem State.modRoom_hall (s : State) (r : Nat) (f : RoomPwr → RoomPwr) : (s.modRoom r f).hall = s.hall := rfl
@[simp] theorem State.modRoom_brdl (s : State) (r : Nat) (f : RoomPwr → RoomPwr) : (s.modRoom r f).brdl = s.brdl := rfl
@[simp] theorem State.modRoom_heat (s : State) (r : Nat) (f : RoomPwr → RoomPwr) : (s.modRoom r f).heat = s.heat := rfl
@[simp] theorem State.modRoom_host (s : State) (r : Nat) (f : RoomPwr → RoomPwr) : (s.modRoom r f).host = s.host := rfl
@[simp] theorem State.modRoom_err (s : State) (r : Nat) (f : RoomPwr → RoomPwr) : (s.modRoom r f).err = s.err := rfl
@[simp] theorem State.modRoom_nv (s : State) (r : Nat) (f : RoomPwr → RoomPwr) : (s.modRoom r f).nv = s.nv := rfl
@[simp] theorem State.modRoom_time (s : State) (r : Nat) (f : RoomPwr → RoomPwr) : (s.modRoom r f).time = s.time := rfl
@[simp] theorem State.modRoom_rein (s : State) (r : Nat) (f : RoomPwr → RoomPwr) : (s.modRoom r f).rein = s.rein := rfl
@[simp] theorem State.modRoom_bring (s : State) (r : Nat) (f : RoomPwr → RoomPwr) : (s.modRoom r f).bring = s.bring := rfl
@[simp] theorem State.modRoom_smb (s : State) (r : Nat) (f : RoomPwr → RoomPwr) : (s.modRoom r f).smb = s.smb := rfl
@[simp] theorem State.modRoom_mtr (s : State) (r : Nat) (f : RoomPwr → RoomPwr) : (s.modRoom r f).mtr = s.mtr := rfl
@[simp] theorem State.modRoom_strikes (s : State) (r : Nat) (f : RoomPwr → RoomPwr) : (s.modRoom r f).strikes = s.strikes := rfl
@[simp] theorem State.modRoom_condemned (s : State) (r : Nat) (f : RoomPwr → RoomPwr) : (s.modRoom r f).condemned = s.condemned := rfl
@[simp] theorem State.modRoom_roomRetire (s : State) (r : Nat) (f : RoomPwr → RoomPwr) : (s.modRoom r f).roomRetire = s.roomRetire := rfl

end Sys2Proof.Machine
end

