-- ==== Sys2Proof/Laws/Ops.lean ====
section
/-! SUPPORT. Laws of the named operations: cores, partitions, rooms, registers and lanes read back what was written, and
moving past a bundle slot touches only the core's place in its program. -/

namespace Sys2Proof.Machine
open Sys2Proof

/-! ### Cores, partitions, rooms -/

theorem core_setCore_same (s : State) (c : Nat) (x : CoreSt) (h : keysRise s.cores = true) : (s.setCore c x).core c = x :=
  tget_tput_same _ _ _ _ h

theorem core_setCore_other (s : State) (c d : Nat) (x : CoreSt) (h : d ≠ c) : (s.setCore c x).core d = s.core d :=
  tget_tput_other _ _ _ _ _ _ h

theorem core_modCore_same (s : State) (c : Nat) (f : CoreSt → CoreSt) (h : keysRise s.cores = true) :
    (s.modCore c f).core c = f (s.core c) := core_setCore_same s c _ h

theorem core_modCore_other (s : State) (c d : Nat) (f : CoreSt → CoreSt) (h : d ≠ c) :
    (s.modCore c f).core d = s.core d := core_setCore_other s c d _ h

theorem keysRise_setCore (s : State) (c : Nat) (x : CoreSt) (h : keysRise s.cores = true) :
    keysRise (s.setCore c x).cores = true := keysRise_tput _ _ _ _ h

theorem keysRise_modCore (s : State) (c : Nat) (f : CoreSt → CoreSt) (h : keysRise s.cores = true) :
    keysRise (s.modCore c f).cores = true := keysRise_tput _ _ _ _ h

theorem part_setPart_same (s : State) (p : Nat) (x : PartSt) (h : keysRise s.parts = true) : (s.setPart p x).part p = x :=
  tget_tput_same _ _ _ _ h

theorem part_setPart_other (s : State) (p q : Nat) (x : PartSt) (h : q ≠ p) : (s.setPart p x).part q = s.part q :=
  tget_tput_other _ _ _ _ _ _ h

theorem part_modPart_same (s : State) (p : Nat) (f : PartSt → PartSt) (h : keysRise s.parts = true) :
    (s.modPart p f).part p = f (s.part p) := part_setPart_same s p _ h

theorem part_modPart_other (s : State) (p q : Nat) (f : PartSt → PartSt) (h : q ≠ p) :
    (s.modPart p f).part q = s.part q := part_setPart_other s p q _ h

theorem keysRise_modPart (s : State) (p : Nat) (f : PartSt → PartSt) (h : keysRise s.parts = true) :
    keysRise (s.modPart p f).parts = true := keysRise_tput _ _ _ _ h

@[simp] theorem core_modPart (s : State) (p c : Nat) (f : PartSt → PartSt) : (s.modPart p f).core c = s.core c := rfl
@[simp] theorem part_modCore (s : State) (p c : Nat) (f : CoreSt → CoreSt) : (s.modCore c f).part p = s.part p := rfl
@[simp] theorem part_setCore (s : State) (p c : Nat) (x : CoreSt) : (s.setCore c x).part p = s.part p := rfl

theorem OnlyCore_refl (s : State) (c : Nat) : s.OnlyCore s c := ⟨rfl, fun _ _ => rfl⟩

theorem OnlyCore_trans {s t u : State} {c : Nat} (h : s.OnlyCore t c) (g : t.OnlyCore u c) : s.OnlyCore u c := by
  obtain ⟨h1, h2⟩ := h
  obtain ⟨g1, g2⟩ := g
  refine ⟨?_, fun d hd => (g2 d hd).trans (h2 d hd)⟩
  rw [g1, h1]

theorem OnlyCore_modCore (s : State) (c : Nat) (f : CoreSt → CoreSt) : s.OnlyCore (s.modCore c f) c :=
  ⟨rfl, fun d h => core_modCore_other s c d f h⟩

/-! ### Registers -/

theorem regKey_inj {t i o t' i' o' : Nat} (hi : i < 65536) (hi' : i' < 65536) (ho : o < 4096) (ho' : o' < 4096)
    (h : regKey t i o = regKey t' i' o') : t = t' ∧ i = i' ∧ o / 4 = o' / 4 := by
  unfold regKey at h; omega

theorem regAt_setRegAt_same (s : State) (typ inst off : Nat) (v : Word) (h : keysRise s.regs = true) :
    (s.setRegAt typ inst off v).regAt typ inst off = v := tget_tput_same _ _ _ _ h

theorem regAt_setRegAt_other (s : State) (typ inst off typ' inst' off' : Nat) (v : Word)
    (h : regKey typ' inst' off' ≠ regKey typ inst off) :
    (s.setRegAt typ inst off v).regAt typ' inst' off' = s.regAt typ' inst' off' := tget_tput_other _ _ _ _ _ _ h

theorem reg_setReg_same (s : State) (r : Reg) (i k v : Nat) (h : keysRise s.regs = true) :
    (s.setReg r i k v).reg r i k = v % 2 ^ 32 := by
  unfold State.reg State.setReg
  rw [regAt_setRegAt_same _ _ _ _ _ h]; simp

theorem reg_lt (s : State) (r : Reg) (i k : Nat) : s.reg r i k < 2 ^ 32 := (s.regAt _ _ _).isLt

theorem bitsOf_withBits (x hi lo v : Nat) (_h : lo ≤ hi) :
    bitsOf (withBits x hi lo v) hi lo = v % 2 ^ (hi + 1 - lo) := by
  unfold withBits bitsOf
  generalize hw : 2 ^ (hi + 1 - lo) = w
  have wp : 0 < w := by rw [← hw]; positivity
  generalize hb : 2 ^ lo = b
  have bp : 0 < b := by rw [← hb]; positivity
  have e := Nat.div_add_mod x b
  have e2 := Nat.div_add_mod (x / b) w
  have m1 := Nat.mod_lt x bp
  have m2 := Nat.mod_lt v wp
  have key : x - x / b % w * b + v % w * b = (w * (x / b / w) + v % w) * b + x % b := by
    have : x = (w * (x / b / w) + x / b % w) * b + x % b := by rw [e2]; rw [Nat.mul_comm]; exact e.symm
    have h3 : x - x / b % w * b = w * (x / b / w) * b + x % b := by
      conv_lhs => rw [this]
      have hq : ((w * (x / b / w) + x / b % w) * b + x % b) / b = w * (x / b / w) + x / b % w := by
        rw [Nat.mul_comm, Nat.mul_add_div bp, Nat.div_eq_of_lt m1, Nat.add_zero]
      rw [hq, Nat.mul_add_mod, Nat.mod_eq_of_lt (Nat.mod_lt _ wp), Nat.add_mul]
      omega
    rw [h3, Nat.add_mul]; omega
  rw [key, Nat.mul_comm, Nat.mul_add_div bp, Nat.div_eq_of_lt m1, Nat.add_zero, Nat.mul_add_mod, Nat.mod_eq_of_lt m2]

theorem withBits_lt (x hi lo v : Nat) (h : lo ≤ hi) (hh : hi < 32) (hx : x < 2 ^ 32) : withBits x hi lo v < 2 ^ 32 := by
  unfold withBits bitsOf
  have hw : 2 ^ (hi + 1 - lo) * 2 ^ lo ≤ 2 ^ 32 := by
    rw [← Nat.pow_add]; exact Nat.pow_le_pow_right (by norm_num) (by omega)
  have hd : 2 ^ (hi + 1 - lo) * 2 ^ lo ∣ 2 ^ 32 := by
    rw [← Nat.pow_add]; exact Nat.pow_dvd_pow _ (by omega)
  generalize hwe : 2 ^ (hi + 1 - lo) = w at *
  have wp : 0 < w := by rw [← hwe]; positivity
  generalize hb : 2 ^ lo = b at *
  have bp : 0 < b := by rw [← hb]; positivity
  obtain ⟨q, hq⟩ := hd
  have e := Nat.div_add_mod x b
  have e2 := Nat.div_add_mod (x / b) w
  have m1 := Nat.mod_lt x bp
  have m2 := Nat.mod_lt v wp
  have qlt : x / b / w < q := by
    rw [Nat.div_div_eq_div_mul, Nat.mul_comm b w]
    rw [hq] at hx
    exact Nat.div_lt_of_lt_mul hx
  have hx2 : x = w * b * (x / b / w) + x / b % w * b + x % b := by
    conv_lhs => rw [← e, ← e2]
    ring
  have h1 : v % w * b ≤ (w - 1) * b := Nat.mul_le_mul_right _ (by omega)
  have h2 : (w - 1) * b + b = w * b := by rw [← Nat.succ_mul]; congr 1; omega
  have h3 : w * b * (x / b / w) + w * b ≤ w * b * q := by rw [← Nat.mul_succ]; exact Nat.mul_le_mul_left _ qlt
  omega

theorem fld_setFld_same (s : State) (f : Fld) (i k v : Nat) (h : keysRise s.regs = true) (hl : f.lo ≤ f.hi) (hh : f.hi < 32) :
    (s.setFld f i k v).fld f i k = v % 2 ^ (f.hi + 1 - f.lo) := by
  unfold State.fld State.setFld
  rw [reg_setReg_same _ _ _ _ _ h, Nat.mod_eq_of_lt (withBits_lt _ _ _ _ hl hh (reg_lt s f.reg i k)), bitsOf_withBits _ _ _ _ hl]

/-! ### Lanes -/

theorem keysRise_foldPut (l : List Nat) (g : Nat → Nat) (f : Nat → Word) (t : Table Word) (h : keysRise t = true) :
    keysRise (l.foldl (fun t x => tput t (g x) (f x) 0) t) = true := by
  induction l generalizing t with
  | nil => exact h
  | cons a l ih => exact ih _ (keysRise_tput _ _ _ _ h)

theorem keysRise_setVr (c : CoreSt) (r : Nat) (f : Nat → Word) (h : keysRise c.vr = true) : keysRise (c.setVr r f).vr = true :=
  keysRise_foldPut _ (fun l => r * 64 + l) f _ h

theorem tget_foldPut_other (l : List Nat) (g : Nat → Nat) (f : Nat → Word) (t : Table Word) (k : Nat)
    (h : ∀ x ∈ l, k ≠ g x) : tget (l.foldl (fun t x => tput t (g x) (f x) 0) t) k 0 = tget t k 0 := by
  induction l generalizing t with
  | nil => rfl
  | cons a l ih =>
    rw [List.foldl_cons, ih _ (fun x hx => h x (List.mem_cons_of_mem _ hx))]
    exact tget_tput_other _ _ _ _ _ _ (h a List.mem_cons_self)

theorem tget_foldPut_range (r n l : Nat) (f : Nat → Word) (t : Table Word) (h : keysRise t = true) (hl : l < n) :
    tget ((List.range n).foldl (fun t x => tput t (r * 64 + x) (f x) 0) t) (r * 64 + l) 0 = f l := by
  induction n with
  | zero => omega
  | succ n ih =>
    rw [List.range_succ, List.foldl_append, List.foldl_cons, List.foldl_nil]
    by_cases e : l = n
    · subst e; exact tget_tput_same _ _ _ _ (keysRise_foldPut _ (fun x => r * 64 + x) f _ h)
    · rw [tget_tput_other _ _ _ _ _ _ (by omega)]; exact ih (by omega)

/-- A register reads back what was written to it. -/
theorem lane_setVr_same (c : CoreSt) (r l : Nat) (f : Nat → Word) (h : keysRise c.vr = true) (hl : l < 64) :
    (c.setVr r f).lane r l = f l := tget_foldPut_range r 64 l f _ h hl

/-- Every other register keeps its lanes. -/
theorem lane_setVr_other (c : CoreSt) (r q l : Nat) (f : Nat → Word) (hl : l < 64) (h : q ≠ r) :
    (c.setVr r f).lane q l = c.lane q l :=
  tget_foldPut_other _ (fun x => r * 64 + x) f _ _ (fun x hx => by have := List.mem_range.mp hx; omega)

theorem vr_of_tablesOk (s : State) (c : Nat) (h : s.tablesOk = true) : keysRise (s.core c).vr = true := by
  unfold State.tablesOk at h
  simp only [Bool.and_eq_true] at h
  obtain ⟨_, ha⟩ := h
  unfold State.core
  generalize s.cores = t at ha
  induction t with
  | nil => rfl
  | cons e t ih =>
    obtain ⟨k, v⟩ := e
    simp only [List.all_cons, Bool.and_eq_true] at ha
    simp only [tget]
    split
    · exact ha.1
    · exact ih ha.2

theorem canon_cores (s : State) (h : s.canon = true) : keysRise s.cores = true := by
  unfold State.canon State.tablesOk at h; simp only [Bool.and_eq_true] at h; exact h.2.1.1.2

theorem canon_regs (s : State) (h : s.canon = true) : keysRise s.regs = true := by
  unfold State.canon State.tablesOk at h; simp only [Bool.and_eq_true] at h; exact h.2.1.1.1

theorem canon_parts (s : State) (h : s.canon = true) : keysRise s.parts = true := by
  unfold State.canon State.tablesOk at h; simp only [Bool.and_eq_true] at h; exact h.2.1.2

theorem canon_vr (s : State) (c : Nat) (h : s.canon = true) : keysRise (s.core c).vr = true := by
  refine vr_of_tablesOk s c ?_
  unfold State.canon at h; simp only [Bool.and_eq_true] at h; exact h.2

theorem canon_pantry (s : State) (h : s.canon = true) : Memory.wf s.pantry = true := by
  unfold State.canon State.memOk at h; simp only [Bool.and_eq_true] at h; exact h.1.1.1

theorem canon_larder (s : State) (h : s.canon = true) : Memory.wf s.larder = true := by
  unfold State.canon State.memOk at h; simp only [Bool.and_eq_true] at h; exact h.1.1.2

theorem canon_cellar (s : State) (h : s.canon = true) : Memory.wf s.cellar = true := by
  unfold State.canon State.memOk at h; simp only [Bool.and_eq_true] at h; exact h.1.2

/-! ### Moving past a slot -/

theorem SamePlace_refl (x : CoreSt) : x.SamePlace x := rfl

theorem SamePlace_trans {x y z : CoreSt} (h : x.SamePlace y) (g : y.SamePlace z) : x.SamePlace z := by
  unfold CoreSt.SamePlace at *; rw [g, h]

/-- What moving past a slot may do: core `c` alone changes, in its place only. -/
theorem skipNopsFrom_frame (s : State) (p c n : Nat) (h : keysRise s.cores = true) :
    s.OnlyCore (s.skipNopsFrom p c n) c ∧ (s.core c).SamePlace ((s.skipNopsFrom p c n).core c) ∧
      keysRise (s.skipNopsFrom p c n).cores = true := by
  induction n generalizing s with
  | zero => exact ⟨OnlyCore_refl s c, rfl, h⟩
  | succ n ih =>
    unfold State.skipNopsFrom
    dsimp only
    split
    · have i := ih (s.modCore c (fun x => { x with pc := x.pc + 1 })) (keysRise_modCore _ _ _ h)
      refine ⟨OnlyCore_trans (OnlyCore_modCore _ _ _) i.1, SamePlace_trans ?_ i.2.1, i.2.2⟩
      rw [core_modCore_same _ _ _ h]; rfl
    · exact ⟨OnlyCore_refl s c, rfl, h⟩

theorem slotDone_frame (s : State) (p c pos : Nat) (h : keysRise s.cores = true) :
    s.OnlyCore (s.slotDone p c pos) c ∧ (s.core c).SamePlace ((s.slotDone p c pos).core c) ∧
      keysRise (s.slotDone p c pos).cores = true := by
  unfold State.slotDone State.skipNops
  dsimp only
  split
  · generalize hf : (fun (x : CoreSt) => _) = f
    have hs : ∀ x : CoreSt, x.SamePlace (f x) := by
      intro x; subst hf
      dsimp only
      split
      · split
        · unfold CoreSt.SamePlace CoreSt.fence; dsimp only; split <;> rfl
        · rfl
      · rfl
    have i := skipNopsFrom_frame (s.modCore c f) p c
      (((((s.modCore c f).part p).hdr c).instrLen / 32) - ((s.modCore c f).core c).pc) (keysRise_modCore _ _ _ h)
    refine ⟨OnlyCore_trans (OnlyCore_modCore _ _ _) i.1, SamePlace_trans ?_ i.2.1, i.2.2⟩
    rw [core_modCore_same _ _ _ h]; exact hs _
  · refine ⟨OnlyCore_modCore _ _ _, ?_, keysRise_modCore _ _ _ h⟩
    rw [core_modCore_same _ _ _ h]; rfl

end Sys2Proof.Machine
end

