-- ==== Sys2Proof/Laws/Memory.lean ====
section
/-! SUPPORT. Laws of memory: every operation on the pantry, the larder and the cellar keeps their canonical form; what posting
an event and logging an error may change. -/

namespace Sys2Proof.Machine
open Sys2Proof

/-! ### Events and errors -/

/-- `t` is `s` but for registers and host memory. -/
def RegsHost (s t : State) : Prop := ∃ rg h, t = { s with regs := rg, host := h }

theorem RegsHost.refl (s : State) : RegsHost s s := ⟨s.regs, s.host, rfl⟩

theorem RegsHost.setFld {s t : State} (f : Fld) (i k v : Nat) (h : RegsHost s t) : RegsHost s (t.setFld f i k v) := by
  obtain ⟨rg, h, rfl⟩ := h; exact ⟨_, h, rfl⟩

theorem RegsHost.setCreg {s t : State} (ty i : Nat) (r : Reg) (v : Nat) (h : RegsHost s t) : RegsHost s (t.setCreg ty i r v) := by
  obtain ⟨rg, h, rfl⟩ := h; exact ⟨_, h, rfl⟩

theorem RegsHost.incFld {s t : State} (f : Fld) (i k : Nat) (h : RegsHost s t) : RegsHost s (t.incFld f i k) := by
  obtain ⟨rg, h, rfl⟩ := h; exact ⟨_, h, rfl⟩

theorem RegsHost.host {s t : State} (x : HostSt) (h : RegsHost s t) : RegsHost s { t with host := x } := by
  obtain ⟨rg, h, rfl⟩ := h; exact ⟨rg, x, rfl⟩

theorem RegsHost.hostWrite {s t : State} (port bus : Nat) (b : Bytes) (h : RegsHost s t) : RegsHost s (t.hostWrite port bus b) := h.host _

theorem RegsHost.signal {s t : State} (fn vec : Nat) (h : RegsHost s t) : RegsHost s (t.signal fn vec) := h.host _

theorem RegsHost.ite {s a b : State} {c : Prop} [Decidable c] (ha : RegsHost s a) (hb : RegsHost s b) :
    RegsHost s (if c then a else b) := by
  split
  · exact ha
  · exact hb

theorem RegsHost.sendEvent {s t : State} (w : LateEvent) (h : RegsHost s t) : RegsHost s (t.sendEvent w) := by
  unfold State.sendEvent
  refine .ite ?_ (h.host _)
  dsimp only
  split
  · exact (h.hostWrite _ _ _).signal _ _
  · exact h.hostWrite _ _ _

/-- One event ring's share of a post touches registers and host memory only. -/
theorem RegsHost.postRing {s t : State} (e code typ inst part : Nat) (b : Bytes) (roll : Bool) (h : RegsHost s t) :
    RegsHost s (t.postRing e code typ inst part b roll) := by
  unfold State.postRing
  refine .ite h ?_
  dsimp only
  exact .ite ((h.incFld _ _ _).host _) (RegsHost.sendEvent _ ((h.setFld _ _ _ _).host _))

/-- Posting an event touches registers and host memory only. -/
theorem RegsHost.post (s : State) (code typ inst : Nat) (part : Option Nat) (b : Bytes) : RegsHost s (s.post code typ inst part b) := by
  unfold State.post
  split
  · exact .refl s
  · dsimp only
    have h0 := (RegsHost.refl s).setCreg typ inst RG.EVT_STAT (s.creg typ inst RG.EVT_STAT ||| 2 ^ evtBit code)
    cases part with
    | none =>
      dsimp only; split
      · exact (h0.postRing _ _ _ _ _ _ _).postRing _ _ _ _ _ _ _
      · exact h0
    | some p =>
      dsimp only; split
      · exact ((h0.postRing _ _ _ _ _ _ _).postRing _ _ _ _ _ _ _).postRing _ _ _ _ _ _ _
      · exact h0.postRing _ _ _ _ _ _ _

/-! ### The three byte memories stay canonical -/

/-- The pantry, the larder and the cellar have their canonical form. -/
def State.memsOk (s : State) : Prop := Memory.wf s.pantry = true ∧ Memory.wf s.larder = true ∧ Memory.wf s.cellar = true

theorem memsOk_of_canon (s : State) (h : s.canon = true) : s.memsOk := ⟨canon_pantry s h, canon_larder s h, canon_cellar s h⟩

theorem memsOk_of_eq {s t : State} (h : s.memsOk) (p : t.pantry = s.pantry) (l : t.larder = s.larder) (c : t.cellar = s.cellar) :
    t.memsOk := by
  obtain ⟨hp, hl, hc⟩ := h
  exact ⟨by rw [p]; exact hp, by rw [l]; exact hl, by rw [c]; exact hc⟩

theorem memsOk_foldl {α : Type} (f : State → α → State) (xs : List α) (s : State) (h : s.memsOk)
    (hf : ∀ u x, u.memsOk → (f u x).memsOk) : (xs.foldl f s).memsOk := by
  induction xs generalizing s with
  | nil => exact h
  | cons x xs ih => exact ih _ (hf s x h)

theorem memsOk_post (s : State) (code typ inst : Nat) (part : Option Nat) (b : Bytes) (h : s.memsOk) :
    (s.post code typ inst part b).memsOk := by
  obtain ⟨_, _, e⟩ := RegsHost.post s code typ inst part b
  rw [e]; exact h

theorem memsOk_cellarWrite (s : State) (k nat : Nat) (bs : Bytes) (h : s.memsOk) : (s.cellarWrite k nat bs).memsOk := by
  unfold State.cellarWrite
  exact memsOk_foldl _ _ s h (fun u x hu => ⟨hu.1, hu.2.1, memory_wf_memWrite _ _ _ hu.2.2⟩)

theorem memsOk_cellarMarkWrite (s : State) (p nat n : Nat) (m : Bool) (h : s.memsOk) : (s.cellarMarkWrite p nat n m).memsOk := by
  unfold State.cellarMarkWrite
  split
  · exact h
  · split
    · dsimp only
      split <;> exact memsOk_post _ _ _ _ _ _ h
    · exact h

theorem memsOk_writeBack (s : State) (p slice set : Nat) (l : CLine) (h : s.memsOk) : (s.writeBack p slice set l).memsOk := by
  unfold State.writeBack
  dsimp only
  split
  · exact memsOk_foldl _ _ s h (fun u x hu => memsOk_cellarMarkWrite _ _ _ _ _ (memsOk_cellarWrite _ _ _ _ hu))
  · exact h

/-- A cache line made resident. -/
theorem memsOk_cacheTouch (s : State) (p g : Nat) (whole dirty : Bool) (h : s.memsOk) : (s.cacheTouch p g whole dirty).1.memsOk := by
  unfold State.cacheTouch
  dsimp only
  split
  · exact h
  · dsimp only
    have h1 : ∀ (full : Bool) (v : Option CLine) (a b : Nat), (match full, v with
        | true, some v => s.writeBack p a b v
        | _, _ => s : State).memsOk := by
      intro full v a b
      cases full <;> cases v <;> first | exact h | exact memsOk_writeBack _ _ _ _ _ h
    split
    · exact h1 _ _ _ _
    · refine memsOk_of_eq (memsOk_foldl _ (List.range 4) _ ?_ (fun u x hu => hu)) rfl rfl rfl
      exact ⟨(h1 _ _ _ _).1, memory_wf_memWrite _ _ _ (h1 _ _ _ _).2.1, (h1 _ _ _ _).2.2⟩

theorem memsOk_flushCache (s : State) (p : Nat) (h : s.memsOk) : (s.flushCache p).memsOk := by
  unfold State.flushCache
  exact memsOk_of_eq (memsOk_foldl _ _ s h (fun u e hu => memsOk_foldl _ _ u hu (fun v l hv => memsOk_writeBack _ _ _ _ l hv)))
    rfl rfl rfl

/-- A write of a location keeps the memories canonical. -/
theorem memsOk_writeLoc (s : State) (p : Nat) (l : Loc) (bs : Bytes) (m : Bool) (h : s.memsOk) : (s.writeLoc p l bs m).memsOk := by
  unfold State.writeLoc
  split
  · exact ⟨memory_wf_memWrite _ _ _ h.1, h.2⟩
  · exact ⟨h.1, memory_wf_memWrite _ _ _ h.2.1, h.2.2⟩
  · exact memsOk_cellarMarkWrite _ _ _ _ _ (memsOk_cellarWrite _ _ _ _ h)
  · next nat =>
    have k := memsOk_cacheTouch s p (nat / 256) (decide (nat % 256 = 0 ∧ bs.length = 256)) true h
    exact ⟨k.1, memory_wf_memWrite _ _ _ k.2.1, k.2.2⟩
  · split <;> exact h
  · exact h

/-- A read of a location keeps them too (it may move a cache line). -/
theorem memsOk_readLoc (s : State) (p : Nat) (l : Loc) (n : Nat) (h : s.memsOk) : (s.readLoc p l n).1.memsOk := by
  unfold State.readLoc
  split <;> first | exact h | exact memsOk_cacheTouch s p _ false false h

theorem memsOk_zeroSlice (s : State) (t : Nat) (h : s.memsOk) : (s.zeroSlice t).memsOk :=
  ⟨memory_wf_tclear _ _ _ h.1, memory_wf_tclear _ _ _ h.2.1, h.2.2⟩

theorem memsOk_zeroCellar (s : State) (base len : Nat) (h : s.memsOk) : (s.zeroCellar base len).memsOk :=
  ⟨h.1, h.2.1, memory_wf_tclear _ _ _ h.2.2⟩

/-! ### Entries moved, and entries of open values -/

theorem keysFrom_le {α : Type} (t : Table α) (lo : Nat) (h : keysFrom lo t = true) : ∀ e ∈ t, lo ≤ e.1 := by
  induction t generalizing lo with
  | nil => simp
  | cons x r ih =>
    obtain ⟨k, v⟩ := x
    simp only [keysFrom, Bool.and_eq_true, decide_eq_true_eq] at h
    intro e he
    rcases List.mem_cons.mp he with rfl | he
    · exact h.1
    · have := ih (k + 1) h.2 e he; omega

/-- The listed values of a canonical memory are not zero. -/
theorem value_of_wf (m : List Host.Cell) (lo : Nat) (h : tableWfFrom (fun _ => (0 : Byte)) lo m = true) :
    ∀ e ∈ m, e.2 ≠ 0 := by
  induction m generalizing lo with
  | nil => simp
  | cons x r ih =>
    obtain ⟨k, v⟩ := x
    simp only [tableWfFrom, Bool.and_eq_true, decide_eq_true_eq, Bool.not_eq_true', decide_eq_false_iff_not] at h
    intro e he
    rcases List.mem_cons.mp he with rfl | he
    · exact h.1.2
    · exact ih (k + 1) h.2 e he

theorem memory_wf_foldTins (src m : List Host.Cell) (f : Nat → Nat) (h : Memory.wf m = true) (hv : ∀ e ∈ src, e.2 ≠ 0) :
    Memory.wf (src.foldl (fun t e => tins t (f e.1) e.2) m) = true := by
  induction src generalizing m with
  | nil => exact h
  | cons e r ih =>
    exact ih _ (tableWfFrom_tins _ m 0 _ _ h (Nat.zero_le _) (hv e (List.mem_cons_self ..))) (fun x hx => hv x (List.mem_cons_of_mem _ hx))

/-- A moved slice keeps the memories canonical. -/
theorem memsOk_moveSlice (s : State) (a b : Nat) (h : s.memsOk) : (s.moveSlice a b).memsOk := by
  have one : ∀ (m : List Host.Cell) (n : Nat), Memory.wf m = true →
      Memory.wf ((trange m (a * n) n).foldl (fun t e => tins t (e.1 - a * n + b * n) e.2) (tclear (tclear m (a * n) n) (b * n) n)) = true := by
    intro m n hm
    refine memory_wf_foldTins _ _ (fun k => k - a * n + b * n) (memory_wf_tclear _ _ _ (memory_wf_tclear _ _ _ hm)) ?_
    intro e he
    exact value_of_wf m 0 hm e (List.mem_of_mem_filter he)
  exact ⟨one _ _ h.1, one _ _ h.2.1, h.2.2⟩

/-- Open values laid into a range keep a memory canonical. -/
theorem memory_wf_openCells (s : State) (m : List Host.Cell) (lo n : Nat) (h : Memory.wf m = true) :
    Memory.wf (s.openCells m lo n).2 = true := by
  have fresh : ∀ (xs : List Nat) (a : Nat) (rest : List Host.Cell), (∀ i ∈ xs, a ≤ lo + i) → xs.Pairwise (· < ·) →
      (∀ i ∈ xs, i < n) → tableWfFrom (fun _ => (0 : Byte)) (lo + n) rest = true → a ≤ lo + n →
      tableWfFrom (fun _ => (0 : Byte)) a (xs.filterMap (fun i =>
        let b := Config.freeByte (s.free + i)
        if b = 0 then none else some (lo + i, b)) ++ rest) = true := by
    intro xs
    induction xs with
    | nil => intro a rest _ _ _ hr ha; exact tableWfFrom_mono _ _ _ _ hr ha
    | cons i xs ih =>
      intro a rest h1 h2 h3 hr ha
      have hp := List.pairwise_cons.mp h2
      have hi : i < n := h3 i (List.mem_cons_self ..)
      rw [List.filterMap_cons]
      dsimp only
      split
      · exact ih a rest (fun j hj => h1 j (List.mem_cons_of_mem _ hj)) hp.2 (fun j hj => h3 j (List.mem_cons_of_mem _ hj)) hr ha
      · next e he =>
        split at he
        · exact absurd he (by simp)
        · next hb =>
          cases he
          rw [List.cons_append, tableWfFrom]
          simp only [Bool.and_eq_true, decide_eq_true_eq, Bool.not_eq_true', decide_eq_false_iff_not]
          exact ⟨⟨h1 i (List.mem_cons_self ..), hb⟩, ih (lo + i + 1) rest
            (fun j hj => by have := hp.1 j hj; omega) hp.2 (fun j hj => h3 j (List.mem_cons_of_mem _ hj)) hr (by omega)⟩
  have above : ∀ (t : List Host.Cell) (k : Nat), tableWfFrom (fun _ => (0 : Byte)) k t = true →
      tableWfFrom (fun _ => (0 : Byte)) (lo + n) (t.filter (fun e => decide (lo + n ≤ e.1))) = true := by
    intro t
    induction t with
    | nil => intro _ _; rfl
    | cons e r ih =>
      obtain ⟨k', v⟩ := e
      intro k hk
      simp only [tableWfFrom, Bool.and_eq_true, decide_eq_true_eq] at hk
      rw [List.filter_cons]
      split
      · next hc =>
        simp only [tableWfFrom, Bool.and_eq_true, decide_eq_true_eq]
        have hc' : lo + n ≤ k' := by simpa using hc
        exact ⟨⟨hc', hk.1.2⟩, tableWfFrom_filter _ r (k' + 1) _ hk.2⟩
      · exact ih _ hk.2
  have below : ∀ (t : List Host.Cell) (k : Nat) (rest : List Host.Cell), tableWfFrom (fun _ => (0 : Byte)) k t = true → k ≤ lo →
      tableWfFrom (fun _ => (0 : Byte)) lo rest = true →
      tableWfFrom (fun _ => (0 : Byte)) k (t.filter (fun e => decide (e.1 < lo)) ++ rest) = true := by
    intro t
    induction t with
    | nil => intro k rest _ hl hr; exact tableWfFrom_mono _ _ _ _ hr hl
    | cons e r ih =>
      obtain ⟨k', v⟩ := e
      intro k rest hk hl hr
      simp only [tableWfFrom, Bool.and_eq_true, decide_eq_true_eq] at hk
      rw [List.filter_cons]
      split
      · next hc =>
        have hc' : k' < lo := by simpa using hc
        simp only [List.cons_append, tableWfFrom, Bool.and_eq_true, decide_eq_true_eq]
        exact ⟨hk.1, ih (k' + 1) rest hk.2 (by omega) hr⟩
      · next hc =>
        have hc' : lo ≤ k' := by simpa using hc
        have he : r.filter (fun e => decide (e.1 < lo)) = [] := by
          rw [List.filter_eq_nil_iff]
          intro x hx
          have := keysFrom_le r (k' + 1) (tableWfFrom_keys _ r _ hk.2) x hx
          simp; omega
        rw [he]
        exact tableWfFrom_mono _ _ _ _ hr hl
  unfold State.openCells Memory.wf tableWf
  dsimp only
  rw [List.append_assoc]
  refine below m 0 _ h (Nat.zero_le _) (fresh (List.range n) lo _ (fun i _ => by omega) ?_ (fun i hi => List.mem_range.mp hi)
    (above m 0 h) (by omega))
  exact List.pairwise_lt_range

end Sys2Proof.Machine
end

