-- ==== Sys2Proof/Laws/Requests.lean ====
section
/-! SUPPORT. Laws of requests and stops: what the end of a request and the stop of a partition may change. -/

namespace Sys2Proof.Machine
open Sys2Proof

/-- `t` is `s` but for registers, host memory and the Meter. -/
def RegsHostMeter (s t : State) : Prop := ∃ rg h m, t = { s with regs := rg, host := h, mtr := m }

theorem RegsHostMeter.refl (s : State) : RegsHostMeter s s := ⟨s.regs, s.host, s.mtr, rfl⟩

theorem RegsHostMeter.post {s t : State} (code typ inst : Nat) (part : Option Nat) (b : Bytes) (h : RegsHostMeter s t) :
    RegsHostMeter s (t.post code typ inst part b) := by
  obtain ⟨rg, h, m, rfl⟩ := h
  obtain ⟨rg', h', e⟩ := RegsHost.post { s with regs := rg, host := h, mtr := m } code typ inst part b
  exact ⟨rg', h', m, e⟩

theorem RegsHostMeter.setReg {s t : State} (r : Reg) (i k v : Nat) (h : RegsHostMeter s t) : RegsHostMeter s (t.setReg r i k v) := by
  obtain ⟨rg, h, m, rfl⟩ := h; exact ⟨_, h, m, rfl⟩

theorem RegsHostMeter.setFld {s t : State} (f : Fld) (i k v : Nat) (h : RegsHostMeter s t) : RegsHostMeter s (t.setFld f i k v) :=
  h.setReg _ _ _ _

theorem RegsHostMeter.mtr {s t : State} (x : MtrSt) (h : RegsHostMeter s t) : RegsHostMeter s { t with mtr := x } := by
  obtain ⟨rg, h, m, rfl⟩ := h; exact ⟨rg, h, x, rfl⟩

theorem RegsHostMeter.setReq {s t : State} (k : Nat) (q : Option Req) (h : RegsHostMeter s t) : RegsHostMeter s (t.setReq k q) := by
  obtain ⟨rg, h, m, rfl⟩ := h; exact ⟨rg, _, m, rfl⟩

theorem RegsHostMeter.ite {s a b : State} {c : Prop} [Decidable c] (ha : RegsHostMeter s a) (hb : RegsHostMeter s b) :
    RegsHostMeter s (if c then a else b) := by
  split
  · exact ha
  · exact hb

theorem RegsHostMeter.receiptDue {s t : State} (p ring : Nat) (r : Req) (h : RegsHostMeter s t) :
    RegsHostMeter s (t.receiptDue p ring r) := by
  unfold State.receiptDue
  refine .ite (h.mtr _) ?_
  split
  · exact .ite (((h.mtr _).setReg _ _ _ _).post _ _ _ _ _) ((h.mtr _).setReg _ _ _ _)
  · exact h.mtr _

/-- The end of a request touches registers, host memory and the Meter only. -/
theorem RegsHostMeter.endReq (s : State) (k status : Nat) : RegsHostMeter s (s.endReq k status) := by
  unfold State.endReq
  split
  · refine .ite (RegsHostMeter.ite ?_ ?_) (.refl s)
    · exact RegsHostMeter.receiptDue _ _ _ (.ite (((RegsHostMeter.refl s).setReq _ _).setFld _ _ _ _) ((RegsHostMeter.refl s).setReq _ _))
    · exact .ite (((RegsHostMeter.refl s).setReq _ _).setFld _ _ _ _) ((RegsHostMeter.refl s).setReq _ _)
  · exact .refl s

theorem rings_sendEvent (s : State) (w : LateEvent) : (s.sendEvent w).host.rings = s.host.rings := by
  unfold State.sendEvent
  rw [apply_ite (fun (x : State) => x.host.rings)]
  refine (ite_congr rfl (fun _ => ?_) (fun _ => rfl)).trans (ite_self _)
  dsimp only
  split <;> rfl

/-- Posting an event changes no ring's request. -/
theorem rings_post (s : State) (code typ inst : Nat) (part : Option Nat) (b : Bytes) :
    (s.post code typ inst part b).host.rings = s.host.rings := by
  have ring : ∀ (u : State) (e c t i p : Nat) (b : Bytes) (r : Bool), (u.postRing e c t i p b r).host.rings = u.host.rings := by
    intro u e c t i p b r
    unfold State.postRing
    rw [apply_ite (fun (x : State) => x.host.rings)]
    refine (ite_congr rfl (fun _ => rfl) (fun _ => ?_)).trans (ite_self _)
    dsimp only
    rw [apply_ite (fun (x : State) => x.host.rings)]
    exact (ite_congr rfl (fun _ => rfl) (fun _ => rings_sendEvent _ _)).trans (ite_self _)
  unfold State.post
  split
  · rfl
  · cases part <;> dsimp only <;> split <;> first | rfl | (simp only [ring]; rfl)

/-- What the memories are after the end of a request. -/
theorem endReq_data (s : State) (k status : Nat) :
    (s.endReq k status).pantry = s.pantry ∧ (s.endReq k status).larder = s.larder ∧ (s.endReq k status).cellar = s.cellar ∧
      (s.endReq k status).cores = s.cores ∧ (s.endReq k status).parts = s.parts := by
  obtain ⟨rg, h, m, e⟩ := RegsHostMeter.endReq s k status
  rw [e]; exact ⟨rfl, rfl, rfl, rfl, rfl⟩

theorem forCores_data (s : State) (p : Nat) (f : CoreSt → CoreSt) :
    ∃ c, s.forCores p f = { s with cores := c } := by
  unfold State.forCores
  generalize (s.part p).cores = xs
  induction xs generalizing s with
  | nil => exact ⟨s.cores, rfl⟩
  | cons x xs ih => obtain ⟨c, e⟩ := ih (s.modCore x f); exact ⟨c, by rw [List.foldl_cons, e]; rfl⟩

/-- The end of an attempt touches no byte of memory. -/
theorem abandon_data (s : State) (p : Nat) :
    (s.abandon p).pantry = s.pantry ∧ (s.abandon p).larder = s.larder ∧ (s.abandon p).cellar = s.cellar := by
  obtain ⟨c, e⟩ := forCores_data s p CoreSt.endAttempt
  unfold State.abandon
  rw [e]
  exact ⟨rfl, rfl, rfl⟩

/-- The stop of a partition touches no byte of memory. -/
theorem stopPart_data (s : State) (p status : Nat) :
    (s.stopPart p status).pantry = s.pantry ∧ (s.stopPart p status).larder = s.larder ∧ (s.stopPart p status).cellar = s.cellar := by
  unfold State.stopPart
  split
  · exact ⟨rfl, rfl, rfl⟩
  · obtain ⟨a, b, c⟩ := abandon_data s p
    dsimp only
    split
    · next k _ =>
      obtain ⟨a', b', c', -⟩ := endReq_data (s.abandon p) k status
      exact ⟨a'.trans a, b'.trans b, c'.trans c⟩
    · exact ⟨a, b, c⟩

end Sys2Proof.Machine
end

