-- ==== Sys2Proof/Laws/Slots.lean ====
section
/-! SUPPORT. Laws of the bundle slots: what completing a slot does to a core, what a lane operation answers, and what the control
slot holds. -/

namespace Sys2Proof.Machine
open Sys2Proof

/-- A vector slot that writes register `vd` and completes sets its 64 lanes and nothing else but the core's place. -/
theorem slotDone_lanes (s : State) (p c vd : Nat) (f : Nat → Word) (h : s.canon = true) :
    s.LanesSet ((s.modCore c (fun x => x.setVr vd f)).slotDone p c 1) c vd f := by
  have hc := canon_cores s h
  have hv := canon_vr s c h
  obtain ⟨h1, h2, h3⟩ := slotDone_frame (s.modCore c (fun x => x.setVr vd f)) p c 1 (keysRise_modCore _ _ _ hc)
  rw [core_modCore_same _ _ _ hc] at h2
  generalize ((s.modCore c (fun x => x.setVr vd f)).slotDone p c 1) = t at *
  have hvr : (t.core c).vr = ((s.core c).setVr vd f).vr := by rw [h2]
  refine ⟨OnlyCore_trans (OnlyCore_modCore _ _ _) h1, ?_, ?_, ?_⟩
  · intro l hl; unfold CoreSt.lane; rw [hvr]; exact lane_setVr_same _ _ _ _ hv hl
  · intro r l hl hr; unfold CoreSt.lane; rw [hvr]; exact lane_setVr_other _ _ _ _ _ hl hr
  · unfold CoreSt.SamePlace at *; rw [h2]; rfl

/-- All that the shared form of the lane operations does with a slot of its operation. -/
theorem opLanes_next (vop core p : Nat) (v : VSlot) (f : VSlot → CoreSt → Nat → Word) (s : State) (hc : core < 12288)
    (h : s.canon = true) (hv : s.vecSlot core vop = some (p, v)) :
    ∃ t, opLanes vop core f s = .next t ∧ s.LanesSet t core v.vd (f v (s.core core)) := by
  refine ⟨_, by unfold opLanes; rw [if_pos hc, hv], ?_⟩
  exact slotDone_lanes s p core v.vd (f v (s.core core)) h

/-- The word of the control slot of operation `op` that a core stands at. -/
theorem ctlSlot_word (s : State) (c op p w : Nat) (h : s.ctlSlot c op = some (p, w)) :
    w = slotWord (s.bundle p c) 4 ∧ w % 16 = op := by
  unfold State.ctlSlot State.atSlot at h
  split at h
  · rename_i q hq
    split at hq
    · cases hq
    · dsimp only at hq
      split at hq
      · cases hq
        split at h
        · cases h; exact ⟨rfl, by assumption⟩
        · cases h
      · cases hq
  · cases h

end Sys2Proof.Machine
end

