-- ==== Sys2Proof/Tests/Slice0.lean ====
section
/-! SUPPORT. Tests of the model: ill-formed commands, results the spec's rules give for fixed values, and for each
statement concrete states that meet its hypotheses. -/

open Sys2Proof Sys2Proof.Machine

set_option Elab.async false

/-! ## Well-formedness -/

/-- Each check of well-formedness refuses a term just beyond its range, part 1. -/
theorem test_illFormed_refused_1 :
    ([.arraySlotIssue 12288 0 none, .arraySlotIssue 0 2 none, .mac 12288 0 [], .mac 0 2 [], .mac3 12288 0 [],
      .mac3 0 2 [], .minplus 12288 0, .minplus 0 2, .maxplus 12288 0, .maxplus 0 2, .l1 12288 0, .l1 0 2,
      .l2sq 12288 0, .l2sq 0 2, .cmpcount 12288 0, .cmpcount 0 2, .ham 12288 0, .ham 0 2, .arrayDrain 12288 0 0,
      .arrayDrain 0 2 0, .arrayDrain 0 0 5, .shadowWriteoutDone 12288 0, .shadowWriteoutDone 0 2, .vld 12288 none,
      .vst 12288, .vadd 12288, .vsub 12288, .vmul 12288, .vfma 12288, .vmin 12288, .vmax 12288, .vabs 12288] : List Instr).all (fun i => !i.wf) = true := by decide

/-- Each check of well-formedness refuses a term just beyond its range, part 2. -/
theorem test_illFormed_refused_2 :
    ([.vneg 12288, .vcmp 12288, .vsel 12288, .vexp2 12288, .vlog2 12288, .vrcp 12288, .vrsqrt 12288, .vrsum 12288,
      .vrmax 12288, .vbcast 12288, .vlds 12288 none, .vlda 12288 none, .vsts 12288, .vstr 12288,
      .scalarLoadReturn 12288 0, .scalarLoadReturn 0 32, .quant 12288, .dequant 12288, .wstore 12288, .aadd 12288,
      .fadd 12288, .smin 12288, .smax 12288, .umin 12288, .umax 12288, .fmin 12288, .fmax 12288, .cas 12288,
      .fenceSt 12288, .fenceFull 12288, .fenceFabric 12288, .fabricFenceProbe 12288 0] : List Instr).all (fun i => !i.wf) = true := by decide

/-- Each check of well-formedness refuses a term just beyond its range, part 3. -/
theorem test_illFormed_refused_3 :
    ([.barrier 12288, .barrierComplete 512 0, .barrierComplete 0 256, .safepoint 12288 0 0, .knock 12288,
      .knockHoldEnd 100 (0, 0), .phase 12288, .loop 12288, .waitv 12288 none 0, .endStep 12288 none, .copyLinear 12288,
      .copyStrided 12288, .copyGather 12288, .copyScatter 12288, .copyTable 12288, .copyReduce 12288, .copyWait 12288,
      .copyUnitMove 12288 0 0 [] none (0, 0) 0, .copyUnitMove 0 48 0 [] none (0, 0) 0, .copyComplete 12288 0,
      .copyComplete 0 48, .hallSlotFrameBoundary 375, .hallLinkRetrainEnd 100 0 false 0,
      .hallLinkRetrainEnd 0 4 false 0, .cellarAccess 96 none 0, .cellarMr4Poll 192 0 0 0, .cellarMr4Poll 0 32 0 0,
      .cellarMr4Poll 0 0 4 0, .attemptStart 512 0, .attemptClose 512 0, .finalVote 512 0, .quiesceDone 512] : List Instr).all (fun i => !i.wf) = true := by decide

/-- Each check of well-formedness refuses a term just beyond its range, part 4. -/
theorem test_illFormed_refused_4 :
    ([.migrationDone (512, false), .currierOrtho 512 0 [], .kronStats 512 0 [], .kronRoot 512 0 [], .kronApply 512 0 [],
      .gradcheck 512 0, .pack 512 0, .unpack 512 0, .unpackChunkDecode 512 0, .currierJobDone 512 0,
      .xgMessageReceive 512 0, .exchangeStallTimeout 512 0, .brdlRead 97 none 0, .brdlWrite 97 (none, 0), .brdlFence 97 0,
      .brdlExchange 97 0, .atomicAdd 97 (none, 0), .atomicMin 97 (none, 0), .atomicMax 97 (none, 0), .atomicCas 97 (none, 0), .ownReq 97 0,
      .ownGrant 97 0, .ownRelease 97 0, .ptp 97 0 0, .ptp 0 17 0, .readRsp 97 0, .writeAck 97 0, .fenceRsp 97 0,
      .exchangeAck 97 0, .atomicRsp 97 0, .ownAck 97 0, .grantAck 97 0] : List Instr).all (fun i => !i.wf) = true := by decide

/-- Each check of well-formedness refuses a term just beyond its range, part 5. -/
theorem test_illFormed_refused_5 :
    ([.releaseAck 97 0, .txnHeldRetry 65536 0, .txnAttemptTimeout 65536 0, .txnLifetimeExpiry 65536 0,
      .linkPacketReceive 96 [] 0 0, .linkAck 96 [] 0, .linkNak 96 [] 0, .linkCredit 96 [] 0, .linkAckDelayExpiry 96 0,
      .linkReplayTimeout 96 0, .linkRetrainComplete 96 0 0, .linkRetrainComplete 0 4096 0, .linkDown 96 0,
      .portLinkUp 96 0 0 0, .ringDoorbell 513 0 0, .ringDoorbell 0 128 0, .ringDoorbell 0 0 65536,
      .descriptorFetch 513 0 [] 0, .descriptorFetch 0 128 [] 0, .arbiterDecision 2 0, .arbiterDecision 0 1024,
      .loadHarness 512 0 [] [] 0, .loadHarness 0 128 [] [] 0, .runSteps 512 0 0, .runSteps 0 128 0,
      .hostCopy 512 0 ([], none) 0, .hostCopy 0 128 ([], none) 0, .snapshot 512 0 [] 0, .snapshot 0 128 [] 0, .snapshotDone 512 0,
      .checkpoint 512 0 [] 0, .checkpoint 0 128 [] 0] : List Instr).all (fun i => !i.wf) = true := by decide

/-- Each check of well-formedness refuses a term just beyond its range, part 6. -/
theorem test_illFormed_refused_6 :
    ([.restore 512 0 [] [] 0, .restore 0 128 [] [] 0, .replay 512 0 [] [] 0, .replay 0 128 [] [] 0,
      .queryStatus 513 0 0, .queryStatus 0 128 0, .queryTime 513 0 0, .queryTime 0 128 0, .hostFence 513 0 0,
      .hostFence 0 128 0, .completionRecordWrite 513 0 0, .completionRecordWrite 0 128 0, .functionLevelReset 514 0,
      .perstN 2 0 0, .partCreate 512 0, .partDestroy 512 0, .partMove 512 0, .partZeroised 512 0,
      .busbarChange (2 ^ 16) 0 0, .busbarChange 0 (2 ^ 16) 0, .porchConverterFail 8 0, .roomConverterFail 100 0,
      .roomOvercurrent 100 0 0, .roomOvercurrent 0 (2 ^ 16) 0, .droopStretchStart 100 0 0, .droopStretchStart 0 1024 0,
      .droopStretchEnd 100 0 0 0, .droopStretchEnd 0 1024 0 0, .headerStageEnd 100 0 (0, []) 0,
      .headerStageEnd 0 0 ((2 ^ 16), []) 0, .headerStageEnd 0 0 (0, [100]) 0, .inrushFaultClear 100 0, .headerStageHoldEnd 100 0] : List Instr).all (fun i => !i.wf) = true := by decide

/-- Each check of well-formedness refuses a term just beyond its range, part 7. -/
theorem test_illFormed_refused_7 :
    ([.refclkLoss 2 0, .refclkReturn 2 0, .roomRefLoss 100 0, .holdoverCap 100 0, .roomStopped 100 0,
      .clockSwitchDone 100 0, .voltageRampDone 100 0, .thermalCeilingRaise 100 0, .fanFail 8 0 0,
      .fanFail 0 (2 ^ 16) 0, .ledgerResend (2 ^ 18), .timeSetYmdWrite (2 ^ 32), .timeSetHmsWrite (2 ^ 32),
      .timeSetNsWrite (2 ^ 32), .fwAbiSelWrite (2 ^ 32), .mctpMessage 128 0 0 0, .hallSharedWrite (2 ^ 32),
      .hallSlotWrite 375 0 0, .hallSlotWrite 0 64 0, .hallSlotWrite 0 0 (2 ^ 32), .brdlPartAllotWrite 512 0,
      .brdlPartAllotWrite 0 (2 ^ 32), .brdlRegionValidWrite 1024 0, .brdlRegionValidWrite 0 (2 ^ 32),
      .eccOnWrite 512 0, .eccOnWrite 0 (2 ^ 32), .ringAllotWrite 513 0, .ringAllotWrite 0 (2 ^ 32),
      .ringCtxEnable 513 0 0, .ringCtxEnable 0 128 0, .ringCtxEnable 0 0 (2 ^ 32), .ringEvtEnable 514 0] : List Instr).all (fun i => !i.wf) = true := by decide

/-- Each check of well-formedness refuses a term just beyond its range, part 8. -/
theorem test_illFormed_refused_8 :
    ([.ringEvtEnable 0 (2 ^ 32), .reinOpCapWrite (2 ^ 32), .reinFacTargetWrite (2 ^ 32), .reinShedLevelWrite (2 ^ 32),
      .journalFloorWrite 512 0, .journalFloorWrite 0 (2 ^ 64), .portDisable 96 0, .portEnable 96 0 0 0,
      .roomRefLock 100 0 0, .roomRefLock 0 4 0, .cableSupplyOverload 24 0, .fanOk 8 0 0, .fanOk 0 (2 ^ 16) 0,
      .hostWindowTimeout 0 12288 0 0, .hostWindowTimeout 0 0 48 0, .hostWindowTimeout 2 512 0 0,
      .hostWindowTimeout 2 0 128 0, .hostWindowTimeout 3 0 0 0, .porchSlotWrite 0 0 0 (2 ^ 32),
      .porchSlotWrite 0 1 0 0, .porchSlotWrite 0 0 512 0, .porchSlotWrite 1 2 0 0, .porchSlotWrite 1 0 512 0,
      .porchSlotWrite 2 96 0 0, .porchSlotWrite 2 0 64 0, .porchSlotWrite 3 0 0 0, .retainAutoWake (some 97) 0 0 0 0,
      .retainAutoWake none 513 0 0 0, .retainAutoWake none 0 128 0 0, .thermtrip (some 100) 0,
      .neighbourTempSkew 100 0 90 0 0, .neighbourTempSkew 90 0 100 0 0] : List Instr).all (fun i => !i.wf) = true := by decide

/-- Each check of well-formedness refuses a term just beyond its range, part 9. -/
theorem test_illFormed_refused_9 :
    ([.neighbourTempSkew 0 128 1 0 0, .neighbourTempSkew 0 0 1 128 0, .neighbourTempSkew 0 0 11 0 0,
      .reinDecision ([(100, 0, false, 0)], []) 0 0, .reinDecision ([], [(100, 0, 0, [])]) 0 0, .roomFullCheck 100 0 [] 0, .roomFullCheck 0 0 [36] 0,
      .inrushShortDetect 100 0 [] 0, .inrushShortDetect 0 65536 [] 0, .inrushShortDetect 0 0 [100] 0,
      .operatorRoomRebringup 96 {} 0, .operatorRoomRebringup 0 { busA := 65536 } 0,
      .glbReqReadyIdle { badTiles := [(0, 36)] } 0, .coldBringup { busB := 65536 } 0,
      .coldBringup { badTiles := [(100, 0)] } 0, .coldBringup { badCells := [96] } 0,
      .coldBringup { badLinks := [(100, 0)] } 0, .coldBringup { badLinks := [(0, 100)] } 0,
      .coldBringup { ports := [(96, 0, 0)] } 0, .coldBringup { addrSel := 4 } 0, .cfgLockWrite 0x20 375 0,
      .cfgLockWrite 0x20 0 (2 ^ 32), .softReset 0x99 0, .freezeWrite 0x11 100 true 0, .loRegisterRead 514 0 4 0,
      .loRegisterRead 0 (2 ^ 40) 4 0, .loRegisterRead 0 0 3 0, .registerWrite 514 0 4 0 {} 0,
      .registerWrite 0 (2 ^ 40) 4 0 {} 0, .registerWrite 0 0 3 0 {} 0,
      .registerWrite 0 0 4 0 { out := { addrSel := 4 } } 0, .throttleEnd 11 0 0, .throttleEnd 0 100 0] : List Instr).all (fun i => !i.wf) = true := by decide

/-- Each check of well-formedness refuses a term just beyond its range, part 10. -/
theorem test_illFormed_refused_10 :
    ([.pcieLinkChange 2 0 0 0 0, .pcieLinkChange 0 7 1 0 0, .pcieLinkChange 0 1 17 0 0, .pcieLinkChange 0 1 1 2 0,
      .pcieLinkChange 0 1 0 0 0, .phaseFail 100 0 1 0, .phaseFail 0 12 1 0, .phaseFail 0 0 0 0, .phaseFail 0 0 5 0] : List Instr).all (fun i => !i.wf) = true := by decide

/-- Well-formed terms at the ends of their ranges, part 1. -/
theorem test_wellFormed_accepted_1 :
    ([.arraySlotIssue 12287 1 none, .mac 12287 1 [], .mac3 12287 1 [], .minplus 12287 1, .maxplus 12287 1, .l1 12287 1,
      .l2sq 12287 1, .cmpcount 12287 1, .ham 12287 1, .arrayDrain 12287 1 4, .shadowWriteoutDone 12287 1,
      .vld 12287 none, .vst 12287, .vadd 12287, .vsub 12287, .vmul 12287, .vfma 12287, .vmin 12287, .vmax 12287,
      .vabs 12287, .vneg 12287, .vcmp 12287, .vsel 12287, .vexp2 12287, .vlog2 12287, .vrcp 12287, .vrsqrt 12287,
      .vrsum 12287, .vrmax 12287, .vbcast 12287, .vlds 12287 none, .vlda 12287 none] : List Instr).all (fun i => i.wf) = true := by decide

/-- Well-formed terms at the ends of their ranges, part 2. -/
theorem test_wellFormed_accepted_2 :
    ([.vsts 12287, .vstr 12287, .scalarLoadReturn 12287 31, .quant 12287, .dequant 12287, .wstore 12287, .aadd 12287,
      .fadd 12287, .smin 12287, .smax 12287, .umin 12287, .umax 12287, .fmin 12287, .fmax 12287, .cas 12287,
      .fenceSt 12287, .fenceFull 12287, .fenceFabric 12287, .fabricFenceProbe 12287 0, .barrier 12287,
      .barrierComplete 511 255, .safepoint 12287 0 0, .knock 12287, .knockHoldEnd 99 (0, 0), .phase 12287, .loop 12287,
      .waitv 12287 none 0, .endStep 12287 none, .copyLinear 12287, .copyStrided 12287, .copyGather 12287,
      .copyScatter 12287] : List Instr).all (fun i => i.wf) = true := by decide

/-- Well-formed terms at the ends of their ranges, part 3. -/
theorem test_wellFormed_accepted_3 :
    ([.copyTable 12287, .copyReduce 12287, .copyWait 12287, .copyUnitMove 12287 47 0 [] none (0, 0) 0,
      .copyComplete 12287 47, .hallSlotFrameBoundary 374, .hallLinkRetrainEnd 99 3 false 0, .cellarAccess 95 none 0,
      .cellarMr4Poll 191 31 3 0, .attemptStart 511 0, .attemptClose 511 0, .finalVote 511 0, .quiesceDone 511,
      .migrationDone (511, false), .currierOrtho 511 0 [], .kronStats 511 0 [], .kronRoot 511 0 [], .kronApply 511 0 [],
      .gradcheck 511 0, .pack 511 0, .unpack 511 0, .unpackChunkDecode 511 0, .currierJobDone 511 0,
      .xgMessageReceive 511 0, .exchangeStallTimeout 511 0, .brdlRead 96 none 0, .brdlWrite 96 (none, 0), .brdlFence 96 0,
      .brdlExchange 96 0, .atomicAdd 96 (none, 0), .atomicMin 96 (none, 0), .atomicMax 96 (none, 0)] : List Instr).all (fun i => i.wf) = true := by decide

/-- Well-formed terms at the ends of their ranges, part 4. -/
theorem test_wellFormed_accepted_4 :
    ([.atomicCas 96 (none, 0), .ownReq 96 0, .ownGrant 96 0, .ownRelease 96 0, .ptp 96 16 0, .readRsp 96 0, .writeAck 96 0,
      .fenceRsp 96 0, .exchangeAck 96 0, .atomicRsp 96 0, .ownAck 96 0, .grantAck 96 0, .releaseAck 96 0,
      .txnHeldRetry 65535 0, .txnAttemptTimeout 65535 0, .txnLifetimeExpiry 65535 0, .linkPacketReceive 95 [] 0 0,
      .linkAck 95 [] 0, .linkNak 95 [] 0, .linkCredit 95 [] 0, .linkAckDelayExpiry 95 0, .linkReplayTimeout 95 0,
      .linkRetrainComplete 95 4095 0, .linkDown 95 0, .portLinkUp 95 0 0 0, .ringDoorbell 512 127 65535,
      .descriptorFetch 512 127 [] 0, .arbiterDecision 1 1023, .loadHarness 511 127 [] [] 0, .runSteps 511 127 0,
      .hostCopy 511 127 ([], none) 0, .snapshot 511 127 [] 0] : List Instr).all (fun i => i.wf) = true := by decide

/-- Well-formed terms at the ends of their ranges, part 5. -/
theorem test_wellFormed_accepted_5 :
    ([.snapshotDone 511 0, .checkpoint 511 127 [] 0, .restore 511 127 [] [] 0, .replay 511 127 [] [] 0,
      .queryStatus 512 127 0, .queryTime 512 127 0, .hostFence 512 127 0, .completionRecordWrite 512 127 0,
      .functionLevelReset 513 0, .perstN 1 0 0, .partCreate 511 0, .partDestroy 511 0, .partMove 511 0,
      .partZeroised 511 0, .busbarChange 65535 65535 0, .porchConverterFail 7 0, .roomConverterFail 99 0,
      .roomOvercurrent 99 65535 0, .droopStretchStart 99 1023 0, .droopStretchEnd 99 1023 0 0,
      .headerStageEnd 99 0 (65535, [99]) 0, .inrushFaultClear 99 0, .headerStageHoldEnd 99 0, .refclkLoss 1 0,
      .refclkReturn 1 0, .roomRefLoss 99 0, .holdoverCap 99 0, .roomStopped 99 0, .clockSwitchDone 99 0,
      .voltageRampDone 99 0, .thermalCeilingRaise 99 0, .fanFail 7 65535 0] : List Instr).all (fun i => i.wf) = true := by decide

/-- Well-formed terms at the ends of their ranges, part 6. -/
theorem test_wellFormed_accepted_6 :
    ([.ledgerResend 262143, .timeSetYmdWrite 4294967295, .timeSetHmsWrite 4294967295, .timeSetNsWrite 4294967295,
      .fwAbiSelWrite 4294967295, .mctpMessage 127 0 0 0, .hallSharedWrite 4294967295, .hallSlotWrite 374 63 4294967295,
      .brdlPartAllotWrite 511 4294967295, .brdlRegionValidWrite 1023 4294967295, .eccOnWrite 511 4294967295,
      .ringAllotWrite 512 4294967295, .ringCtxEnable 512 127 4294967295, .ringEvtEnable 513 4294967295,
      .reinOpCapWrite 4294967295, .reinFacTargetWrite 4294967295, .reinShedLevelWrite 4294967295,
      .journalFloorWrite 511 18446744073709551615, .portDisable 95 0, .portEnable 95 0 0 0, .roomRefLock 99 3 0,
      .cableSupplyOverload 23 0, .fanOk 7 65535 0, .hostWindowTimeout 0 12287 47 0, .hostWindowTimeout 1 99999 0 0,
      .hostWindowTimeout 2 511 127 0, .porchSlotWrite 0 0 511 (2 ^ 32 - 1), .porchSlotWrite 1 1 511 0,
      .porchSlotWrite 2 95 63 0, .retainAutoWake (some 96) 512 127 0 0, .retainAutoWake none 512 127 0 0,
      .thermtrip (some 99) 0] : List Instr).all (fun i => i.wf) = true := by decide

/-- Well-formed terms at the ends of their ranges, part 7. -/
theorem test_wellFormed_accepted_7 :
    ([.thermtrip none 0, .neighbourTempSkew 98 127 99 127 0, .neighbourTempSkew 89 0 99 0 0,
      .reinDecision ([(99, 0, false, 0)], [(99, 1023, 65535, [255])]) 0 0, .roomFullCheck 99 0 [35] 0, .inrushShortDetect 99 65535 [99] 0,
      .operatorRoomRebringup 95 {} 0,
      .coldBringup { busA := 65535, busB := 65535, badTiles := [(99, 35)], badCells := [95], badLinks := [(98, 99)], ports := [(95, 1, 1)], addrSel := 3 } 0,
      .cfgLockWrite 0x20 374 (2 ^ 32 - 1), .softReset 0x20 374, .freezeWrite 0x11 99 true 0, .loRegisterRead 513 0 8 0,
      .registerWrite 513 0 1 0 {} 0, .throttleEnd 10 99 0, .throttleEnd 10 127 0, .pcieLinkChange 1 6 16 1 0,
      .pcieLinkChange 0 0 0 0 0, .phaseFail 99 11 4 0, .phaseFail 0 0 1 0, .flitForward 99999 (none, 63), .shedAssert 0] : List Instr).all (fun i => i.wf) = true := by decide

/-- A command that is not well-formed is refused, in any state. -/
theorem test_refusal (s : State) : exec (.vadd 12288) s = .refused .illFormed := by rfl

/-! ## Small states -/

/-- Partition 511 in the middle of an attempt on tile 3071, each of whose cores has its program at pantry offset 4096 and its
records at 8192. -/
def tPart : PartSt :=
  { pstate := .live, tiles := [3071], key := 1, running := true
    harn := some { progs := List.replicate 4 { instrBase := 4096, instrLen := 64, recBase := 8192, recLen := 1024 }
                   localPages := 16, barriers := [[3]] } }

/-- Core 12287 of that partition in state `x`, at a bundle of the five slot words (array A, array B, vector, copy, control) and
with `recs` in its record region. -/
def tCore (x : CoreSt) (a b v c k : Nat) (recs : Bytes := []) : State :=
  { parts := [(511, tPart)], cores := [(12287, x)]
    pantry := memWrite (memWrite [] (pantryKey 12287 4096) (leBytes 4 a ++ leBytes 4 b ++ leBytes 8 v ++ leBytes 8 c ++ leBytes 8 k))
      (pantryKey 12287 8192) recs }

/-- A vector slot word of R143. -/
def tV (op vd va vb vc fmt rnd imm : Nat) : Nat :=
  op + 2 ^ 8 * vd + 2 ^ 13 * va + 2 ^ 18 * vb + 2 ^ 23 * vc + 2 ^ 28 * fmt + 2 ^ 32 * rnd + 2 ^ 35 * imm

/-- A core whose vector lanes are `vr`, with a vector slot. -/
def tVec (vr : Table Word) (v : Nat) (recs : Bytes := []) : State := tCore { vr := vr } 0 0 v 0 0 recs

/-- Lane `l` of register `r` after the command, where it answers a next state. -/
def laneAfter (c : Instr) (s : State) (r l : Nat) : Option Word :=
  match exec c s with
  | .next t => some ((t.core 12287).lane r l)
  | _ => none

/-- A property of the state a command answers. -/
def after (c : Instr) (s : State) (f : State → Bool) : Bool :=
  match exec c s with
  | .next t => f t
  | _ => false

/-- A wide descriptor of R98: format, TENSOR_ID 0, rows, columns, base, base of the LO plane. -/
def tWide (fmt rows cols base lo : Nat) : Bytes :=
  leBytes 4 fmt ++ leBytes 4 0 ++ leBytes 4 rows ++ leBytes 4 cols ++ leBytes 8 base ++ leBytes 8 lo ++ leBytes 16 0

/-- A narrow descriptor of R44 without rivets: format, K_TAIL, rows, blocks of a row, and the element and scale planes. -/
def tNarrow (fmt ktail rows kb e sc : Nat) : Bytes :=
  leBytes 2 fmt ++ leBytes 2 ktail ++ leBytes 4 0 ++ leBytes 4 rows ++ leBytes 4 kb ++ leBytes 8 e ++ leBytes 8 sc ++ leBytes 16 0

/-- `s` with a descriptor table at the start of the partition's larder. -/
def withDescs (s : State) (ds : List Bytes) : State := { s with larder := memWrite s.larder (larderKey 3071 0) ds.flatten }

/-- An answer that is no error. -/
def isOk {ε α : Type} (x : Except ε α) : Bool :=
  match x with
  | .ok _ => true
  | .error _ => false

/-- A state with one flit in the hallway. -/
def tHall (f : Flit) : State := { parts := [(511, tPart)], hall := { flits := [f], nextId := 8 } }

/-- A state whose port 95 is up, with link layer `x`. -/
def tPort (x : BPort) : State := ({ brdl := { ports := [(95, x)], ready := true } } : State).setFld F.BRDL_PORT_STAT_STATE 95 0 2

/-- Several fields set, each with its page, its element and its value. -/
def tSet (s : State) (fs : List (Fld × Nat × Nat × Nat)) : State := fs.foldl (fun s f => s.setFld f.1 f.2.1 f.2.2.1 f.2.2.2) s

/-- Partition 511 between steps, with its rings 126 (commands) and 127 (completions) of 16 entries enabled, both links up, a host
window of a page, the device ready, and `q` the request in progress on ring 126. -/
def tRing (q : Option Req) (x : PartSt := { tPart with running := false }) : State :=
  tSet { parts := [(511, x)], host := { rings := [(ringKey 511 126, { req := q })] } }
    [(F.TACK_PART_RINGS_ALLOT, 511, 0, 128), (F.RING_CTX_CFG_LOG2, 2047, 30, 4), (F.RING_CTX_CFG_LOG2, 2047, 31, 4),
      (F.RING_CTX_CFG_TYPE, 2047, 31, 1), (F.RING_CTX_CFG_EN, 2047, 30, 1), (F.RING_CTX_CFG_EN, 2047, 31, 1),
      (F.PCIE_LINK_STAT_RATE, 1, 0, 5), (F.TACK_BRINGUP_READY, 0, 0, 1), (F.TACK_PART_HWIN_LEN_PAGES, 511, 0, 1), (F.HALL_CFG_SHARED, 0, 0, 0)]

/-! ## The vector unit -/

/-- Registers 1, 2 and 3 hold 1.5, -2.25 and 0.5 in lane 5, and register 31 the lanes' numbers at both ends. -/
def tRegs : Table Word :=
  [(1 * 64 + 5, 0x3FC00000), (2 * 64 + 5, 0xC0100000), (3 * 64 + 5, 0x3F000000), (31 * 64, 0x3F800000), (31 * 64 + 63, 0x40000000)]

/-- R144: each lane-wise operation on lane 5, worked by hand, into the last register. -/
theorem test_vector_lanes :
    laneAfter (.vadd 12287) (tVec tRegs (tV 0x03 31 1 2 0 0 0 0)) 31 5 = some 0xBF400000 ∧
    laneAfter (.vsub 12287) (tVec tRegs (tV 0x04 31 1 2 0 0 0 0)) 31 5 = some 0x40700000 ∧
    laneAfter (.vmul 12287) (tVec tRegs (tV 0x05 31 1 2 0 0 0 0)) 31 5 = some 0xC0580000 ∧
    laneAfter (.vfma 12287) (tVec tRegs (tV 0x06 31 1 2 3 0 0 0)) 31 5 = some 0xC0380000 ∧
    laneAfter (.vmin 12287) (tVec tRegs (tV 0x07 31 1 2 0 0 0 0)) 31 5 = some 0xC0100000 ∧
    laneAfter (.vmax 12287) (tVec tRegs (tV 0x08 31 1 2 0 0 0 0)) 31 5 = some 0x3FC00000 := by decide +kernel

theorem test_vector_one_operand :
    laneAfter (.vabs 12287) (tVec tRegs (tV 0x09 31 2 0 0 0 0 0)) 31 5 = some 0x40100000 ∧
    laneAfter (.vneg 12287) (tVec tRegs (tV 0x0A 31 1 0 0 0 0 0)) 31 5 = some 0xBFC00000 ∧
    laneAfter (.vcmp 12287) (tVec tRegs (tV 0x0B 31 1 2 0 0 0 1)) 31 5 = some 0x3F800000 ∧
    laneAfter (.vsel 12287) (tVec tRegs (tV 0x0C 31 1 2 3 0 0 0)) 31 5 = some 0x3FC00000 ∧
    laneAfter (.vsel 12287) (tVec tRegs (tV 0x0C 31 1 2 4 0 0 0)) 31 5 = some 0xC0100000 ∧
    laneAfter (.vexp2 12287) (tVec tRegs (tV 0x0D 30 31 0 0 0 0 0)) 30 63 = some 0x40800000 ∧
    laneAfter (.vlog2 12287) (tVec tRegs (tV 0x0E 30 31 0 0 0 0 0)) 30 63 = some 0x3F800000 ∧
    laneAfter (.vrcp 12287) (tVec tRegs (tV 0x0F 30 31 0 0 0 0 0)) 30 63 = some 0x3F000000 ∧
    laneAfter (.vrsqrt 12287) (tVec tRegs (tV 0x10 30 31 0 0 0 0 0)) 30 0 = some 0x3F800000 := by decide +kernel

/-- R144: 1 + 2 over the 64 lanes, their greatest, and lane 63 for every lane. -/
theorem test_vector_across :
    laneAfter (.vrsum 12287) (tVec tRegs (tV 0x11 0 31 0 0 0 0 0)) 0 17 = some 0x40400000 ∧
    laneAfter (.vrmax 12287) (tVec tRegs (tV 0x12 0 31 0 0 0 0 0)) 0 17 = some 0x40000000 ∧
    laneAfter (.vbcast 12287) (tVec tRegs (tV 0x13 0 31 0 0 0 0 63)) 0 17 = some 0x40000000 := by decide +kernel

/-- Every operation of the vector unit stands at a core's slot in some canonical state. -/
theorem witness_VectorArithmetic :
    [0x03, 0x04, 0x05, 0x06, 0x07, 0x08, 0x09, 0x0A, 0x0B, 0x0C, 0x0D, 0x0E, 0x0F, 0x10, 0x11, 0x12, 0x13].all (fun op =>
      let s := tVec tRegs (tV op 31 1 2 3 0 0 0)
      s.canon && s.vecSlot 12287 op == some (511, ⟨op, 31, 1, 2, 3, 0, 0, 0⟩)) = true := by decide +kernel

/-- A load and a store of 64 elements that end with the pantry (FP32), and of FP16 ones. -/
theorem witness_VectorLoadStore :
    [(0, 2 ^ 21 - 256), (1, 0), (2, 0)].all (fun q =>
      let s := fun op => tVec tRegs (tV op 31 1 0 0 q.1 0 q.2)
      [1, 2].all (fun op => (s op).canon && (s op).vecSlot 12287 op == some (511, ⟨op, 31, 1, 0, 0, q.1, 0, q.2⟩)) &&
      decide (q.2 + 64 * wideBytes q.1 ≤ 2 ^ 21) && (s 1).mayRead 511 12287 ((s 1).nowSq 12287) [(q.2, 64 * wideBytes q.1)] &&
      ((s 1).core 12287).loadOk && !markRead (s 1).pantryMark 32 (pantryKey 12287 q.2) (64 * wideBytes q.1) &&
      (s 2).mayWrite 511 12287 ((s 2).nowSq 12287) [(q.2, 64 * wideBytes q.1)] && ((s 2).core 12287).storeOk &&
      !((s 2).part 511).inProgram 12287 q.2 (64 * wideBytes q.1)) = true := by decide +kernel

/-- R144: VST of 1.5 as BF16 stores its upper half; VLD of it gives 1.5 back. -/
theorem test_vector_store_load :
    after (.vst 12287) (tVec tRegs (tV 0x02 0 1 0 0 1 0 0)) (fun t => memRead t.pantry (pantryKey 12287 10) 2 == [0xC0, 0x3F] &&
      memRead t.pantry (pantryKey 12287 128) 1 == [0]) = true ∧
    laneAfter (.vld 12287 none) { tVec tRegs (tV 0x01 7 0 0 0 1 0 0) with
      pantry := memWrite (tVec tRegs (tV 0x01 7 0 0 0 1 0 0)).pantry (pantryKey 12287 10) [0xC0, 0x3F] } 7 5 = some 0x3FC00000 := by
  decide +kernel

/-- A record of R146 with operand descriptors `src` and `dst`, row 0, one block (or element) from 0. -/
def tRec (rop src dst : Nat) : Bytes :=
  leBytes 2 rop ++ leBytes 2 src ++ leBytes 4 dst ++ leBytes 4 0 ++ leBytes 4 0 ++ leBytes 4 1 ++ leBytes 4 0 ++ leBytes 8 0

/-- A core at a VREC, with an FP32 row of 32 elements and a narrow row of one block. -/
def tVrec (rop src dst : Nat) : State :=
  withDescs (tVec [] (tV 0x18 0 0 0 0 0 0 0) (tRec rop src dst)) [tWide 0 1 32 16384 0, tNarrow 9 32 1 1 20480 24576, tWide 1 1 32 28672 0]

/-- Each record operation with operands it runs on, and with a pair of formats it refuses with FORMAT_FAULT. -/
theorem witness_VectorRecords :
    [(1, 0, 1), (2, 1, 0), (3, 0, 2)].all (fun q =>
      let s := tVrec q.1 q.2.1 q.2.2
      let r := s.vecRecord 511 12287 0
      s.canon && s.vecSlot 12287 0x18 == some (511, ⟨0x18, 0, 0, 0, 0, 0, 0, 0⟩) && r.rop == q.1 &&
      ((s.core 12287).storeOk && match s.vrecOperands 511 r with
        | .ok (a, b) => s.mayRead 511 12287 (s.nowSq 12287) (a.ranges r.row 1 (r.span a.k).1 (r.span a.k).2) &&
          s.mayWrite 511 12287 (s.nowSq 12287) (b.ranges r.row 1 (r.span a.k).1 (r.span a.k).2) &&
          (match a, b with
            | .wide x, .narrow n => isOk (s.runQuant 511 12287 r x n)
            | .narrow m, .wide y => isOk (s.runDequant 511 12287 r m y)
            | .wide x, .wide y => isOk (s.runWstore 511 12287 r x y)
            | .narrow _, .narrow _ => false)
        | .error _ => false)) = true ∧
    [1, 2, 3].all (fun rop =>
      let s := tVrec rop 1 1
      (s.part 511).pstate == .live && (s.part 511).stopped == none && s.vecSlot 12287 0x18 == some (511, ⟨0x18, 0, 0, 0, 0, 0, 0, 0⟩) &&
      (match s.vrecOperands 511 (s.vecRecord 511 12287 0) with
        | .error st => st == St.FORMAT_FAULT
        | .ok _ => false)) = true := by decide +kernel

/-- R146: WSTORE rounds the FP32 value 1 + 2^-8 to the BF16 value 1 (nearest, ties to even). -/
theorem test_wstore : after (.wstore 12287)
    (let s := tVrec 3 0 2
     { s with pantry := memWrite s.pantry (pantryKey 12287 16384) [0x00, 0x80, 0x80, 0x3F] })
    (fun t => memRead t.pantry (pantryKey 12287 28672) 2 == [0x80, 0x3F]) = true := by decide +kernel

/-! ## Scalar accesses and the control slot -/

/-- Register 1 holds an address in lanes 0-1 and a word to compare with in lanes 2-3; register 2 holds 5 in lane 0. -/
def tAddr (space off want : Nat) : Table Word :=
  [(64, BitVec.ofNat 32 off), (65, BitVec.ofNat 32 (space * 2 ^ 28)), (66, BitVec.ofNat 32 want), (128, 5)]

/-- Every scalar access of the larder is granted its place, from the first word to the last 8 bytes of the interleaved region. -/
theorem witness_ScalarAccessesIssue :
    [(0, 0), (12517372, 0), (8, 1), (12517368, 1)].all (fun q =>
      [0x14, 0x15, 0x16, 0x17, 0x20, 0x21, 0x22, 0x23, 0x24, 0x25, 0x26, 0x27, 0x28].all (fun op =>
        let s := tVec (tAddr 2 q.1 0) (tV op 31 1 2 3 0 0 q.2)
        let v : VSlot := ⟨op, 31, 1, 2, 3, 0, 0, q.2⟩
        let x := s.core 12287
        let a := if op = 0x14 then loadAsked x v false else if op = 0x15 then loadAsked x v true else if op = 0x16 then storeAsked x v false
          else if op = 0x17 then storeAsked x v true else atomicAsked x v op
        s.canon && s.vecSlot 12287 op == some (511, v) && x.lane64 1 0 / 2 ^ 60 % 16 == 2 &&
          (match s.scalarLoc 511 12287 a with
            | .ok (.larder _) => true
            | _ => false))) = true := by decide +kernel

/-- A word address with its last bit set is met by every scalar load and store. -/
theorem witness_MisalignedScalarStops :
    [0x14, 0x15, 0x16, 0x17].all (fun op =>
      let s := tVec (tAddr 2 1 0) (tV op 31 1 2 0 0 0 0)
      s.canon && (s.part 511).pstate == .live && (s.part 511).stopped == none && (s.core 12287).lane64 1 0 % 4 != 0 &&
        s.vecSlot 12287 op == some (511, ⟨op, 31, 1, 2, 0, 0, 0, 0⟩)) = true := by decide +kernel

/-- A value is back for the last register, of 4 and of 8 bytes. -/
theorem witness_ScalarLoadReturns :
    [4, 8].all (fun w =>
      let l : PendLoad := { vd := 31, width := w, sq := 0, addr := 2 * 2 ^ 60, value := some (2 ^ 32 + 7) }
      let s := tCore { loads := [l] } 0 0 0 0 0
      s.canon && s.partOfCore 12287 == some 511 && (s.core 12287).loads.find? (fun m => m.vd == 31) == some l &&
        l.value == some (2 ^ 32 + 7) && l.addr / 2 ^ 60 % 16 != 4 && l.addr / 2 ^ 60 % 16 != 5) = true := by decide +kernel

/-- R147: an 8-byte load fills lanes 0 and 1. -/
theorem test_scalarLoadReturn :
    let l : PendLoad := { vd := 31, width := 8, sq := 0, addr := 2 * 2 ^ 60, value := some (2 ^ 32 + 7) }
    laneAfter (.scalarLoadReturn 12287 31) (tCore { loads := [l] } 0 0 0 0 0) 31 1 = some 1 := by decide +kernel

/-- Each fence stands at a core's control slot. -/
theorem witness_FencesOrderLater :
    [0, 1, 2].all (fun k =>
      let s := tCore { sq := 9 } 0 0 0 0 (1 + 16 * k)
      s.canon && (match s.ctlSlot 12287 1 with
        | some (511, w) => bitsOf w 5 4 == k
        | _ => false)) = true := by decide +kernel

/-- A store to node 7, unanswered for 100 µs, that a FENCE.FABRIC waits for; the charter lets a FENCE go there. -/
theorem witness_FabricFenceProbes :
    let s : State := { tCore { outs := [⟨3, false, false, true⟩], need := { fab := 4 } } 0 0 0 0 0 with
      brdl := { ready := true, txns := [{ t := { op := 2, dst := 7, tag := 1 }, for_ := .store {}, part := 511 }] } }
    let s := tSet s [(F.BRDL_CHARTER_RANGE_EN, 0, 0, 1), (F.BRDL_CHARTER_RANGE_HI, 0, 0, 7), (F.BRDL_CHARTER_OPS_WRITE, 0, 0, 1)]
    s.partOfCore 12287 = some 511 ∧
      (s.core 12287).outs.any (fun o => o.fabric && decide (o.sq < (s.core 12287).need.fab)) = true ∧ s.chartered 7 3 = true ∧
      (s.toTime 100000).fenceNodes = [7] ∧ (s.toTime 100000).mayOpen 511 7 3 = true ∧
      after (.fabricFenceProbe 12287 100000) s (fun u => u.brdl.txns.length == 2) = true := by decide +kernel

/-- A BARRIER of the last group with no fence, one with a FENCE.FULL whose accesses are complete, and one whose FENCE.ST still
waits for a store. -/
theorem witness_BarrierArrives :
    [(0, []), (2, []), (1, [⟨0, true, false, false⟩])].all (fun f =>
      let s := tCore { sq := 1, outs := f.2 } 0 0 0 0 (2 + 16 * f.1 + 256 * 255)
      s.canon && keysRise (s.core 12287).arrivals && (match s.atGate 12287 2 with
        | some (511, w) => bitsOf w 15 8 == 255 && (match barrierFence w with
          | some k => (s.core 12287).fenceDone k == (f.1 == 2)
          | none => f.1 == 0)
        | _ => false)) = true := by decide +kernel

/-- Group 0, whose one member has arrived as often as the core that waits there, also with a Currier job that awaits the
arrival and with its room stopped; and a member that has not arrived. -/
theorem witness_BarrierCompletes :
    [0, 1].all (fun n =>
      let s := tCore { atBarrier := some 0, arrivals := [(0, n)] } 0 0 0 0 (2 + 256 * 0)
      s.canon && (s.part 511).active && (s.part 511).members 0 == [12287] && (s.core 12287).atBarrier == some 0 &&
        (s.part 511).cores.contains 12287 && ((s.part 511).members 0).all (fun m =>
          decide (tget (s.core 12287).arrivals 0 0 ≤ tget (s.core m).arrivals 0 0)) && !s.roomStop.contains (s.physRoom 95)) = true ∧
    (let s : State := { tCore { atBarrier := some 0, arrivals := [(0, 1)] } 0 0 0 0 0 with
        parts := [(511, { tPart with harn := some { tPart.harness with barriers := [[3]], cur := { jobs := [{ group := 0 }] } } })] }
     s.canon = true ∧ ((s.part 511).job 0).group = 0 ∧ (s.part 511).members 0 = [12287] ∧
       ((s.part 511).job 0).arrival ≤ tget (s.core 12287).arrivals 0 0 ∧
       after (.barrierComplete 511 0) s (fun t => (t.part 511).jobsRun.contains 0) = true) ∧
    (let s : State := { tCore { atBarrier := some 0, arrivals := [(0, 1)] } 0 0 0 0 0 with roomStop := [0] }
     s.canon = true ∧ (s.part 511).active = true ∧ s.physRoom (12287 / 128) ∈ s.roomStop) ∧
    (let s : State := { tCore { atBarrier := some 0, arrivals := [(0, 1)] } 0 0 0 0 0 with
        parts := [(511, { tPart with harn := some { tPart.harness with barriers := [[2, 3]] } })] }
     (s.part 511).active = true ∧ ((s.part 511).members 0).all (fun m =>
        decide (tget (s.core 12287).arrivals 0 0 ≤ tget (s.core m).arrivals 0 0)) = false) := by decide +kernel

/-- PHASE 255; SAFEPOINT with and without LOG. -/
theorem witness_PhaseAndSafepoint :
    (tCore {} 0 0 0 0 (5 + 16 * 255)).ctlSlot 12287 5 = some (511, 5 + 16 * 255) ∧
    [0, 1].all (fun l =>
      let s := tCore {} 0 0 0 0 (3 + 16 * 65535 + 2 ^ 20 * l)
      s.canon && (s.toTime 99).ctlSlot 12287 3 == some (511, 3 + 16 * 65535 + 2 ^ 20 * l)) = true := by decide +kernel

/-- R172: the record of the first segment logged: site, core, step, cycles and length. -/
theorem test_safepointLog :
    after (.safepoint 12287 7 99) (tCore {} 0 0 0 0 (3 + 16 * 9 + 2 ^ 20)) (fun t =>
      memRead t.larder (larderKey 3071 64) 16 == [9, 0, 0xFF, 0x2F, 0, 0, 0, 0, 7, 0, 0, 0, 99, 0, 0, 0]) = true := by decide +kernel

/-- A WAITV on the pantry word 0 that equals, and that differs from, the one wanted; on a larder word, not yet read, on its
way, come back equal and come back different; one that awaits its address; one of space 0x4 in a replay; one refused. -/
theorem witness_WaitvWaits :
    let w := 7 + 16 * 1
    [0, 7].all (fun want =>
      let s := tCore { vr := tAddr 0 0 want } 0 0 0 0 w
      let x := s.core 12287
      s.canon && s.atGate 12287 7 == some (511, w) && x.loads == [] && !x.awaits 1 && x.loadOk &&
        (match s.scalarLoc 511 12287 (x.waitRead w) with
          | .ok l => l == .pantry (pantryKey 12287 0)
          | .error _ => false) && s.mayRead 511 12287 x.sq [(0, 8)] && !markRead s.pantryMark 32 (pantryKey 12287 0) 8 &&
        decide ((leNat (memRead s.pantry (pantryKey 12287 0) 8) = x.lane64 1 2) = (want = 0)) &&
        (after (.waitv 12287 none 0) s (fun t => (t.core 12287).gate || decide (0 < (t.core 12287).pc)) == (want == 0))) = true ∧
    [none, some 0, some 1].all (fun v =>
      let l : PendLoad := { vd := 32, width := 8, sq := 0, addr := 2 * 2 ^ 60, value := v }
      let s := tCore { vr := tAddr 2 0 1, loads := [l] } 0 0 0 0 w
      let x := s.core 12287
      s.canon && s.atGate 12287 7 == some (511, w) && x.loads.find? (fun l => l.vd == 32) == some l && x.lane64 1 2 == 1 &&
        (after (.waitv 12287 none 0) s (fun t => (t.core 12287).loads == []) == v.isSome)) = true ∧
    (let s := tCore { vr := tAddr 2 0 0, loads := [{ vd := 1, width := 8, sq := 0 }] } 0 0 0 0 w
     s.canon = true ∧ s.atGate 12287 7 = some (511, w) ∧ (s.core 12287).awaits 1 = true ∧
       (s.core 12287).loads.find? (fun l => l.vd == 32) = none) ∧
    (let s := tCore { vr := tAddr 2 0 0 } 0 0 0 0 w
     let a := (s.core 12287).waitRead w
     s.canon = true ∧ s.atGate 12287 7 = some (511, w) ∧ spaceOf a.addr = 2 ∧ isOk (s.scalarLoc 511 12287 a) = true ∧
       after (.waitv 12287 none 0) s (fun t => t.hall.flits.length == 1) = true) ∧
    (let s := tCore { vr := tAddr 4 0 0 } 0 0 0 0 w
     let s := tSet s [(F.BRDL_CHARTER_RANGE_EN, 0, 0, 1), (F.BRDL_CHARTER_RANGE_HI, 0, 0, 7), (F.BRDL_CHARTER_OPS_READ, 0, 0, 1)]
     let s := s.modPart 511 (fun x => { x with long := { x.long with replay := some ⟨0, 0, 0, false, [], 0, none⟩ } })
     let a := (s.core 12287).waitRead w
     s.canon = true ∧ s.atGate 12287 7 = some (511, w) ∧ spaceOf a.addr = 4 ∧ (s.part 511).replaying = true ∧
       (match s.scalarLoc 511 12287 a with
         | .ok (.bridle 0 0) => true
         | _ => false) = true) ∧
    (let s := tCore { vr := tAddr 2 1 0 } 0 0 0 0 w
     s.canon = true ∧ s.atGate 12287 7 = some (511, w) ∧ isOk (s.scalarLoc 511 12287 ((s.core 12287).waitRead w)) = false ∧
       (s.part 511).pstate = .live ∧ (s.part 511).stopped = none) := by decide +kernel

/-- END_STEP with copy slots DONE and well, and with one DONE that met lost data, a lost link or a bad address. -/
theorem witness_EndOfStep :
    [St.OK, St.DATA_UE, St.LINK_LOST, St.ADDR_FAULT].all (fun st =>
      let s := tCore { slots := [(0, some { status := some St.OK }), (47, some { status := some st })] } 0 0 0 0 8
      s.canon && s.ctlSlot 12287 8 == some (511, 8) && (s.part 511).active && keysRise (s.core 12287).slots &&
        (s.part 511).pstate == .live &&
        (List.range 48).all (fun i => match tget (s.core 12287).slots i none with
          | some y => y.status == some (if i = 47 then st else St.OK)
          | none => true) && (tget (s.core 12287).slots 47 none).isSome) = true := by decide +kernel

/-- R152, R165: a copy that lost data raises the vote to REPLAY at END_STEP. -/
theorem test_endStep :
    after (.endStep 12287 none) (tCore { slots := [(47, some { status := some St.DATA_UE })] } 0 0 0 0 8)
      (fun t => (t.part 511).vote == voteReplay && (t.core 12287).ended) = true := by decide +kernel

/-- A LOOP with no entry of its own and with one that is not spent, is spent, and belongs to another bundle. -/
theorem witness_LoopStack :
    [[], [(0, 1)], [(0, 2)], [(5, 3)]].all (fun loops =>
      [0, 1, 2, 2 ^ 24 - 1].all (fun count =>
        let s := tCore { loops := loops } 0 0 0 0 (6 + 2 ^ 32 * count)
        s.canon && (match s.ctlSlot 12287 6 with
          | some (511, w) => bitsOf w 55 32 == count
          | _ => false))) = true := by decide +kernel

/-- R149: a LOOP of COUNT 3 pushes 2 and goes to its target. -/
theorem test_loop : after (.loop 12287) (tCore {} 0 0 0 0 (6 + 2 ^ 32 * 3)) (fun t => (t.core 12287).loops == [(0, 2)]) = true := by
  decide +kernel

/-! ## Copies, the hallway, the cellar and the arrays -/

/-- A copy descriptor of R159: kind, units, source, destination, bytes. -/
def tCopyRec (kind rows src dst len : Nat) : Bytes :=
  leBytes 4 kind ++ leBytes 4 rows ++ leBytes 8 src ++ leBytes 8 dst ++ leBytes 4 len ++ leBytes 20 0 ++ leBytes 16 0

/-- An ISSUE of each kind of copy into the last slot. -/
theorem witness_CopiesIssue :
    (List.range 6).all (fun k =>
      let s := tCore { sq := 3 } 0 0 0 (1 + 4 * 47) 0 (tCopyRec k 1 0 64 32)
      s.canon && s.atSlot 12287 0 == some (511, 1 + 4 * 47) && (s.copyRecord 511 12287 (1 + 4 * 47)).kind == k &&
        (tget (s.core 12287).slots 47 none).isNone) = true := by decide +kernel

/-- A WAIT over the last slot, DONE and well, and a copy whose one unit has moved. -/
theorem witness_CopiesEnd :
    (let s := tCore { slots := [(47, some { status := some St.OK })] } 0 0 0 (2 + 2 ^ 63) 0
     s.canon = true ∧ keysRise (s.core 12287).slots = true ∧ s.atSlot 12287 0 = some (511, 2 + 2 ^ 63) ∧
       (List.range 48).all (fun i => !bitOf (2 + 2 ^ 63) (16 + i) || (match tget (s.core 12287).slots i none with
         | some z => z.status == some St.OK
         | none => true)) = true ∧ bitOf (2 + 2 ^ 63) (16 + 47) = true) ∧
    (let y : CopySlot := { moved := [0], worst := St.DATA_UE }
     let s := tCore { slots := [(47, some y)] } 0 0 0 0 0
     s.canon = true ∧ tget (s.core 12287).slots 47 none = some y ∧ y.status = none ∧ y.desc.rows ≤ y.moved.length ∧
       y.outstanding = 0 ∧ y.bufs = []) := by decide +kernel

/-- The slot of a copy of `len` bytes of the pantry at `src` to its last 32. -/
def tCopy (kind : Nat) (table : Nat := 0) : CopySlot :=
  { desc := { kind := kind, rows := 1, src := 0, dst := 2 ^ 21 - 32, len := 32, esize := 32, table := table } }

/-- The next unit of a LINEAR and a STRIDED copy, of a GATHER of a row and of no row, and of a TABLE with no entry; a unit
that is not the next, and one of a copy whose turn it is not. -/
theorem witness_CopyUnitMovesBytes :
    ([(0, .move 0 (2 ^ 21 - 32) 32), (1, .move 0 (2 ^ 21 - 32) 32), (2, .zeros (2 ^ 21 - 32) 32), (3, .nothing)] :
        List (Nat × UnitPlan)).all (fun e =>
      let y := tCopy e.1 (2 * 2 ^ 60)
      let s := tCore { slots := [(47, some y)] } 0 0 0 0 0
      let s := { s with larder := memWrite [] (larderKey 3071 0) (leBytes 4 0xFFFFFFFF) }
      let s0 := ({ s with mono := 5 } : State).modCore 12287 (fun x => { x with turn := 47 })
      s.canon && s.partOfCore 12287 == some 511 && (s.part 511).active && (s.part 511).harness.taps == [] &&
        tget (s.core 12287).slots 47 none == some y && y.status == none && y.bufs == [] && y.next == 0 &&
        (s.core 12287).copyTurn == some 47 && decide (s0.planUnit 511 12287 y.desc 0 = (s0, e.2, false)) &&
        !(s.part 511).inProgram 12287 (2 ^ 21 - 32) 32 && !markRead s.pantryMark 32 (pantryKey 12287 0 / 32 * 32) (32 + 64) &&
        after (.copyUnitMove 12287 47 0 [] none (0, 0) 5) s (fun u =>
          (match tget (u.core 12287).slots 47 none with
            | some z => z.moved == [0]
            | none => false))) = true ∧
    (let s := tCore { slots := [(46, some (tCopy 0)), (47, some (tCopy 0))] } 0 0 0 0 0
     s.canon = true ∧ (s.core 12287).copyTurn ≠ some 47 ∧ tget (s.core 12287).slots 46 none = some (tCopy 0) ∧ (tCopy 0).next ≠ 1) := by
  decide +kernel

/-- R160: the bytes are moved. -/
theorem test_copyUnitMove :
    after (.copyUnitMove 12287 47 0 [] none (0, 0) 0)
      { tCore { slots := [(47, some (tCopy 0))] } 0 0 0 0 0 with pantry := [(pantryKey 12287 31, 7)] }
      (fun t => tget t.pantry (pantryKey 12287 (2 ^ 21 - 1)) 0 == 7) = true := by decide +kernel

/-- A flit that has been injected; one still at its source; one that comes to its intermediate room; one in shared mode, in its
owner's slot; and a reduce-write that meets another of its line. -/
theorem witness_FlitsForward :
    let f : Flit := { id := 7, part := 511, at_ := 98, to_ := 99, inj := true }
    let ok := fun (s : State) (f : Flit) => match s.inject f with
      | some (u, h) => s.hall.flits.find? (fun g => g.id == 7) == some f && !f.queued && u.atHead h && !u.deadPlace h.at_ &&
        !u.deadPlace h.next && !(u.link (linkKey h.at_ h.next)).retraining && !(u.link (linkKey h.at_ h.next)).down &&
        decide (0 < u.credits h h.at_ h.next h.net)
      | none => false
    (ok (tHall f) f = true ∧ (tHall f).sharedMode = false) ∧
    (let g := { f with inj := false, from_ := 100, at_ := 88 }
     ok (tHall g) g = true ∧ (tHall g).injectOk g = true ∧ (tHall g).route g = some (0, none)) ∧
    (let g := { f with mid := some 99, to_ := 97, from_ := 88 }
     ok (tHall g) g = true ∧ after (.flitForward 7 (none, 0)) (tHall g) (fun t => match t.hall.flits with
       | [e] => e.at_ == 99 && e.mid == none && e.net == 1 && e.leg == 1
       | _ => false) = true) ∧
    (let s := (tHall f).setFld F.HALL_CFG_SHARED 0 0 1
     let s := { s with hall := { s.hall with slots := [(0, 512), (63, 1023)] } }
     s.sharedMode = true ∧ ok s f = true ∧ tget s.hall.slots (f.lane * 64 + 63) 0 = f.owner ∧ s.turnOk f = true ∧
       after (.flitForward 7 (none, 63)) s (fun t => t.hall.rr != s.hall.rr) = true) ∧
    (let g : Flit := { id := 7, kind := 6, part := 511, srcs := [(12287, 5)], at_ := 98, to_ := 99, from_ := 97, inj := true,
                       addends := [some 0x3F800000, none], dst := .larder 64 }
     let h := { g with id := 8, srcs := [(12286, 9)], from_ := 88, addends := [some 0x40000000, some 0] }
     let s := (tHall g).setFld F.HALL_CFG_COMBINE_EN 0 0 1
     let s := { s with hall := { s.hall with flits := [g, h], nextId := 9 } }
     ok s g = true ∧ s.hall.flits.find? (fun e => e.id == 8) = some h ∧ s.mayCombine g h = true ∧
       after (.flitForward 7 ((some 8), 0)) s (fun t => match t.hall.flits with
         | [e] => e.addends.take 2 == [some 0x40400000, some 0] && e.srcs.length == 2
         | _ => false) = true) := by decide +kernel

/-- A load, a store and an atomic of the larder in their room, of the partition's generation and of another; a load and a
store of a pantry; a load and a store of the cellar. -/
theorem witness_FlitsArrive :
    let ok := fun (s : State) (f : Flit) => s.canon && s.hall.flits.find? (fun h => h.id == 7) == some f && f.inj && f.at_ == f.to_ &&
      f.mid == none && !f.queued && s.atHead f && !s.deadPlace f.at_
    [0, 2, 4].all (fun k => [0, 65535].all (fun g =>
      let f : Flit := { id := 7, kind := k, part := 511, gen := g, srcs := [(12287, 0)], addr := 2 * 2 ^ 60, dst := .larder 0, inj := true }
      let s := tHall f
      ok s f && f.addr / 2 ^ 60 % 16 == 2 && !markRead s.larderMark 64 0 f.width && (s.fld F.HALL_GEN_GEN 511 0 == f.gen) == (g == 0))) = true ∧
    [0, 2].all (fun k => [Loc.pantry (pantryKey 12287 (2 ^ 21 - 4)), .cellar 0].all (fun l =>
      let f : Flit := { id := 7, kind := k, part := 511, srcs := [(12286, 0)], addr := if l = .cellar 0 then 3 * 2 ^ 60 else 2 ^ 60, dst := l, inj := true }
      let s := tHall f
      ok s f && s.fld F.HALL_GEN_GEN 511 0 == f.gen && !markRead s.pantryMark 32 (pantryKey 12287 (2 ^ 21 - 4)) f.width)) = true := by
  decide +kernel

/-- The value of a load and of an atomic, and the acknowledgement of a store, in their core's room. -/
theorem witness_ResponsesArrive :
    [1, 5, 3].all (fun k =>
      let f : Flit := { id := 7, kind := k, part := 511, srcs := [(12287, 0)], ep := 12287, sq := 4, data := 9, inj := true, from_ := 90 }
      let s := { tHall f with cores := [(12287, { loads := [{ vd := 3, width := 4, sq := 4 }], outs := [⟨4, true, false, false⟩] })] }
      s.canon && s.hall.flits.find? (fun h => h.id == 7) == some f && f.at_ == f.to_ && s.atHead f && !s.deadPlace f.at_ &&
        f.gen == s.fld F.HALL_GEN_GEN 511 0 && f.from_ != 100 && f.srcs.all (fun q => q.2 == 0) &&
        after (.flitArrive 7 false 0 none 0) s (fun t => if k = 3 then (t.core 12287).outs == []
          else ((t.core 12287).loads.map (fun l => l.value)) == [some 9])) = true := by decide +kernel

/-- R229: a reduce-write of 1.0 to a line's last element, which holds 2.0; and in ordered mode, its line listing the sources
`src`, of which `came` have come. -/
def tReduce : State :=
  { tHall { id := 7, kind := 6, part := 511, srcs := [(12287, 0)], dst := .larder 64, addr := 64, inj := true,
            addends := List.replicate 15 none ++ [some 0x3F800000] } with larder := [(126, 0), (127, 0x40)].filter (fun q => q.2 != 0) }

/-- The same in ordered mode, the line at offset 64 listing partition core indices `src`. -/
def tReduceOrd (src : List Nat) : State :=
  tReduce.modPart 511 (fun x => { x with harn := some { x.harness with ordered := true, reductions := [{ tag := 0, dst := 64, srcs := src }] } })

theorem witness_ReduceWritesAdd :
    (let s := tReduce.setFld F.HALL_CFG_COMBINE_EN 0 0 1
     let f := s.hall.flits.headD {}
     s.canon = true ∧ s.hall.flits.find? (fun g => g.id == 7) = some f ∧ f.inj = true ∧ f.queued = false ∧ f.at_ = f.to_ ∧ f.mid = none ∧
      s.atHead f = true ∧ s.deadPlace f.at_ = false ∧ f.kind = 6 ∧ f.dst = .larder 64 ∧ f.gen = s.fld F.HALL_GEN_GEN 511 0 ∧ s.combining 511 = true ∧ f.mark = false ∧
      markRead s.larderMark 64 64 64 = false) ∧
    [[2, 3], [2]].all (fun l =>
      let s := tReduceOrd l
      let f := s.hall.flits.headD {}
      s.canon && !s.combining 511 && (s.part 511).indexOf f.core == 3 && (s.part 511).redSources (f.addr % 2 ^ 60) f.tag == some l &&
        s.hall.applied == [] && s.hall.staged == [] && (s.part 511).pstate == .live && (s.part 511).stopped == none &&
        after (.reduceWriteArrive 7 none) s (fun t => if l.contains 3 then t.hall.staged.length == 1
          else (t.part 511).stopped == some St.REDUCE_FAULT)) = true ∧
    (let s := tReduce.setFld F.HALL_GEN_GEN 511 0 3
     (s.hall.flits.headD {}).gen ≠ s.fld F.HALL_GEN_GEN 511 0) := by decide +kernel

theorem test_reduceWrite : after (.reduceWriteArrive 7 none) (tReduce.setFld F.HALL_CFG_COMBINE_EN 0 0 1)
    (fun t => memRead t.larder 124 4 == [0, 0, 0x40, 0x40]) = true := by decide +kernel

/-- A link that retrains, with no failure and with two, between rooms and to a porch; and the last lane. -/
theorem witness_HallLinksAndFrames :
    [0, 2].all (fun n => [99, 299].all (fun r =>
      let s : State := { parts := [(511, tPart)], hall := { links := [(r * 4 + 3, { retraining := true, retrainEnd := 50, failures := n })] } }
      s.canon && decide (hallRoom r < 100) && (s.link (r * 4 + 3)).retraining && decide ((s.link (r * 4 + 3)).retrainEnd ≤ max s.mono 50) && keysRise s.hall.links &&
        keysRise s.roomRetire && (s.link (r * 4 + 3)).failures == n && keysRise s.hall.slots &&
        after (.hallLinkRetrainEnd r 3 false 50) s (fun t => (t.link (r * 4 + 3)).down == (n == 2)))) = true := by decide +kernel

/-- A load and a store wait at the last controller; a package that rises to the last heat level; one that stays at the level;
and the last poll of a cycle below the level, which is the first of its run, and the hundredth. -/
theorem witness_CellarControllers :
    [0, 2].all (fun k =>
      let f : Flit := { id := 7, kind := k, part := 511, ep := 15455, addr := 3 * 2 ^ 60, dst := .cellar (95 * 256), inj := true, queued := true }
      let s := (tHall f).setFld F.CELL_STAT_TRAINED 95 0 1
      let s := ((s.setFld F.CELL_STAT_SELF_REFRESH 95 0 0).setFld F.PWR_PORCH_CONV_OK 0 0 255).setFld F.HALL_CFG_SHARED 0 0 0
      s.canon && s.hall.flits.find? (fun g => g.queued && g.ep == 15360 + 95) == some f && s.ctrlServes 95 && s.cellSlot 511 &&
        !markRead s.cellarMark 64 (95 * 256) 4 && f.addr / 2 ^ 56 % 4 == 0) = true ∧
    (let s : State := {}
     s.canon = true ∧ s.heatLevel (191 / 8) < 3 ∧ keysRise s.heat = true) ∧
    [(0, false), (98, false), (99, true)].all (fun q =>
      let s := ({ heat := [(23, { ranges := List.replicate 8 1, below := q.1 })] } : State).setFld F.CELL_TEMP_LEVEL 92 0 2
      s.canon && keysRise s.heat && s.heatLevel 23 == 2 && ((tget s.heat 23 {}).ranges.set 7 1).all (fun r => decide (r < 2)) &&
        after (.cellarMr4Poll 191 0 1 0) s (fun u => u.heatLevel 23 == if q.2 then 1 else 2) &&
        after (.cellarMr4Poll 191 0 2 0) s (fun u => (tget u.heat 23 {}).below == 0)) = true := by decide +kernel

/-- Descriptors 0 BF16, 1 FP32, 2 PAIR, 3 narrow, each of 16 rows of 32 elements. -/
def tArrDescs : List Bytes :=
  [tWide 1 16 32 16384 0, tWide 0 16 32 32768 0, tWide 3 16 32 65536 131072, tNarrow 9 32 16 1 262144 524288]

/-- An instruction of 16 x 16 cells on operand descriptor `d`, over the points `0 .. n - 1`. -/
def tArrRec (op d n : Nat) : ArrRec := { op := op, aDesc := d, bDesc := d, cDesc := if op = 2 then 2 else 1, nk := n, stats := 0xFFFFFFFF }

/-- Core 12287 with an array in state `a`. -/
def tArr (a : ArrSt) : State := withDescs (tCore { arr1 := a } 0 0 0 0 0) tArrDescs

theorem witness_ArraySlotsIssue :
    [0, 1].all (fun arr =>
      let s := if arr = 0 then tCore {} 1 0 0 0 0 (leBytes 48 1) else tCore {} 0 1 0 0 0 (leBytes 48 1)
      s.canon && s.atSlot 12287 (2 + arr) == some (511, 1) && (s.arrRecord 511 12287 1).op != 0) = true := by decide +kernel

theorem witness_ArrayInstructionsRun :
    [(1, 0), (2, 1), (3, 0), (4, 0), (5, 0), (6, 0), (7, 0), (8, 3)].all (fun q =>
      let r := tArrRec q.1 q.2 (if q.2 = 3 then 32 else 1)
      let s := tArr { waiting := some r }
      s.canon && s.arrReady 12287 1 q.1 == some (511, r) && (match s.arrDescs 511 r with
        | .ok (da, db, dc) =>
          let c := s.arrCompute 12287 1 r [] da db dc
          !c.2 && !c.1.fired && c.1.fails.isEmpty
        | .error _ => false)) = true := by decide +kernel

/-- R111: a BF16 MAC of one point, 3 × 3 at cell (0, 0). -/
theorem test_mac :
    let s := tArr { waiting := some (tArrRec 1 0 1) }
    after (.mac 12287 1 []) { s with pantry := memWrite s.pantry (pantryKey 12287 16384) [0x40, 0x40] }
      (fun t => tget ((t.core 12287).arr 1).hi 0 0 == 0x41100000) = true := by decide +kernel

/-- R120: MINPLUS of one point, 3 + 3, from the identity. -/
theorem test_minplus :
    let s := tArr { waiting := some (tArrRec 3 0 1) }
    after (.minplus 12287 1) { s with pantry := memWrite s.pantry (pantryKey 12287 16384) [0x40, 0x40] }
      (fun t => tget ((t.core 12287).arr 1).hi 0 0 == 0x40C00000) = true := by decide +kernel

theorem witness_WideMacFolds : (tArrRec 1 0 1).xref = false ∧ (tArrRec 1 0 1).neg = false := by decide

/-- Drains with and without STORE, and a shadow that may be written. -/
theorem witness_ArraysDrain :
    [(4, false), (4, true), (0, true)].all (fun q =>
      let r := { tArrRec 1 0 1 with store := q.2, quart := q.1 == 0, m := if q.1 = 0 then 8 else 16 }
      let s := tArr { running := [(q.1, 0, ⟨r, {}, {}, false⟩)] }
      s.canon && s.partOfCore 12287 == some 511 && (s.part 511).active &&
        ((s.core 12287).arr 1).running.find? (fun e => e.1 == q.1) == some (q.1, 0, ⟨r, {}, {}, false⟩) && r.stats == 0xFFFFFFFF &&
        ((s.core 12287).arr 1).shadow == none && s.desc 511 r.cDesc == some (.wide ⟨0, 0, 16, 32, 32768, 0⟩)) = true ∧
    (let s := tArr { shadow := some [(2 ^ 21 - 4, [1, 2, 3, 4])] }
     let a := (s.core 12287).arr 1
     s.canon = true ∧ a.shadow = some [(2 ^ 21 - 4, [1, 2, 3, 4])] ∧
       anyOverlap [(2 ^ 21 - 4, 4)] (s.pendingReads 511 12287 a.shadowSq) = false ∧
       (s.core 12287).needOk a.shadowNeed a.shadowSq true = true ∧
       isOk ((s.modCore 12287 (fun y => y.setArr 1 { y.arr 1 with shadow := none })).putWrites 511 12287 [(2 ^ 21 - 4, [1, 2, 3, 4])]) = true) := by
  decide +kernel

/-! ## Registers -/

/-- The state right after reset meets the hypotheses that ask only for canonical tables and no recovery, as most register
writes do (HallModeWrite, SlotTableWrites, PowerCapWrites with an unlocked page, ImpossibleDatesRefused, ...). -/
theorem witness_reset_quiet :
    let s := State.reset
    s.canon = true ∧ s.recovery = false ∧ s.locked 0x7 0 = false ∧ keysRise s.host.rings = true ∧ keysRise s.host.evs = true ∧
      keysRise s.host.mem = true ∧ keysRise s.frozen = true ∧ keysRise s.latch = true ∧ keysRise s.brdl.ports = true ∧
      keysRise s.brdl.appl = true ∧ keysRise s.brdl.ownq = true ∧ keysRise s.pwr.rooms = true ∧ keysRise s.rein.occ = true ∧
      keysRise s.mtr.lines = true ∧ bringOk {} = true := by decide +kernel

/-- A BAR address of page number `n`. -/
def pg (n off : Nat) : Nat := 4096 * n + off

/-- The last page of every type whose words follow their access types, through both PFs. -/
theorem witness_RegisterWriteByAccessType :
    ([(0x2, 1, 0), (0x4, 4, 0), (0x5, 5, 0), (0x6, 6, 0), (0xA, 10, 0), (0x11, 58113, 99), (0x12, 58114, 99), (0x13, 58115, 99),
      (0x21, 1023, 511), (0x23, 2047, 511), (0x24, 2559, 511), (0x25, 3071, 511), (0x30, 61535, 95), (0x36, 63491, 3),
      (0x42, 65282, 0)] : List (Nat × Nat × Nat)).all (fun q => [512, 513].all (fun fn => [0x40, 0xFFC].all (fun off =>
        let s := tHall {}
        s.canon && decide (pg q.2.1 off < 2 ^ 28) && s.pageAt fn (pg q.2.1 off) == some (q.1, q.2.2) && !s.pageFree q.1 q.2.2))) = true := by
  decide +kernel

/-- R5, R22: a W1C bit of GLB_EVT_STAT clears by a 1, and an RO word stays. -/
theorem test_registerWrite :
    after (.registerWrite 512 (pg 1 0x40) 4 0xFFFFFFFF {} 0) State.reset (fun t => t.regs == []) = true := by decide +kernel

theorem witness_RegisterReads :
    let s := tHall {}
    s.pageAt 512 (pg 65281 0x40) = some (0x41, 0) ∧ s.pageAt 511 (pg 0 0x44) = some (0x50, 511) ∧ latches 0x41 0x40 = true ∧
      latches 0x41 0x44 = false ∧ tget s.latch (regKey 0x41 0 0x40) 0 = 0 ∧ (s.toTime 5).pageAt 512 (pg 65281 0x44) = some (0x41, 0) ∧
      pg 65281 0x44 < barBytes 512 := by decide +kernel

/-- R533: the upper word of the monotonic counter, read after its lower one, comes from the latch. -/
theorem test_latch :
    after (.loRegisterRead 512 (pg 65281 0x40) 4 5) State.reset (fun t =>
      after (.loRegisterRead 512 (pg 65281 0x44) 4 (2 ^ 33 * 1000)) t (fun u => u.host.reads == [5, 0] && u.latch == [])) = true := by
  decide +kernel

/-- R237: a partition holds a harness, and none does with one partition; a change to shared mode where heat has taken 20 slots. -/
theorem witness_HallModeWrite :
    (tHall {}).parts.any (fun e => e.2.harn.isSome) = true ∧
    (let s : State := { parts := [(511, { pstate := .live, tiles := [0] })] }
     s.canon = true ∧ s.parts.any (fun e => e.2.harn.isSome) = false ∧ ¬ 1 < s.usedParts.length ∧ s.lostSlots = 0) ∧
    (let s : State := { parts := [(511, { pstate := .live, tiles := [0] })] }
     let s := tSet s [(F.CELL_TEMP_LEVEL, 92, 0, 3), (F.HALL_CFG_SHARED, 0, 0, 0), (F.PRCH_CELL_SLOT_OWNED_EVEN, 0, 0, 1), (F.PRCH_CELL_SLOT_PART_EVEN, 0, 0, 511)]
     s.canon = true ∧ 0 < s.lostSlots ∧ s.sharedMode = false ∧ (s.part 511).shortB = none ∧
       after (.hallSharedWrite 1) s (fun t => t.sharedMode && t.cellSlot 511 && (t.part 511).shortB == some (s.lostSlots, 0, 0)) = true) := by
  decide +kernel

/-- R316: a floor that leaves the journal room for the attempt lifts HELD. -/
theorem test_journalFloorWrite :
    let s := (tHall {}).setFld F.TACK_JRNL_STAT_HELD 511 0 1
    (s.part 511).long.largest ≤ (tHall {}).jrnlFree 511 ∧
      after (.journalFloorWrite 511 0) s (fun t => t.fld F.TACK_JRNL_STAT_HELD 511 0 == 0) = true := by decide +kernel

/-- R238: the first slot of the last lane takes an owner; one that would take a partition with a harness stays. -/
theorem test_hallSlotWrite :
    after (.hallSlotWrite 374 63 (512 + 3)) State.reset (fun t => t.fld F.HALL_SLOT_PART 374 63 == 3) = true ∧
    after (.hallSlotWrite 374 63 (512 + 511)) (tHall {}) (fun t => t.fld F.HALL_SLOT_OWNED 374 63 == 0) = true := by decide +kernel

theorem witness_PowerCapWrites : (State.reset.setCreg 0x7 0 RG.CFG_LOCK 1).locked 0x7 0 = true := by decide +kernel

/-- R457: a cap above 10,000 W is taken as 10,000, one below 1,000 as 1,000. -/
theorem test_reinOpCap :
    after (.reinOpCapWrite 16383) State.reset (fun t => t.fld F.REIN_OP_CAP_W 0 0 == 10000) = true ∧
    after (.reinFacTargetWrite 0) State.reset (fun t => t.fld F.REIN_FAC_TARGET_W 0 0 == 1000) = true := by decide +kernel

/-- Allotments at their totals and one beyond; ECC_ON taken and refused; contexts of the PF with its rings off and with one on. -/
theorem witness_GuardedFieldWrites :
    (let others := fun (s : State) => (((List.range 512).filter (fun q => q != 511)).map (fun q => s.fld F.BRDL_PART_ALLOT_TAGS 0 q)).sum
     let s := State.reset.setFld F.BRDL_PART_ALLOT_TAGS 0 0 40000
     others s = 40000 ∧ s.canon = true) ∧
    (let s : State := { parts := [(511, { pstate := .live, tiles := [0] })] }
     (s.part 511).pstate = .live ∧ s.locked 0x22 511 = false ∧ (s.part 511).harn = none ∧ s.cellarFresh 511 = true ∧
       (tHall {}).canon = true ∧ (tHall {}).part 511 ≠ {} ∧ ((tHall {}).part 511).harn ≠ none) ∧
    (State.reset.allotOthers 512 + 128 ≤ 65536 ∧ State.reset.pfRingOn = false ∧
      ((State.reset.setFld F.TACK_PF_RINGS_ALLOT 0 0 128).setFld F.RING_CTX_CFG_EN 2051 31 1).pfRingOn = true) ∧
    (State.reset.part 511).pstate = .free ∧
    65536 < ({ regs := (List.range 258).map (fun q => (regKey 0x27 q (RG.TACK_PART_RINGS.offAt 0), 255)) } : State).allotOthers 511 + 128 := by
  decide +kernel

/-- Locks and the journal floor: pages that may be locked, and a live partition. -/
theorem witness_GuardedFieldWrites_more :
    374 < pagesOf 0x20 ∧ State.reset.pageIdle 0x20 374 = false ∧ ((tHall {}).part 511).pstate ≠ .free ∧
      (tHall {}).recovery = false := by decide +kernel

/-- The PF's last ring beyond its allotment, within it, and enabled; event rings that are not enabled. -/
theorem witness_RingEnables :
    (State.reset.allot 512 ≤ 127) ∧
    (let s := State.reset.setFld F.TACK_PF_RINGS_ALLOT 0 0 128
     s.canon = true ∧ 127 < s.allot 512 ∧ s.rf F.RING_CTX_CFG_EN 512 127 = 0 ∧
       (let u := s.setFld F.RING_CTX_CFG_EN 2051 31 1
        u.canon = true ∧ 127 < u.allot 512 ∧ u.rf F.RING_CTX_CFG_EN 512 127 = 1)) ∧
    ((tHall {}).part 511).pstate = .live ∧ (tHall {}).fld F.RING_EVT_CFG_EN 511 0 = 0 ∧ State.reset.fld F.RING_EVT_CFG_EN 513 0 = 0 := by
  decide +kernel

/-- Pages of every kind that may be frozen and thawed, and pages a soft reset may and may not act on. -/
theorem witness_FreezeAndSoftReset :
    (let s := State.reset
     s.pageIdle 0x11 99 = false ∧ s.isFrozen 0x11 99 = false ∧ s.recovery = false ∧ 99 < pagesOf 0x11 ∧
       softBits 0x11 0x48 = 0 ∧ s.liveWord 0x11 99 0x48 < 2 ^ 32) ∧
    (let s := State.reset.setCreg 0x11 99 RG.BLK_CTRL 5
     s.canon = true ∧ keysRise s.frozen = true ∧ s.isFrozen 0x11 99 = true ∧ s.pageIdle 0x11 99 = false) ∧
    (State.reset.mayReset 0x20 374 = true ∧ State.reset.mayReset 0x31 95 = true ∧ State.reset.mayReset 0x35 1023 = true ∧
      State.reset.mayReset 0x8 0 = false ∧
      (((tHall {}).setFld F.HALL_SLOT_OWNED 374 63 1).setFld F.HALL_SLOT_PART 374 63 511).mayReset 0x20 374 = false) := by decide +kernel

/-! ## Bridle -/

/-- A numbered packet with a fence as its payload. -/
def tPkt (seq : Nat) : Bytes := LPkt.encode { typ := 1, seq := seq, payload := Txn.encode { op := 3, src := 7 } }

/-- A port that expects sequence 4095 meets it, the one before, the one after, and a packet one of whose bytes is spoilt. -/
theorem witness_LinkPacketsAccepted :
    (let s := tPort { e := 4095 }
     s.canon = true ∧ keysRise s.brdl.ports = true ∧ s.linkRuns 95 = true) ∧
    crcHolds (tPkt 4095) = true ∧ (LPkt.decode (tPkt 4095)).typ = 1 ∧ (LPkt.decode (tPkt 4095)).seq = 4095 ∧
    knownOp (fieldAt (LPkt.decode (tPkt 4095)).payload 0 1) = true ∧
    crcHolds (tPkt 4094) = true ∧ serialLt (LPkt.decode (tPkt 4094)).seq 4095 12 = true ∧
    crcHolds (tPkt 0) = true ∧ (LPkt.decode (tPkt 0)).seq ≠ 4095 ∧ serialLt (LPkt.decode (tPkt 0)).seq 4095 12 = false ∧
    crcHolds ((tPkt 4095).set 20 1) = false := by decide +kernel

/-- R357: the expected packet is accepted and the next one is expected. -/
theorem test_linkPacketReceive : after (.linkPacketReceive 95 (tPkt 4095) 0 0) (tPort { e := 4095 })
    (fun t => (t.port 95).e == 0 && (t.port 95).rx.length == 1) = true := by decide +kernel

/-- A packet held for acknowledgement, and the ACK, NAK and CREDIT packets that come back. -/
theorem witness_LinkAcknowledgements :
    (let s := tPort { next := 0, replay := [{ seq := 4094 }, { seq := 4095 }] }
     s.canon = true ∧ keysRise s.brdl.ports = true ∧ s.linkRuns 95 = true ∧ (s.port 95).ackCount 4094 = some 1 ∧
       (s.port 95).ackCount 4095 = some 2 ∧ (s.port 95).waiting = []) ∧
    ([2, 3].all (fun ty =>
      let pkt := LPkt.encode { typ := ty, ack := some 4095, credit := (1023, 1, 0) }
      crcHolds pkt && (LPkt.decode pkt).typ == ty && (LPkt.decode pkt).ack == some 4095)) = true ∧
    (let pkt := LPkt.encode { typ := 0, credit := (1023, 1, 0) }
     crcHolds pkt = true ∧ (LPkt.decode pkt).typ = 0 ∧ (LPkt.decode pkt).ack = none) := by decide +kernel

/-- R358: a NAK of 4094 frees one packet and has the other sent again. -/
theorem test_linkNak : after (.linkNak 95 (LPkt.encode { typ := 3, ack := some 4094 }) 0)
    (tPort { next := 0, replay := [{ seq := 4094 }, { seq := 4095 }] })
    (fun t => (t.port 95).out.map (fun k => k.seq) == [4095]) = true := by decide +kernel

/-- A port with packets to acknowledge, with buffers to return, with packets held for 10 µs, for the first and for the fourth
time; one that retrains, for 30 µs with an E that is answered and one that is not, and for 2 ms; one that is down and may come
up; one that may not; one that is disabled and then enabled; the end of the start delay. -/
theorem witness_LinkTimersAndTraining :
    ((tPort { unacked := 1 }).linkRuns 95 = true ∧ 0 < ((tPort { unacked := 1 }).port 95).unacked) ∧
    ((tPort { owe := (0, 0, 1) }).linkRuns 95 = true ∧ ((tPort { owe := (0, 0, 1) }).port 95).owe ≠ (0, 0, 0)) ∧
    (let x := (tPort { replay := [{}], next := 1 }).port 95
     x.replay ≠ [] ∧ x.quietSince + 10000 ≤ max 0 10000 ∧ x.timeouts < 3) ∧
    (let s := tPort { replay := [{}], next := 1, timeouts := 3 }
     s.linkRuns 95 = true ∧ 3 ≤ (s.port 95).timeouts ∧
       after (.linkReplayTimeout 95 10000) s (fun u => u.fld F.BRDL_PORT_STAT_STATE 95 0 == 3) = true) ∧
    (let s := (tPort { retrainAt := some 0, next := 1, replay := [{}] }).setFld F.BRDL_PORT_STAT_STATE 95 0 3
     s.canon = true ∧ (s.port 95).retrainAt = some 0 ∧ s.fld F.BRDL_PORT_STAT_STATE 95 0 = 3 ∧
       (s.port 95).ackCount ((1 + 4095) % 4096) = some 1 ∧ (s.port 95).ackCount ((5 + 4095) % 4096) = none ∧
       s.brdl.txns.all (fun o => o.port != 95) = true ∧
       after (.linkRetrainComplete 95 1 30000) s (fun u => u.linkRuns 95) = true ∧
       after (.linkRetrainComplete 95 5 30000) s (fun u => (u.port 95).retrainAt == some 30000) = true ∧
       after (.linkDown 95 2000000) s (fun u => u.fld F.BRDL_PORT_STAT_STATE 95 0 == 0) = true) ∧
    (let s := (((tPort {}).setFld F.BRDL_PORT_STAT_STATE 95 0 0).setFld F.PWR_PORCH_CONV_OK 0 0 255).setFld F.TACK_BRINGUP_READY 0 0 1
     let s := (s.setFld F.CLK_REF_STAT_A_PRESENT 0 0 1).setCtrlBit 0x31 95 0 true
     s.canon = true ∧ s.portHeld 95 = false ∧ s.portLive 95 = false ∧
       after (.portLinkUp 95 2 3000 0) s (fun u => u.fld F.BRDL_PORT_STAT_STATE 95 0 == 1) = true ∧
       after (.portLinkUp 95 1 3001 0) s (fun u => u.brdl.supplyOff == [23]) = true ∧
       (s.setCtrlBit 0x31 95 0 false).portHeld 95 = true ∧
       (s.setCtrlBit 0x31 95 0 false).recovery = false ∧ ((s.setCtrlBit 0x31 95 0 false).setCtrlBit 0x31 95 0 true).portHeld 95 = false) ∧
    (let s : State := { brdl := { firstUp := some 0 } }
     s.brdl.ready = false ∧ s.brdl.bulk = [] ∧ s.parts.all (fun e => e.2.xg.outbox.isEmpty) = true ∧ s.brdl.ownq = []) := by
  decide +kernel

/-- A port with room sends a response at once. -/
theorem witness_ResponsesGoBack :
    let s := (tPort {}).setFld F.HALL_CFG_SHARED 0 0 0
    s.canon = true ∧ keysRise s.brdl.ports = true ∧ s.linkRuns 95 = true ∧ (s.port 95).waiting = [] ∧ (s.port 95).replay.length < 1024 ∧
      (16 + (Txn.encode { op := 0x81, data := List.replicate 128 0 }).length + 63) / 64 ≤ (s.port 95).cred.2.1 ∧ s.slotFor 95 512 = true := by
  decide +kernel

/-- A device with partition 511 live, its charter open to all nodes, a region of 64 KB over the start of the partition's larder
that node 7 owns (`owned`), and transactions `ts` arrived on port 96. -/
def tBrdl (owned : Nat) (ts : List Txn) : State :=
  tSet { parts := [(511, tPart)], brdl := { ready := true, ports := [(96, { rx := ts.map (fun q => (vcOf q.op, q.encode)) })] } }
    [(F.BRDL_CHARTER_RANGE_EN, 0, 0, 1), (F.BRDL_CHARTER_RANGE_HI, 0, 0, 4095), (F.BRDL_CHARTER_OPS_READ, 0, 0, 1),
      (F.BRDL_CHARTER_OPS_WRITE, 0, 0, 1), (F.BRDL_CHARTER_OPS_ATOMIC, 0, 0, 1), (F.BRDL_CHARTER_OPS_EXCHANGE, 0, 0, 1),
      (F.BRDL_CHARTER_OPS_OWN, 0, 0, 1), (F.BRDL_RGN_CTRL_VALID, 0, 0, 1), (F.BRDL_RGN_CTRL_READ, 0, 0, 1),
      (F.BRDL_RGN_CTRL_WRITE, 0, 0, 1), (F.BRDL_RGN_CTRL_MAINT, 0, 0, 1), (F.BRDL_RGN_CTRL_OWNED, 0, 0, owned),
      (F.BRDL_RGN_CTRL_PART, 0, 0, 511), (F.BRDL_RGN_LEN_LEN, 0, 0, 1), (F.BRDL_RGN_READERS_RD_HI, 0, 0, 4095),
      (F.BRDL_RGN_OWNER_NODE, 0, 0, 7), (F.HALL_CFG_SHARED, 0, 0, 0)]

/-- A request of operation `op` from node 7. -/
def tReq (op addr : Nat) (data : Bytes := []) (last : Bool := false) : Txn :=
  { op := op, src := 7, dst := 4095, tag := 65535, addr := addr, operand := 5, data := data, last := last }

theorem witness_BridleRequestsPerformed :
    (let q := tReq 1 0
     let s := tBrdl 1 [q]
     s.canon = true ∧ keysRise s.brdl.ports = true ∧ keysRise s.brdl.appl = true ∧ s.arrived 96 1 = some q ∧ s.asleep = false ∧
       s.accessWaits q = false ∧ (s.setFld F.GLB_POWER_STATE_STATE 0 0 1).asleep = true ∧
       (match s.judge q 0 128 with
         | .ok r => s.regionLoc 511 (s.regionAddr r 0) 64 == some (.larder (larderKey 3071 0)) &&
           s.regionLoc 511 (s.regionAddr r 0 + 64) 64 == some (.larder (larderKey 3071 0 + 64))
         | .error _ => false) = true ∧
       (match s.judge q 65536 128 with
         | .ok _ => false
         | .error st => st == 2) = true) ∧
    (let q := tReq 2 0 (List.replicate 16 255 ++ List.replicate 128 3)
     let s := tBrdl 1 [q]
     s.arrived 96 2 = some q ∧ s.asleep = false ∧ s.accessWaits q = false ∧ (s.applier 7).inc = q.inc ∧ (s.applier 7).next = q.wseq ∧
       (s.applier 7).held = [] ∧ (s.applier 7).fences = [] ∧ isOk (s.judge q 0 128) = true ∧ q.data.length = 144 ∧
       s.fld F.TACK_JRNL_CFG_EN 511 0 = 0 ∧
       (List.range 64).all (fun i => s.regionLoc 511 (s.regionAddr 0 0 + i) (64 - i) == some (.larder (larderKey 3071 0 + i))) = true) ∧
    [5, 6, 7, 8].all (fun op =>
      let q := tReq op 8
      let s := tBrdl 1 [q]
      s.arrived 96 op == some q && !s.asleep && !s.accessWaits q && (s.applier 7).inc == q.inc && (s.applier 7).next == q.wseq &&
        isOk (s.judge q 8 8) && s.regionLoc 511 (s.regionAddr 0 8) 8 == some (.larder (larderKey 3071 0 + 8)) &&
        !markRead s.larderMark 64 (larderKey 3071 0 + 8) 8) = true := by decide +kernel

/-- A READ, a WRITE and an atomic of a region that lies in the cellar. -/
theorem witness_BridleRequestsPerformed_cellar :
    [1, 2, 5, 6, 7, 8].all (fun op =>
      let q := tReq op 8 (if op = 2 then List.replicate 16 255 ++ List.replicate 128 3 else List.replicate 8 0)
      let s := tSet (tBrdl 1 [q]) [(F.BRDL_RGN_CTRL_SPACE, 0, 0, 1), (F.TACK_PART_CELL_SIZE_GIB, 511, 0, 1), (F.CELL_STAT_TRAINED, 0, 0, 1), (F.PWR_PORCH_CONV_OK, 0, 0, 255)]
      let p := s.fld F.BRDL_RGN_CTRL_PART 0 0
      let n := if op < 5 then 64 else 8
      let a := s.regionAddr 0 (if op < 5 then 0 else 8)
      s.canon && s.arrived 96 op == some q && isOk (s.judge q (if op < 5 then 0 else 8) (if op < 5 then 128 else 8)) && !s.asleep && !s.accessWaits q &&
        (match s.regionLoc p a n with
          | some (.cellar _) => true
          | some (.cached _) => true
          | _ => false) &&
        (s.regionLoc p (a + 64) 64).isSome) = true := by decide +kernel

/-- R361: an ATOMIC_ADD of 5 to the word 8, which holds 2. -/
theorem test_atomicAdd :
    let s := tBrdl 1 [tReq 5 8]
    after (.atomicAdd 96 (none, 0)) { s with larder := [(larderKey 3071 0 + 8, 2)] } (fun t => tget t.larder (larderKey 3071 0 + 8) 0 == 7) = true := by
  decide +kernel

/-- The ownership address of region 0. -/
def tOwnAddr : Nat := 0xF0000000000

/-- An OWN_REQ of a region owned and not; an OWN_RELEASE by the owner and by another; an OWN_GRANT that is waited for; a FENCE
with nothing before it and with something; a first and last fragment of a message, and a first that is not the last. -/
theorem witness_OwnershipFencesExchange :
    [0, 1].all (fun owned =>
      let q := tReq 9 tOwnAddr (leBytes 8 64)
      let s := tBrdl owned [q]
      s.canon && s.chartered 7 9 && s.arrived 96 9 == some q && !s.asleep && !s.accessWaits q && ownRegion q == 0 &&
        s.fld F.BRDL_RGN_CTRL_OWNED 0 0 == owned && s.ownQueue 0 == [] && s.mayOpen 512 7 10) = true ∧
    [7, 8].all (fun owner =>
      let q := tReq 11 tOwnAddr
      let s := (tBrdl 1 [q]).setFld F.BRDL_RGN_OWNER_NODE 0 0 owner
      s.chartered 7 11 && s.arrived 96 11 == some q && !s.accessWaits q && (s.fld F.BRDL_RGN_OWNER_NODE 0 0 == q.src) == (owner == 7)) = true ∧
    (let q := tReq 10 tOwnAddr (leBytes 8 3)
     let s := tBrdl 1 [q]
     let s := { s with brdl := { s.brdl with ownWait := [(7, 3, 511, 64)] } }
     s.chartered 7 10 = true ∧ s.arrived 96 10 = some q ∧ s.accessWaits q = false ∧
       s.brdl.ownWait.find? (fun w => w.1 == q.src && w.2.1 == fieldAt q.data 0 8) = some (7, 3, 511, 64)) ∧
    [0, 1].all (fun w =>
      let q := { tReq 3 0 with wseq := w }
      let s := tBrdl 1 [q]
      s.chartered 7 3 && s.arrived 96 3 == some q && (s.applier 7).inc == q.inc && (s.applier 7).fences == [] &&
        serialLt (s.applier 7).next q.wseq 32 == (w == 1)) = true ∧
    [true, false].all (fun last =>
      let s0 := tSet (tBrdl 1 []) [(F.BRDL_XG_CFG_PCOUNT, 511, 0, 2), (F.BRDL_XG_NODE_NODE_ODD, 511, 0, 7)]
      let m := (s0.xgMessage 511 1 0 0 0 []).set 0xC 1
      let q := tReq 4 0 m last
      let s := { s0 with brdl := { s0.brdl with ports := [(96, { rx := [(0, q.encode)] })] } }
      s.chartered 7 4 && s.arrived 96 4 == some q && !s.accessWaits q && q.fragOff == 0 && s.xgDest 7 m == some 511 &&
        s.xgTreat 511 7 m == 0) = true := by decide +kernel

/-- A request of every sequenced operation that was performed before, and one that has come too early. -/
theorem witness_RequestsTakeTheirTurn :
    [2, 5, 6, 7, 8, 9, 10, 11].all (fun op => [0, 2].all (fun w =>
      let q := { tReq op 8 with wseq := w }
      let s := tBrdl 1 [q]
      let s := { s with brdl := { s.brdl with appl := [(7, { next := 1, saved := [(0, 9)] })] } }
      s.canon && keysRise s.brdl.appl && s.arrived 96 op == some q && !s.asleep && !s.accessWaits q && (s.applier 7).inc == q.inc &&
        q.wseq != (s.applier 7).next && serialLt q.wseq (s.applier 7).next 32 == (w == 0) &&
        (s.applier 7).held.all (fun h => h.2.wseq != q.wseq) && decide (s.heldTotal < 16384))) = true := by decide +kernel

/-- A state with a transaction `o` of this node outstanding and its response of operation `op` and status `st` arrived. -/
def tRsp (o : OutTxn) (op st : Nat) : State :=
  let r : Txn := { op := op, status := st, src := o.t.dst, tag := o.t.tag, attempt := o.t.attempt, data := List.replicate 128 1 }
  let s := tBrdl 1 [r]
  { s with brdl := { s.brdl with txns := [o] } }

/-- Responses to a load, a copy's read, a store, a copy's write, a fence, an exchange, atomics, ownership messages and a grant. -/
theorem witness_ResponsesComplete :
    ([(1, 0x81, .load { kind := 0 }), (1, 0x81, .copyRead 12287 0 0 0 0 128 0), (2, 0x82, .store { kind := 2 }),
      (2, 0x82, .copyWrite 12287 0 0), (3, 0x83, .fence), (4, 0x84, .exchange 511 0), (5, 0x85, .load { kind := 4 }),
      (5, 0x85, .store { kind := 4 }), (9, 0x89, .own 1 511 64 {}), (10, 0x8A, .grant 0), (11, 0x8B, .own 2 511 64 {})] :
        List (Nat × Nat × TxnFor)).all (fun e =>
      let o : OutTxn := { t := { op := e.1, dst := 4095, tag := 65535, attempt := 31 }, for_ := e.2.2, part := 511 }
      let s := tRsp o e.2.1 0
      match s.arrived 96 e.2.1 with
      | none => false
      | some r => s.canon && r.status == 0 && tget s.brdl.seen r.src 0 == 0 && r.op == e.2.1 &&
        s.brdl.txns.find? (fun x => x.t.tag == r.tag && x.t.dst == r.src && x.t.attempt == r.attempt && rspOp x.t.op == r.op &&
          x.heldAt.isNone) == some o && s.brdl.bulk == [] && s.brdl.ownq == [] && s.parts.all (fun e => e.2.xg.outbox.isEmpty)) = true := by
  decide +kernel

/-- Refused and held answers of a load, a store and an atomic of a live partition that is not stopped, of a copy's read and
write, and of an ownership message; and the answer of a write that a fence has counted. -/
theorem witness_ResponsesHoldOrRefuse :
    ([(1, 0x81, .load { kind := 0 }), (2, 0x82, .store { kind := 2 }), (5, 0x85, .load { kind := 4 }), (1, 0x81, .copyRead 12287 1 0 0 0 128 64),
      (2, 0x82, .copyWrite 12287 1 64), (9, 0x89, .own 1 511 64 {})] :
        List (Nat × Nat × TxnFor)).all (fun e => [1, 2, 6].all (fun st =>
      let o : OutTxn := { t := { op := e.1, dst := 4095, tag := 65535 }, for_ := e.2.2, part := 511 }
      let s := tRsp o e.2.1 st
      match s.arrived 96 e.2.1 with
      | none => false
      | some r => s.canon && r.status == st && tget s.brdl.seen r.src 0 == 0 && !o.fenced && !s.staleTxn o && r.op == e.2.1 &&
        s.brdl.txns.find? (fun x => x.t.tag == r.tag && x.t.dst == r.src && x.t.attempt == r.attempt && rspOp x.t.op == r.op &&
          x.heldAt.isNone) == some o && (s.part 511).pstate == .live && (s.part 511).stopped == none && s.brdl.bulk == [] &&
          s.brdl.ownq == [] && s.parts.all (fun e => e.2.xg.outbox.isEmpty))) = true ∧
    (let o : OutTxn := { t := { op := 2, dst := 4095, tag := 65535 }, for_ := .store { kind := 2 }, part := 511, fenced := true }
     let s := tRsp o 0x82 6
     (match s.arrived 96 0x82 with
      | none => false
      | some r => r.status == 6 && tget s.brdl.seen r.src 0 == 0 &&
        s.brdl.txns.find? (fun x => x.t.tag == r.tag && x.t.dst == r.src && x.t.attempt == r.attempt && rspOp x.t.op == r.op &&
          x.heldAt.isNone) == some o) = true ∧
       after (.writeAck 96 0) s (fun u => u.brdl.txns == [] && (u.part 511).stopped == none) = true) := by decide +kernel

/-- A transaction held for 20 µs, one unanswered for 2 ms, and ones for 50 ms: of a store, of a copy's write and one that a
fence has counted; regions that may be and that may not be valid. -/
theorem witness_TransactionTimersAndRegions :
    (let o : OutTxn := { t := { op := 2, tag := 65535, dst := 7, attempt := 31 }, for_ := .store { kind := 2 }, part := 511 }
     let s := fun (o : OutTxn) => ({ brdl := { txns := [o] } } : State)
     (s { o with heldAt := some 0 }).txnOf 65535 = some { o with heldAt := some 0 } ∧ (s o).canon = true ∧ 0 + 20000 ≤ max 0 20000 ∧
       (s o).txnOf 65535 = some o ∧ o.heldAt = none ∧ o.fenced = false ∧ o.sentAt + 2000000 ≤ 2000000 ∧
       2000000 < o.first + o.held + 50000000 ∧ (s o).brdl.ownq = [] ∧ (s o).recovery = false ∧
       after (.txnLifetimeExpiry 65535 50000000) (s o) (fun u => (u.part 511).vote == voteSkip) = true ∧
       after (.txnLifetimeExpiry 65535 50000000) (s { o with for_ := .copyWrite 12287 1 64 }) (fun u => u.brdl.txns == []) = true ∧
       after (.txnLifetimeExpiry 65535 50000000) (s { o with fenced := true }) (fun u => u.brdl.txns == [] && (u.part 511).vote == 0) = true) ∧
    (let s := tBrdl 0 []
     s.regionOk 0 = true ∧ ((s.setFld F.BRDL_RGN_CTRL_PART 0 0 510).regionOk 0 = false)) := by decide +kernel

/-! ## Exchange, rings and requests -/

/-- Partition 511 with two participants, the other at node 7, and a PACK job with one chunk. -/
def tXg (x : XgSt) (closed : Bool) : State :=
  tSet (withDescs { parts := [(511, { tPart with closed := closed, xg := x, harn := some { tPart.harness with
      cur := { jobs := [{ kind := 6, arrival := 99, inp := 0 }], recvBase := 65536 } } })] } [tWide 1 1 32 16384 0])
    [(F.BRDL_XG_CFG_PCOUNT, 511, 0, 2), (F.BRDL_XG_NODE_NODE_ODD, 511, 0, 7)]

/-- A message of participant 1: of one chunk whose encoding is empty, or a CLOSE. -/
def tMsg (kind : Nat) : Bytes :=
  ((tXg {} false).xgMessage 511 kind (1 - kind) 0 0 (if kind = 1 then [] else [0, 0, 0, 0])).set 0xC 1

/-- A CLOSE and a CHUNKS message that may be accepted, one that came before, a stray one, one that the journal serves, one of a
replay, and a wait of the limit. -/
theorem witness_ExchangeMessages :
    [0, 1].all (fun k =>
      let q := (511, 7, tMsg k)
      let s := { tXg {} false with brdl := { msgs := [q] } }
      s.canon && !(s.part 511).replaying && (s.xgServed 511).isNone && s.jrnlServed 511 16384 &&
        s.brdl.msgs.find? (fun q => q.1 == 511 && s.xgTreat 511 q.2.1 q.2.2 != 2) == some q &&
        s.xgTreat 511 7 (tMsg k) == 0 && msgKind (tMsg k) == k && !s.messageBad 511 (tMsg k) && msgVote (tMsg k) != 3 &&
        after (.xgMessageReceive 511 0) s (fun u => u.brdl.msgs == [])) = true ∧
    (let s := tXg { closes := [(1, 0)] } false
     s.xgTreat 511 7 (tMsg 1) = 1 ∧ s.xgTreat 511 8 (tMsg 1) = 3) ∧
    (let m := tMsg 0
     let s := (tXg {} false).modPart 511 (fun x => { x with long := { x.long with replay := some ⟨0, 0, 0, false,
       [{}, { kind := 4, key0 := 1, payload := m }], 0, none⟩ } })
     s.jrnlServed 511 16384 = true ∧ (s.part 511).replaying = true ∧ s.replayMessage 511 = some m ∧
       after (.xgMessageReceive 511 0) s (fun u => (u.part 511).xg.chunks == [(1, 0)]) = true) ∧
    (let s := (tXg {} false).modPart 511 (fun x => { x with attempt := 1, long := { x.long with
       marks := [{ seq := 0, kind := 4, key0 := 1, key1 := 0, addr := 0, step := 0, attempt := 0, start := 0, len := 128, plen := 64 }] } })
     (s.part 511).active = true ∧ (s.part 511).replaying = false ∧ (s.xgServed 511).isSome = true) ∧
    (let s := tXg { closes := [] } true
     let x := s.part 511
     s.xgWaits 511 = true ∧ x.pstate = .live ∧ x.stopped = none ∧
       x.xg.progress + max 1 (s.xgCfg 511).timeout * 10 ^ 6 ≤ 10 ^ 12) := by decide +kernel

/-- A descriptor of R392 with opcode, completion ring and sequence number. -/
def tDesc (op cring seq : Nat) : Bytes := leBytes 2 op ++ leBytes 6 cring ++ leBytes 8 seq ++ leBytes 16 0 ++ leBytes 32 0

/-- Doorbells that are taken and one that is not; no ring that asks, one with a descriptor and one with a data burst, one
that lost before, and a grant that still stands. -/
theorem witness_DoorbellsAndArbiter :
    (let s := tRing none
     s.canon = true ∧ keysRise s.host.rings = true ∧ 126 < s.allot 511 ∧ s.rf F.RING_CTX_CFG_EN 511 126 = 1 ∧ 15 < s.ringSize 511 126 ∧
       s.rf F.RING_CTX_CFG_TYPE 511 126 = 0 ∧ s.rf F.RING_CTX_CFG_EN 511 127 = 1 ∧ s.rf F.RING_CTX_CFG_TYPE 511 127 ≠ 0 ∧
       ¬ 16 < s.ringSize 511 126 ∧ (s.arb 1).granted = false ∧ s.requesting 511 126 = false) ∧
    (((tRing none).setRf F.RING_CTX_PTR_TAIL 511 126 1).requesting 511 126 = true) := by decide +kernel

/-- A ring that asks for a descriptor: it is granted, and while the grant stands nothing else is; one that asks for a data burst. -/
theorem witness_ArbiterGrants :
    (let s := (tRing none).setRf F.RING_CTX_PTR_TAIL 511 126 1
     let u := s.setArb 1 { last := some (ringKey 511 126), granted := true }
     (s.arb 1).granted = false ∧ s.requesting 511 126 = true ∧ s.dataWaits 511 126 = false ∧ u.requesting 511 126 = true) ∧
    (let q : Req := { op := 3, arg0 := 5 * 2 ^ 60, arg1 := 2 * 2 ^ 60, len := 64 }
     let s := tRing (some q)
     s.dataWaits 511 126 = true ∧ s.req (ringKey 511 126) = some q) := by decide +kernel

/-- The ring that holds the grant meets a descriptor in sequence, out of sequence, with a reserved opcode, one without a
completion ring and one without its receipt ring; in retain, and in the dark. -/
theorem witness_DescriptorsTaken :
    (let s := (tRing none).setRf F.RING_CTX_PTR_TAIL 511 126 1
     let s := s.setArb 1 { last := some (ringKey 511 126), granted := true }
     s.canon = true ∧ keysRise s.host.rings = true ∧ s.requesting 511 126 = true ∧ (s.arb 1).granted = true ∧
       (s.arb 1).last = some (ringKey 511 126) ∧ s.fld F.GLB_POWER_STATE_STATE 0 0 = 0 ∧ s.ringOn 511 127 1 = true ∧
       s.ringOn 511 125 1 = false ∧ s.ringOn 511 125 2 = false ∧ s.reg64 RG.RING_CTX_SEQ_LO RG.RING_CTX_SEQ_HI 2047 30 = 0 ∧
       after (.descriptorFetch 511 126 (tDesc 8 127 0) 0) s (fun u => ((u.req (ringKey 511 126)).map (fun q => q.status)) == some none) = true ∧
       after (.descriptorFetch 511 126 (tDesc 8 127 1) 0) s (fun u => ((u.req (ringKey 511 126)).bind (fun q => q.status)) == some St.SEQ_FAULT) = true ∧
       after (.descriptorFetch 511 126 (tDesc 10 127 0) 0) s (fun u => ((u.req (ringKey 511 126)).bind (fun q => q.status)) == some St.OP_FAULT) = true ∧
       after (.descriptorFetch 511 126 (tDesc 8 125 0) 0) s (fun u => (u.req (ringKey 511 126)) == none) = true ∧
       after (.descriptorFetch 511 126 (((tDesc 8 127 0).set 1 1).set 3 125) 0) s (fun u => ((u.req (ringKey 511 126)).bind (fun q => q.status)) == some St.RING_FAULT) = true ∧
       (let u := s.setFld F.GLB_POWER_STATE_STATE 0 0 1
        u.requesting 511 126 = true ∧ u.fld F.GLB_POWER_STATE_CHANGING 0 0 = 0 ∧
          after (.descriptorFetch 511 126 (tDesc 2 127 0) 0) u (fun u => u.fld F.GLB_POWER_STATE_CHANGING 0 0 == 1) = true) ∧
       (let u := s.setFld F.GLB_POWER_STATE_STATE 0 0 2
        u.requesting 511 126 = true ∧
          after (.descriptorFetch 511 126 (tDesc 2 127 0) 0) u (fun u => ((u.req (ringKey 511 126)).bind (fun q => q.status)) == some St.PARTITION_BUSY) = true)) ∧
    ((tDesc 8 127 0).length = 64 ∧ (decodeReq (tDesc 8 127 0)).seq = 0 ∧ reqReserved (tDesc 8 127 0) = false ∧
      (decodeReq (tDesc 8 127 0)).flags % 2 = 0 ∧ (decodeReq (tDesc 8 127 1)).seq = 1 ∧ reqReserved (tDesc 10 127 0) = true ∧
      (decodeReq (tDesc 10 127 0)).seq = 0 ∧ (decodeReq (tDesc 2 127 0)).works = true) := by decide +kernel

theorem witness_CompletionRecords :
    let q : Req := { op := 8, cring := 127, status := some St.OK }
    let s := tRing (some q)
    s.canon = true ∧ keysRise s.host.rings = true ∧ keysRise s.host.mem = true ∧ s.req (ringKey 511 126) = some q ∧ s.ringOn 511 127 1 = true ∧
      s.ringSpace 511 127 = true ∧ s.ringServes 511 127 = true ∧ (s.part 511).leaving = false := by decide +kernel

/-- R396: the record's first byte is its ring, and the request retires. -/
theorem test_completionRecord : after (.completionRecordWrite 511 126 0) (tRing (some { op := 8, cring := 127, status := some St.OK }))
    (fun t => t.req (ringKey 511 126) == none && t.rf F.RING_CTX_PTR_TAIL 511 127 == 1) = true := by decide +kernel

/-- QUERY requests of the PF and of a partition through its host window, one with its port down, one of a reserved kind, one to
another space, and a FENCE with nothing before it and with something. -/
theorem witness_QueriesAndFences :
    [0, 1].all (fun k =>
      let q : Req := { op := 8, arg0 := k, len := 64, bursts := 1 }
      let s := { tRing none with host := { rings := [(ringKey 512 0, { req := some q })] } }
      let s := s.setFld F.PCIE_LINK_STAT_RATE 0 0 5
      s.canon && s.opReq 512 0 8 == some q && s.ringServes 512 0 && !((tRing none).ringServes 512 0)) = true ∧
    [0, 1].all (fun k =>
      let q : Req := { op := 8, arg0 := k, arg1 := 5 * 2 ^ 60 + 4032, len := 64, bursts := 1 }
      let s := tRing (some q)
      s.canon && s.opReq 511 126 8 == some q && s.ringServes 511 126 && spaceOf q.arg1 == 5 &&
        isOk (s.devWrite 511 .agent q.arg1 (List.replicate 64 0) false)) = true ∧
    (tRing (some { op := 8, arg0 := 2, len := 64 })).opReq 511 126 8 ≠ none ∧
    (tRing (some { op := 8, arg0 := 0, arg1 := 2 * 2 ^ 60, len := 64 })).opReq 511 126 8 ≠ none ∧
    (let s := tRing (some { op := 9, taken := 5 })
     s.opReq 511 126 9 ≠ none ∧ s.fenceClear 511 5 = true ∧
       (s.setRingX (ringKey 511 0) { req := some { taken := 4 } }).fenceClear 511 5 = false) := by decide +kernel

/-! ## A partition's work -/

/-- A LOAD_HARNESS that is refused (its image is empty), of a partition that may load; and one with a snapshot open. -/
theorem witness_LoadsEnd_refused :
    let q : Req := { op := 1, cring := 127, arg0 := 5 * 2 ^ 60, len := 4096, bursts := 2 }
    let s := tRing (some q)
    s.canon = true ∧ keysRise s.host.rings = true ∧ s.opReq 511 126 1 = some q ∧ (s.part 511).long.snap = none ∧ s.portServes 511 = true ∧
      s.flushServed 511 = true ∧ s.loadRefusal 511 q.arg0 q.len (List.replicate 4096 0) = some St.IMAGE_FAULT ∧
      (let u := s.modPart 511 (fun x => { x with long := { x.long with snap := some ⟨0, 0, 0, [], 0, 0, none⟩ } })
       u.canon = true ∧ u.opReq 511 126 1 = some q ∧ (u.part 511).long.snap ≠ none) := by decide +kernel

/-- RUN_STEPS of a partition that may step, is stopped, has no harness, is running, and of no steps. -/
theorem witness_RunStepsBegins :
    (let q : Req := { op := 2, cring := 127, arg0 := 1 }
     let s := tRing (some q)
     s.canon = true ∧ s.opReq 511 126 2 = some q ∧ q.started = false ∧ (s.part 511).stopped = none ∧ (s.part 511).harn.isSome = true ∧
       (s.part 511).stepRuns = false ∧ (s.selectVariant 511).2 = true ∧
       ((tRing (some q) tPart).part 511).stepRuns = true ∧ (tRing (some { q with arg0 := 0 })).opReq 511 126 2 ≠ none) ∧
    ((tRing (some { op := 2, arg0 := 1 }) { tPart with running := false, stopped := some St.METER_FAULT }).part 511).stopped = some St.METER_FAULT ∧
    (let s := tRing (some { op := 2, arg0 := 1 }) { pstate := .live, tiles := [3071] }
     s.opReq 511 126 2 ≠ none ∧ (s.part 511).harn = none ∧ (s.part 511).stopped = none) ∧
    (let x : PartSt := { tPart with running := false, harn := some { tPart.harness with variants := 2, variantIx := [{ lo := 5, hi := 6 }] } }
     let s := tRing (some { op := 2, arg0 := 1 }) x
     s.opReq 511 126 2 ≠ none ∧ (s.selectVariant 511).2 = false) := by decide +kernel

/-- COPY requests between the host window and the first line of the larder, both ways, of a line that is marked, to a place
that is refused, and between two host windows. -/
theorem witness_HostCopies :
    (let q : Req := { op := 3, arg0 := 5 * 2 ^ 60, arg1 := 2 * 2 ^ 60, len := 64, bursts := 1 }
     let s := tRing (some q)
     s.canon = true ∧ keysRise s.host.mem = true ∧ s.opReq 511 126 3 = some q ∧ s.portServes 511 = true ∧ spaceOf q.arg0 = 5 ∧ spaceOf q.arg1 = 2 ∧
       copyEndsOk q.arg0 q.arg1 = true ∧ (match s.resolve 511 .agent q.arg0 q.len with
         | .ok (.host _ _) => true
         | _ => false) = true ∧ s.resolve 511 .agent q.arg1 q.len = .ok (.larder (larderKey 3071 0)) ∧ q.arg1 % 64 + q.len ≤ 64 ∧
       s.rangeFree 511 .agent q.arg1 q.len true = true ∧ s.jrnlServed 511 q.len = true ∧
       isOk (s.hostPut 511 q.arg1 (List.replicate 64 1) false) = true ∧
       isOk (s.hostPut 511 (2 * 2 ^ 60 + 2 ^ 59) (List.replicate 64 1) false) = false) ∧
    [[], [larderKey 3071 0 / 64]].all (fun marks =>
      let q : Req := { op := 3, arg0 := 2 * 2 ^ 60, arg1 := 5 * 2 ^ 60, len := 64, bursts := 1 }
      let s := { tRing (some q) with larderMark := marks }
      s.canon && s.opReq 511 126 3 == some q && q.flags % 2 == 0 && markRead s.larderMark 64 (larderKey 3071 0) 64 == (marks != []) &&
       s.rangeFree 511 .agent q.arg0 q.len false && copyEndsOk q.arg0 q.arg1 &&
       (match s.devRead 511 .agent q.arg0 q.len with
         | .ok (_, _, m) => m == (marks != [])
         | .error _ => false) &&
       (match s.resolve 511 .agent q.arg0 q.len, s.resolve 511 .agent q.arg1 q.len with
         | .ok (.larder k), .ok (.host port _) => k == larderKey 3071 0 && port == 1
         | _, _ => false)) = true ∧
    copyEndsOk (5 * 2 ^ 60) (5 * 2 ^ 60) = false := by decide +kernel

theorem test_hostCopy : after (.hostCopy 511 126 ([7], none) 0) (tRing (some { op := 3, arg0 := 5 * 2 ^ 60, arg1 := 2 * 2 ^ 60 + 63, len := 1, bursts := 1 }))
    (fun t => t.larder == [(larderKey 3071 63, 7)]) = true := by decide +kernel

/-- A parameter record of R320 in the larder: flags, one range listed at offset 128, address, first and last step, limit; and the
range, of no bytes. -/
def tParam (op flags addr lim : Nat) (x : PartSt) : State :=
  let s := tRing (some { op := op, cring := 127, arg0 := 2 * 2 ^ 60 }) x
  { s with larder := memWrite (memWrite [] (larderKey 3071 0) (leBytes 4 flags ++ leBytes 4 1 ++ leBytes 8 addr ++ leBytes 24 0 ++
      leBytes 8 128 ++ leBytes 8 lim)) (larderKey 3071 128) (leBytes 8 (2 * 2 ^ 60) ++ leBytes 8 0) }

/-- Partition 511 between steps. -/
def tIdle : PartSt := { tPart with running := false }

/-- Every cellar controller trained and its porches powered. -/
def tCell (s : State) : State :=
  tSet s ((List.range 96).map (fun c => (F.CELL_STAT_TRAINED, c, 0, 1)) ++ [(F.PWR_PORCH_CONV_OK, 0, 0, 255)])

/-- Requests that meet a running step; a SNAPSHOT and a CHECKPOINT that may begin; a snapshot whose stream has ended. -/
theorem witness_SnapshotsAndCheckpoints :
    [4, 5, 6, 7].all (fun op =>
      let s := tRing (some { op := op }) tPart
      s.canon && !(s.part 511).longOk && (s.part 511).long.snap == none && (s.opReq 511 126 op).isSome && s.flushServed 511) = true ∧
    [4, 5].all (fun op =>
      let s := tCell (tParam op (if op = 5 then 0x10 else 0) (if op = 4 then 5 * 2 ^ 60 else 0) 64 tIdle)
      let s := (s.setFld F.TACK_CKPT_AREA_SIZE_GIB 511 0 1).setFld F.TACK_PART_CELL_SIZE_GIB 511 0 1
      match s.longParam 511 (2 * 2 ^ 60) [] with
      | .error _ => false
      | .ok a => match s.longRanges 511 a (op == 4) with
        | .error _ => false
        | .ok ranges => s.canon && (s.opReq 511 126 op).isSome && (s.part 511).longOk && !s.hostWaits 511 [2 * 2 ^ 60, a.addr] &&
          s.flushServed 511 && s.cellarServes 511 &&
          (op == 5 || spaceOf a.addr == 5) && isOk (s.readRanges 511 ((s.part 511).rangeSegs ranges)) && decide (64 ≤ a.limit) &&
          (op == 4 || (!a.export_ && a.slot == some 0 && s.fld F.TACK_CKPT_AREA_SIZE_GIB 511 0 == 1 && s.ckptFits 511 0 4096)) &&
          (((s.part 511).rangeSegs ranges).map (fun g => ((g.map (fun q => q.2)).sum + 255) / 256 * 256)).sum == 0) = true ∧
    (let g : SnapRun := { key := ringKey 511 126, dest := 0, step := 0, ranges := [], len := 0 }
     let s := tRing (some { op := 4, started := true }) { tIdle with long := { snap := some g } }
     let s := { s with brdl := { bulk := [{ key := g.key, part := 511 }] } }
     (s.part 511).long.snap = some g ∧ (s.bulk g.key).map (fun b => b.ended) = some true ∧ s.opReq (g.key / 128) (g.key % 128) 4 ≠ none) := by
  decide +kernel

/-- A RESTORE that finds no slot, and one whose slot is no intact image; a REPLAY that may begin over one step, one with nothing
left, and one whose partition has stopped. -/
theorem witness_RestoresAndReplays :
    (let s := tCell (tParam 6 0 0 0 tIdle)
     match s.longParam 511 (2 * 2 ^ 60) [] with
      | .error _ => false
      | .ok a => s.canon && (s.opReq 511 126 6).isSome && (s.part 511).longOk && (s.part 511).long.snap == none && s.cellarServes 511 &&
        !s.hostWaits 511 [2 * 2 ^ 60, a.addr] && !a.import_ && s.validSlots 511 == [] && a.slot == none) = true ∧
    (let s := tCell (tParam 6 0x10 0 0 tIdle)
     match s.longParam 511 (2 * 2 ^ 60) [] with
      | .error _ => false
      | .ok a => a.slot == some 0 && !a.import_ && !isOk (s.chooseSlot 511 [0]).2) = true ∧
    (let ms : List JrnlMark := [⟨1, 0, 0, 0, 0, 0, 0, 0, 128, 32⟩, ⟨7, 0, 0, 1, 0, 0, 0, 128, 64, 0⟩]
     let s := (tParam 7 0 0 0 { tIdle with long := { marks := ms } }).setFld F.TACK_JRNL_AREA_SIZE_GIB 511 0 1
     let s := { s with cellKey := [(0, 1), (1, 1)] }
     match s.longParam 511 (2 * 2 ^ 60) [] with
      | .error _ => false
      | .ok a =>
        let all := sortBy (fun (a b : JEnt) => decide (a.seq ≤ b.seq)) (s.ownJournal 511)
        s.canon && (s.opReq 511 126 7).isSome && a.addr == 0 && (s.part 511).stopped == none &&
          s.replayRefusal 511 a all (rangeEntries a.fromStep a.toStep (liveEntries all)) == none) = true ∧
    [none, some St.METER_FAULT].all (fun (st : Option Nat) =>
      let g : ReplayRun := { key := ringKey 511 126, to_ := 0, result := 2 * 2 ^ 60, stopOn := false }
      let s := tRing (some { op := 7, started := true }) { tIdle with long := { replay := some g }, stopped := st }
      (s.opReq 511 126 7).isSome && !(s.part 511).running && (s.part 511).replayOpen == none && (s.part 511).tail == none &&
       (s.part 511).migrating == 0 && !s.hostWaits 511 [g.result] && (s.part 511).stopped == st &&
       isOk (s.devWrite 511 .agent g.result (replayRecord (if st.isSome then 2 else 0) g) false)) = true := by decide +kernel

/-! ## Time, idle states and management -/

/-- 29 February of years that have and have not that day, the ends of months and of the year range, and the last moments. -/
theorem witness_ImpossibleDatesRefused :
    let ymd := fun (y m d : Nat) => y + 2 ^ 16 * m + 2 ^ 20 * d
    let hms := fun (h m x : Nat) => h + 32 * m + 2 ^ 11 * x
    let status := fun (v : Nat) => after (.timeSetYmdWrite v) State.reset (fun t => t.fld F.TIME_STAT_SET_STATUS 0 0 == 1)
    [(1999, 12, 31), (2400, 1, 1)].all (fun q => decide (q.1 < 2000 ∨ 2399 < q.1)) = true ∧
    [(2023, 2, 29), (2100, 2, 29), (2000, 2, 30), (2024, 4, 31), (2024, 13, 1), (2024, 0, 1), (2024, 1, 0)].all
      (fun q => status (ymd q.1 q.2.1 q.2.2)) = true ∧
    [(2024, 2, 29), (2000, 2, 29), (2399, 12, 31), (2000, 1, 1)].all
      (fun q => after (.timeSetYmdWrite (ymd q.1 q.2.1 q.2.2)) State.reset (fun t => t.reg RG.TIME_SET_YMD 0 0 == ymd q.1 q.2.1 q.2.2)) = true ∧
    [(24, 0, 0), (0, 60, 0), (0, 0, 60)].all (fun q => after (.timeSetHmsWrite (hms q.1 q.2.1 q.2.2)) State.reset
      (fun t => t.fld F.TIME_STAT_SET_STATUS 0 0 == 2)) = true ∧
    after (.timeSetHmsWrite (hms 23 59 59)) State.reset (fun t => t.reg RG.TIME_SET_HMS 0 0 == hms 23 59 59) = true := by decide +kernel

/-- A clock that PTP disciplines, through port 95: its master (rank empty, identity zeros), and the message `data` from node 7 in the
port's PTP channel. -/
def tPtp (data : Bytes) : State :=
  let s := tSet (tPort { rx := [(2, ({ op := 12, src := 7, data := data } : Txn).encode)] })
    [(F.TIME_CFG_PTP_EN, 0, 0, 1), (F.BRDL_PTP_PORT, 0, 0, 95), (F.BRDL_CHARTER_RANGE_EN, 0, 0, 1), (F.BRDL_CHARTER_RANGE_HI, 0, 0, 7),
      (F.BRDL_CHARTER_OPS_PTP, 0, 0, 1)]
  { s with time := { s.time with ptp := { master := some ([], List.replicate 10 0), announceFor := 10 ^ 10 } } }

theorem witness_TimeSetting :
    let s := tPtp []
    s.canon = true ∧ keysRise s.host.rings = true ∧ s.recovery = false ∧ s.ptpActive = true ∧ State.reset.ptpActive = false ∧
      10 ^ 9 ≤ (10 ^ 9) % 2 ^ 30 ∧ (10 ^ 9 - 1) % 2 ^ 30 < 10 ^ 9 := by decide +kernel

theorem test_timeSetGo :
    after (.timeSetGo 5) State.reset (fun t => t.time.set && t.fld F.TIME_STAT_SOURCE 0 0 == 1 && t.tai == 946684837 * 10 ^ 9) = true := by
  decide +kernel

/-- A pulse on the edge taken: the first, with a set-time command waiting, also under PTP, and with the clock set 1 s after the last
pulse; a UTC offset due (TIME_NEXT_AT 1) and none; a clock unsynced, and one not yet; a slew absorbed; a wrap, with an event ring of
16 entries that has room, and a moment before it. -/
theorem witness_WallTimeGoesOn :
    let pps := State.reset.setFld F.TIME_CFG_PPS_EN 0 0 1
    let due := State.reset.setReg RG.TIME_NEXT_AT_LO 0 0 1
    (pps.fld F.TIME_CFG_PPS_EN 0 0 ≠ 0 ∧ pps.fld F.TIME_CFG_PPS_FALL 0 0 = b2n false ∧ pps.ptpActive = false ∧ pps.time.armed = false ∧
      pps.time.set = false) ∧
    (let s := (tPtp []).setFld F.TIME_CFG_PPS_EN 0 0 1
     s.canon = true ∧ s.ptpActive = true ∧ s.fld F.TIME_CFG_PPS_EN 0 0 ≠ 0 ∧
       after (.ppsEdge false 5) { s with time := { s.time with armed := true } } (fun u => u.fld F.TIME_STAT_SET_STATUS 0 0 == 4) = true) ∧
    State.reset.fld F.TIME_CFG_PPS_EN 0 0 = 0 ∧
    (let s := { pps with mono := 1999900000, time := { pps.time with set := true, lastPps := some (10 ^ 9) } }
     s.canon = true ∧ s.ptpActive = false ∧ 10 ^ 9 + 999900000 ≤ s.mono ∧ s.mono ≤ 10 ^ 9 + 1000100000) ∧
    (let s := { due with time := { due.time with set := true, wall := 10 ^ 9 } }
     s.reg64 RG.TIME_NEXT_AT_LO RG.TIME_NEXT_AT_HI 0 0 = 1 ∧ 10 ^ 9 ≤ s.tai ∧ s.time.utcDone ≠ 1 ∧
       State.reset.reg64 RG.TIME_NEXT_AT_LO RG.TIME_NEXT_AT_HI 0 0 = 0) ∧
    ((State.reset.setFld F.TIME_STAT_UNSYNCED 0 0 0).fld F.TIME_STAT_UNSYNCED 0 0 = 0 ∧ 0 + 10 ^ 12 ≤ max 0 (10 ^ 12) ∧
      State.reset.time.lastSource = 0 ∧ max 0 (10 ^ 12 - 1) < 0 + 10 ^ 12) ∧
    ((State.reset.setFld F.TIME_STAT_SLEWING 0 0 1).fld F.TIME_STAT_SLEWING 0 0 = 1 ∧ slewed 500 (10 ^ 9) = 500) ∧
    (let s := tSet State.reset [(F.RING_EVT_CFG_EN, 511, 0, 1), (F.RING_EVT_CFG_LOG2, 511, 0, 4), (F.RING_EVT_TAIL_TAIL, 511, 0, 14)]
     s.fld F.RING_EVT_CFG_EN 511 0 = 1 ∧ s.fld F.RING_EVT_TAIL_TAIL 511 0 < 16 ∧ (14 + 1) % 16 ≠ s.fld F.RING_EVT_HEAD_HEAD 511 0 % 16 ∧
       max s.mono 5 < (s.time.rolled + 1) * (1000 * 2 ^ 32)) := by
  decide +kernel

/-- A PTP message of a type and domain whose source is identity zeros: its 34 byte header and `rest`. -/
def tPtpMsg (ty domain : Nat) (rest : Bytes) : Bytes :=
  [BitVec.ofNat 8 ty, 2, 0, 54, BitVec.ofNat 8 domain, 0, 2, 0] ++ List.replicate 26 0 ++ rest

/-- The messages of the master followed, a two-step and a one-step Sync; one of another domain; one of a node chartered for nothing. -/
theorem witness_PtpFollowsMaster :
    [11, 0, 8, 9].all (fun ty =>
      let s := tPtp (tPtpMsg ty 0 (List.replicate 30 0))
      match s.arrived 95 12 with
      | none => false
      | some q => s.canon && keysRise s.brdl.ports && s.ptpPort == some 95 && beAt q.data 0 1 % 16 == ty &&
        beAt q.data 4 1 == s.fld F.BRDL_PTP_DOMAIN 0 0 && bitOf (beAt q.data 6 1) 1 && s.chartered q.src 12 &&
        !(s.setFld F.BRDL_CHARTER_OPS_PTP 0 0 0).chartered q.src 12 && s.fld F.BRDL_PTP_MASTER_OK 0 0 == 0 && s.ptpActive &&
        s.time.ptp.master == some ([], slice q.data 20 10) && beAt q.data 30 2 == s.time.ptp.reqSeq) = true ∧
    (match (tPtp ((tPtpMsg 0 0 (List.replicate 30 0)).set 6 0)).arrived 95 12 with
      | none => false
      | some q => beAt q.data 0 1 % 16 == 0 && !bitOf (beAt q.data 6 1) 1) = true ∧
    (match (tPtp (tPtpMsg 11 1 [])).arrived 95 12 with
      | none => false
      | some q => beAt q.data 4 1 != (tPtp []).fld F.BRDL_PTP_DOMAIN 0 0) = true := by decide +kernel

/-- R379: a clock that may be master and follows none: with nothing arrived its Announce and its Sync are due, and a Delay_Req is
answered; one that may not be master. -/
theorem witness_PtpFollowsMaster_leads :
    (let s := (tPtp (tPtpMsg 1 0 (List.replicate 10 0))).setFld F.BRDL_PTP_MASTER_OK 0 0 1
     let s := { s with time := { s.time with ptp := {} } }
     s.time.ptp.follows 5 = false ∧ s.fld F.BRDL_PTP_MASTER_OK 0 0 = 1 ∧ s.ptpPort = some 95 ∧
       (match s.arrived 95 12 with
        | none => false
        | some q => beAt q.data 0 1 % 16 == 1 && s.chartered q.src 12) = true ∧
       after (.ptp 95 0 5) s (fun u => (u.port 95).out.length == 1) = true) ∧
    (let s := tSet (tPort {}) [(F.TIME_CFG_PTP_EN, 0, 0, 1), (F.BRDL_PTP_PORT, 0, 0, 95), (F.BRDL_PTP_MASTER_OK, 0, 0, 1)]
     s.arrived 95 12 = none ∧ s.time.ptp.follows 5 = false ∧ s.ptpPort = some 95 ∧
       after (.ptp 95 0 5) s (fun u => u.time.ptp.announced == some 5 && u.time.ptp.synced == some 5) = true ∧
       (s.setFld F.BRDL_PTP_MASTER_OK 0 0 0).fld F.BRDL_PTP_MASTER_OK 0 0 = 0) := by decide +kernel

/-- A Delay_Resp that answers this clock's own request. -/
theorem witness_PtpFollowsMaster_own :
    let me : Bytes := (leBytes 8 Config.ptpIdentity.toNat).reverse ++ [0, 1]
    slice (tPtpMsg 9 0 (List.replicate 10 0 ++ me)) 44 10 = me := rfl

/-- Idle, at work, in retain and dark, with power; without power; a change under way with nothing queued; and what wakes a device in
retain. -/
theorem witness_IdleStates :
    let s := { State.reset with pwr := { State.reset.pwr with off := false } }
    let at_ := fun (n : Nat) => s.setFld F.GLB_POWER_STATE_STATE 0 0 n
    (s.canon = true ∧ s.recovery = false ∧ bringOk {} = true ∧ s.pwr.change = none ∧ s.fld F.GLB_POWER_STATE_STATE 0 0 = 0 ∧ s.busyWork = false ∧
      s.pwr.off = false ∧ State.reset.pwr.off = true) ∧
    (({ parts := [(511, tPart)] } : State).busyWork = true) ∧
    ((at_ 1).canon = true ∧ (at_ 1).fld F.GLB_POWER_STATE_STATE 0 0 = 1 ∧ (at_ 2).fld F.GLB_POWER_STATE_STATE 0 0 = 2 ∧
      (at_ 1).fld F.GLB_POWER_STATE_CHANGING 0 0 = 0) ∧
    (let u := { at_ 2 with pwr := { s.pwr with change := some (0, 7) } }
     u.canon = true ∧ u.pwr.off = false ∧ u.pwr.change ≠ none ∧ u.pwr.queued = none ∧
       (u.setFld F.TACK_BRINGUP_READY 0 0 1).fld F.TACK_BRINGUP_READY 0 0 = 1) ∧
    (let u := tSet (tRing none) [(F.GLB_POWER_STATE_STATE, 0, 0, 1), (F.RING_CTX_PTR_TAIL, 2047, 30, 1)]
     let u := { u with host := {} }
     u.canon = true ∧ u.requesting 511 126 = true ∧ u.fld F.GLB_POWER_STATE_STATE 0 0 = 1) ∧
    (let u := tPort { rx := [(0, leBytes 1 1)] }
     (u.port 95).rx.any (fun q => fieldAt q.2 0 1 != 12) = true) := by decide +kernel

theorem test_glbReqDark :
    after (.glbReqDark 5) ({ larder := [(3, 4)], pwr := { off := false } } : State) (fun t => t.larder == []) = true := by decide +kernel

/-- The image the unit was made with is acceptable for either slot, also where the count is its own; images of another magic and below
the count are not. -/
theorem witness_FirmwareImages :
    let s := State.reset
    let up := tSet s [(F.PCIE_LINK_STAT_RATE, 0, 0, 5), (F.TACK_FW_STAT_TRIAL, 0, 0, 1), (F.TACK_FW_ABI_RANGE_MIN, 0, 0, 1), (F.TACK_FW_ABI_RANGE_MAX, 0, 0, 1)]
    (s.canon = true ∧ s.recovery = false ∧ s.linkUp 0 = false ∧ s.nv.staged = none ∧ s.err.log.length < 4096) ∧
    (up.canon = true ∧ up.linkUp 0 = true ∧ up.fwCheck [] ≠ 0 ∧ up.fwCheck NvSt.madeImage = 0 ∧ up.fld F.TACK_FW_STAT_SLOT 0 0 < 2 ∧
      up.fld F.TACK_FW_STAT_TRIAL 0 0 = 1 ∧ up.fld F.TACK_FW_ABI_RANGE_MIN 0 0 ≤ 1 ∧ 1 ≤ up.fld F.TACK_FW_ABI_RANGE_MAX 0 0 ∧
      ¬ 2 ≤ up.fld F.TACK_FW_ABI_RANGE_MAX 0 0 ∧ up.parts.any (fun e => e.2.harn.isSome) = false) ∧
    (({ s with nv := { s.nv with staged := some 1 } } : State).nv.staged = some 1 ∧
      ({ s with nv := { s.nv with svn := 2 ^ 32 - 1 } } : State).fwCheck NvSt.madeImage = 6) ∧
    (let u := { up with bring := { up.bring with kind := 1 }, nv := { up.nv with slotB := NvSt.madeImage } }
     u.fld F.TACK_BRINGUP_READY 0 0 = 0 ∧ u.fwCheck (u.fwSlot (1 - u.fld F.TACK_FW_STAT_SLOT 0 0)) = 0 ∧ 10 ^ 10 ≤ max u.mono (10 ^ 10)) ∧
    (let u := tSet s [(F.TACK_BRINGUP_SURVEY, 0, 0, 1), (F.TACK_BRINGUP_READY, 0, 0, 1)]
     u.canon = true ∧ u.fld F.TACK_BRINGUP_SURVEY 0 0 = 1 ∧ u.fld F.TACK_BRINGUP_READY 0 0 = 1) := by decide +kernel

/-- A device with power good at address 0x5B; sensors of both kinds, one that does not exist, and one of a converter. -/
theorem witness_ManagementBusAnswers :
    let s : State := { pwr := { pwrgd := true, addrSel := 3 } }
    (0x5B = 0x58 + s.pwr.addrSel ∧ s.pwr.pwrgd = true ∧ s.recovery = false ∧ s.fld F.TACK_BRINGUP_STAGE 0 0 ≠ 2 ∧ s.pwr.tripped = false) ∧
    (s.sensor 1 = some 0 ∧ s.sensor 19 = none ∧ ¬ State.reset.pwr.pwrgd = true) ∧
    ((s.setFld F.TACK_BRINGUP_READY 0 0 1).fld F.TACK_BRINGUP_READY 0 0 = 1 ∧ s.fld F.TACK_BRINGUP_SURVEY 0 0 = 0) := by decide +kernel

/-! ## Power, clocks and Rein -/

/-- Every physical room of `rs` in service at 600 mV and point `op`, its phases healthy and its converter running. -/
def tRooms (rs : List Nat) (op : Nat) (s : State := {}) : State :=
  let s := tSet s (rs.flatMap (fun r => [(F.CLK_ROOM_STAT_OP, r, 0, op), (F.PWR_ROOM_MV_TARGET_MV, r, 0, 600)] ++
    (List.range 12).map (fun n => (F.PWR_PHASE_STAT_HEALTHY, r, n, 1))))
  { s with pwr := { s.pwr with rooms := rs.map (fun r => (r, { conv := true, seq := 10 })), off := false } }

/-- A KNOCK bundle of the last core, a knock in force whose HOLD is over and not over, one that raised the room in high-bandwidth mode,
a droop by exactly 30 mV, its recovery to exactly 15 mV, and an occurrence of a room and of the device at its end after exactly 1 ms. -/
theorem witness_KnocksAndDroop :
    (let s := tCore {} 0 0 0 0 4
     s.canon = true ∧ keysRise s.pwr.rooms = true ∧ keysRise s.rein.occ = true ∧ s.ctlSlot 12287 4 = some (511, 4)) ∧
    (let s := tRooms [99] 2
     s.canon = true ∧ s.roomLive 99 = true ∧ 570 + 30 ≤ s.fld F.PWR_ROOM_MV_TARGET_MV 99 0 ∧ ¬ 571 + 30 ≤ s.fld F.PWR_ROOM_MV_TARGET_MV 99 0 ∧
       s.fld F.PWR_ROOM_STAT_DROOP_STRETCH 99 0 = 0) ∧
    (let s := (tRooms [99] 2).setFld F.PWR_ROOM_STAT_DROOP_STRETCH 99 0 1
     s.fld F.PWR_ROOM_STAT_DROOP_STRETCH 99 0 = 1 ∧ s.fld F.PWR_ROOM_MV_TARGET_MV 99 0 ≤ 585 + 15) ∧
    [false, true].all (fun hb =>
      let n : Knock := ⟨0, 50, hb, 1⟩
      let s : State := { pwr := { rooms := [(99, { seq := 10, knocks := [n] })] } }
      s.canon && (s.room 99).knocks[0]? == some n && n.hold == 1 && !(s.room 99).hbBack &&
        after (.knockHoldEnd 99 (0, 255)) s (fun u => (u.room 99).knocks == [n]) &&
        after (.knockHoldEnd 99 (0, 256)) s (fun u => (u.room 99).knocks == [] && (u.room 99).hbBack == hb)) = true ∧
    [99, devScope].all (fun sc =>
      let s : State := { rein := { occ := [(128 * 10 + sc, { start := 3, last := 7 })] }, mono := 7 }
      s.canon && s.occ 10 sc != {} && !(s.occ 10 sc).on && decide ((s.occ 10 sc).last + 1000000 ≤ max s.mono 1000007) && !s.recovery) = true := by
  decide +kernel

/-- R432: the stretch begins at a droop of 30 mV, and not at one of 29. -/
theorem test_droop :
    after (.droopStretchStart 99 570 5) (tRooms [99] 2) (fun t => t.fld F.PWR_ROOM_STAT_DROOP_STRETCH 99 0 == 1) = true ∧
    after (.droopStretchStart 99 571 5) (tRooms [99] 2) (fun t => t.fld F.PWR_ROOM_STAT_DROOP_STRETCH 99 0 == 0) = true := by decide +kernel

/-- Busbars at 46 V and above it, a trip still to come and one latched. -/
theorem witness_SuppliesFail :
    let s := tRooms [0, 99] 2
    s.canon = true ∧ s.pwr.tripped = false ∧ (some 99).getD 0 < 100 ∧ (none : Option Nat).getD 0 < 100 ∧ s.reg RG.PWR_BUS 0 0 = 0 ∧
      b2n (decide (46000 < 46000)) + 2 * b2n (decide (46000 < 46001)) = 2 ∧
      ({ s with pwr := { s.pwr with tripped := true } } : State).pwr.tripped = true := by decide +kernel

/-- A porch converter whose partner runs and whose partner is gone; a converter whose tie can close, one whose pair is dark, one that
carries its partner's load, and a corner's; in service and at a bring-up; a phase of twelve and of six; an overcurrent; neighbours 41 K
apart, the hotter one at OP2, at OP0 and rising, and 40 K apart. -/
theorem witness_RoomSuppliesFail :
    let s := tRooms [0, 11, 12, 13] 2
    (s.canon = true ∧ keysRise s.pwr.rooms = true ∧ keysRise s.rein.occ = true ∧ s.recovery = false ∧ s.bring.kind = 0 ∧
      ({ s with bring := { kind := 1, waves := [(1, 12)] } } : State).bring.waves ≠ []) ∧
    [0xFF, 0xBF].all (fun v => bitOf ((s.setFld F.PWR_PORCH_CONV_OK 0 0 v).fld F.PWR_PORCH_CONV_OK 0 0) 7) = true ∧
    (s.convOk 12 = true ∧ tiePair 12 = some (5, 13) ∧ s.convOk 13 = true ∧ s.convOk 11 = true ∧ tiePair 11 = some (4, 10) ∧
      s.convOk 10 = false ∧ s.tieClosed 4 = false ∧ s.convOk 0 = true ∧ tiePair 0 = none ∧ s.convOk 14 = false) ∧
    after (.roomConverterFail 12 5) s (fun u => u.tieClosed 5 && !u.convOk 12 && u.convOk 13 && (u.room 13).seq == 10 &&
      after (.roomConverterFail 13 6) u (fun v => v.hole 12 && v.hole 13 && v.room 12 == {})) = true ∧
    (s.fld F.PWR_PHASE_STAT_HEALTHY 13 11 = 1 ∧ 7 ≤ s.healthyPhases 13 ∧ s.fld F.PWR_PHASE_STAT_HEALTHY 14 11 = 0 ∧
      (let u := tSet s ((List.range 6).map (fun n => (F.PWR_PHASE_STAT_HEALTHY, 13, n, 0)))
       u.fld F.PWR_PHASE_STAT_HEALTHY 13 11 = 1 ∧ u.healthyPhases 13 = 6 ∧ u.roomLive 13 = true ∧ (u.room 13).seq ≠ 0 ∧
         u.fld F.PWR_ROOM_STAT_DARK 13 0 = 0)) ∧
    (s.roomLive 13 = true ∧ s.roomLive 14 = false) ∧
    (besides 12 13 = true ∧ s.roomLive 12 = true ∧ s.roomLive 13 = true ∧ 86 + 40 < 127 ∧ (s.room 13).chg = 0 ∧ s.roomOpp 13 ≠ 0 ∧
      ((tRooms [12, 13] 0).roomOpp 13 = 0 ∧ ((s.modRoom 13 (fun x => { x with chg := 3 })).room 13).chg = 3)) := by
  decide +kernel

theorem witness_ShedStretches :
    let s := tRooms [0, 99] 2
    s.canon = true ∧ keysRise s.rein.occ = true ∧ s.pwr.shed = false ∧ s.roomLive 99 = true ∧
      ({ s with pwr := { s.pwr with shed := true } } : State).pwr.shed = true := by decide +kernel

/-- Both references, one and none; a room on its first source with another, with none, and holding over past 1 ms. -/
theorem witness_ReferencesComeAndGo :
    let s := tRooms [99] 2
    let both := tSet s [(F.CLK_REF_STAT_A_PRESENT, 0, 0, 1), (F.CLK_REF_STAT_B_PRESENT, 0, 0, 1)]
    (s.canon = true ∧ keysRise s.pwr.rooms = true ∧ keysRise s.rein.occ = true ∧ s.refA = false ∧ s.refB = false) ∧
    (both.canon = true ∧ both.refA = true ∧ both.refB = true ∧ (both.setFld F.CLK_REF_STAT_B_PRESENT 0 0 0).refB = false) ∧
    (let u := tSet both [(F.CLK_ROOM_SRC_PRESENT, 99, 0, 1), (F.CLK_ROOM_SRC_PRESENT, 99, 3, 1), (F.CLK_ROOM_SRC_KIND, 99, 3, 1)]
     (u.room 99).seq = 10 ∧ u.fld F.CLK_ROOM_STAT_HOLDOVER 99 0 = 0 ∧ u.fld F.CLK_ROOM_STAT_SRC 99 0 = 0 ∧ u.fld F.CLK_ROOM_SRC_PRESENT 99 3 = 1 ∧
       u.srcPresent 99 (u.fld F.CLK_ROOM_SRC_KIND 99 3) = true ∧
       u.fld F.CLK_ROOM_SRC_PRESENT 99 1 = 0 ∧ u.fld F.CLK_ROOM_SRC_PRESENT 99 2 = 0 ∧
       (List.range 4).all (fun k => s.fld F.CLK_ROOM_SRC_PRESENT 99 k == 0) = true) ∧
    (let u := (both.setFld F.CLK_ROOM_STAT_HOLDOVER 99 0 1).setFld F.CLK_ROOM_SRC_KIND 99 3 1
     u.fld F.CLK_ROOM_STAT_HOLDOVER 99 0 = 1 ∧ (u.room 99).holdSince + 1000000 < max u.mono 1000001 ∧
       u.srcPresent 99 (u.fld F.CLK_ROOM_SRC_KIND 99 3) = true) := by decide +kernel

/-- A room at each stage of a change, its target in its own clock group and in the other, also with its target forced lower after the
voltage has risen, and one of whose cores works. -/
theorem witness_PointsChange :
    [0, 1, 2, 3, 5].all (fun n => [1, 3].all (fun target => [none, some 0, some 2].all (fun (forced : Option Nat) =>
      let s := (tRooms [99] 2).setFld F.CLK_ROOM_STAT_OP_TARGET 99 0 target
      let s := s.modRoom 99 (fun x => { x with chg := n, forcedOp := forced })
      s.canon && keysRise s.pwr.rooms && (s.room 99).chg == n && s.roomOpp 99 == 2 && s.opLimit 99 == 4 && (s.room 99).forcedOp == forced &&
        (decide (min target (s.opLimit 99) ≤ 1) != decide (target = 3)) && (s.roomCores 99).all s.coreStopped))) = true ∧
    (let s := (tRooms [99] 2).modRoom 99 (fun x => { x with chg := 5, forcedOp := some 0 })
     after (.voltageRampDone 99 5) s (fun u => (u.room 99).chg == 2 && u.fld F.CLK_ROOM_STAT_OP_TARGET 99 0 == 0) = true) ∧
    (let s := tSet (tCore {} 0 0 0 0 0) [(F.GLB_ROOM_MAP_PHYS_X, 0, 95, 9), (F.GLB_ROOM_MAP_PHYS_Y, 0, 95, 9)]
     let r := 99
     let s := { s with pwr := { rooms := [(r, { conv := true, seq := 10, chg := 2 })] } }
     s.canon = true ∧ (s.room r).chg = 2 ∧ (s.roomCores r).all s.coreStopped = false) := by decide +kernel

/-- Readings of two live rooms, one at exactly 95 °C, one at rest; the readings of a room's converter; and before READY. -/
theorem witness_ReinDecides :
    let s := tSet (tRooms [0, 99] 2) [(F.TACK_BRINGUP_READY, 0, 0, 1)]
    let rooms : List (Nat × Nat × Bool × Int) := [(0, 0, true, 94), (99, 200, false, 95)]
    let sense : List (Nat × Nat × Nat × List Nat) := [(99, 599, 1200, List.replicate 12 9)]
    s.canon = true ∧ keysRise s.pwr.rooms = true ∧ keysRise s.rein.occ = true ∧ rooms.all (fun q => decide (q.1 < 100)) = true ∧
      (rooms.map (fun q => q.1)).Nodup ∧ s.fld F.TACK_BRINGUP_READY 0 0 ≠ 0 ∧ s.fld F.GLB_POWER_STATE_STATE 0 0 = 0 ∧
      sense.all (fun q => decide (q.1 < 100) && decide (q.2.1 < 1024) && decide (q.2.2.1 < 2 ^ 16) && q.2.2.2.all (fun a => decide (a < 256))) = true ∧
      s.roomLive 0 = true ∧ s.roomLive 99 = true ∧ (s.room 99).chg = 0 ∧ s.rein.fac ≤ ((s.fld F.REIN_FAC_TARGET_W 0 0 : Nat) : Rat) ∧
      (tRooms [0] 2).fld F.TACK_BRINGUP_READY 0 0 = 0 := by
  decide +kernel

/-- Inlet readings at the limits of their range and beyond; a duty of 90 %; a fan at the speed it needs and below it; before READY
and after it. -/
theorem witness_CoolingFollowsReadings :
    let s := tSet (tRooms [99] 2) [(F.REIN_FAN_DUTY, 0, 0, 90), (F.REIN_FAN_OK, 0, 0, 0x7F), (F.REIN_FAN_EXPECT_RPM_100, 0, 0, 1000)]
    s.canon = true ∧ keysRise s.rein.occ = true ∧ 90 ≤ s.fld F.REIN_FAN_DUTY 0 0 ∧ bitOf (s.fld F.REIN_FAN_OK 0 0) 6 = true ∧
      bitOf (s.fld F.REIN_FAN_OK 0 0) 7 = false ∧ s.fld F.REIN_FAN_EXPECT_RPM_100 0 0 * s.fld F.REIN_FAN_DUTY 0 0 = 90 * 1000 ∧
      s.fansOk = false ∧ ((tSet s [(F.REIN_FAN_OK, 0, 0, 0xFF)]).fansOk = true) ∧ s.fld F.TACK_BRINGUP_READY 0 0 = 0 ∧
      s.rein.degraded = none ∧ State.reset.rein.rth < 7500 ∧
      after (.inletPoll (some 71) (some (-11)) (some 70) none 5) s (fun t => toSigned 8 (t.fld F.REIN_TEMP_T_IN 0 0) == 70) = true ∧
      after (.inletPoll (some 71) (some (-11)) none none 5) s (fun t => toSigned 8 (t.fld F.REIN_TEMP_T_IN 0 0) == 45) = true := by
  decide +kernel

/-! ## Bring-up and the whole block -/

/-- The unit as made, one without an acceptable image, and one whose copies of the record do not agree. -/
theorem witness_ColdBringupStarts :
    let s := State.reset
    s.canon = true ∧ bringOk { busA := 46001, busB := 46000 } = true ∧ s.nv.inc < 65536 ∧
      s.bootOrder.find? (fun k => s.fwCheck (s.fwSlot k) == 0) = some 0 ∧ s.agreed = some ([], true) ∧
      (let e := { s with nv := { s.nv with slotA := [] } }
       e.bootOrder.find? (fun k => e.fwCheck (e.fwSlot k) == 0) = none) ∧
      (let e := { s with nv := { s.nv with flashA := { s.nv.flashA with intact := false }, efuseOk := false } }
       e.agreed = none) := by decide +kernel

/-- Rooms 12 (short stage 8 and short stages), 13 and 22 around it at every step of power-up. -/
theorem witness_RoomsPowerUp :
    let at_ := fun (x : RoomPwr) => ({ pwr := { rooms := [(12, x), (13, { conv := true, seq := 8 }), (22, { conv := true, seq := 8, held := true })] } } : State)
    (let s : State := { bring := { kind := 1, waves := [(1, 12), (2, 22)], waveAt := some 5 }, pwr := { off := false } }
     s.canon = true ∧ (1, 12) ∈ s.bring.waves ∧ (∀ e ∈ s.bring.waves, 1 ≤ e.1) ∧ s.anyPowering = false ∧ s.pwr.off = false ∧
       5 + 200000 ≤ max s.mono 200005 ∧ s.canPower 12 = true ∧ (2, 22) ∈ s.bring.waves ∧ (2, 22).1 ≠ 1 ∧
       (s.setFld F.PWR_ROOM_STAT_CONV_FAIL 12 0 1).canPower 12 = false ∧
       ((List.range 12).filter (fun n => s.fld F.PWR_PHASE_STAT_FAULT 12 n == 0)).length = 12 ∧
       (let u := tSet s ((List.range 7).map (fun n => (F.PWR_PHASE_STAT_FAULT, 12, n, 1)))
        u.canPower 12 = true ∧ ((List.range 12).filter (fun n => u.fld F.PWR_PHASE_STAT_FAULT 12 n == 0)).length = 5 ∧
          after (.powerWaveStart 200005) u (fun v => (v.room 12).seq == 10 && !v.roomLive 12) = true)) ∧
    [1, 8].all (fun n =>
      let s := at_ { conv := true, seq := n }
      s.canon && keysRise s.pwr.rooms && !s.recovery && s.powering 13 && (aroundRoom 12).contains 13 && decide ((s.room 13).seq ≤ 8) &&
        !(s.room 12).held) = true ∧
    (let s := at_ { conv := true, seq := 9 }
     let s := s.setFld F.PWR_ROOM_MV_TARGET_MV 12 0 600
     s.canon = true ∧ (s.room 12).seq = 9 ∧ (s.room 12).retry = [] ∧ s.fld F.PWR_ROOM_MV_TARGET_MV 12 0 ≤ 580 + 20 ∧
       579 + 20 < s.fld F.PWR_ROOM_MV_TARGET_MV 12 0 ∧ s.powering 13 = true ∧ s.surveying = false ∧
       (s.testedTiles 12).filter (fun y => [].contains y) = []) ∧
    (let s := tSet (at_ { conv := true, seq := 9, retry := [7] })
       [(F.GLB_ROOM_MAP_PHYS_X, 0, 0, 2), (F.GLB_ROOM_MAP_PHYS_Y, 0, 0, 1), (F.ROOM_TILE_MAP_PHYS_TILE, 12, 31, 7)]
     (s.testedTiles 12).filter (fun y => [7].contains y) = [7] ∧
       after (.roomFullCheck 12 600 [7] 5) s (fun u => u.tileRetired 12 7 && (u.room 12).seq == 10) = true) ∧
    (let s : State := { bring := { faults := [12, 95] }, pwr := { rooms := [(22, { held := true }), (95, { seq := 10, drooped := [12] })] } }
     s.canon = true ∧ s.bring.faults.contains 12 = true ∧ 22 ∈ aroundRoom 12 ∧ (s.room 22).held = true ∧ (∀ f ∈ [95], 22 ∉ aroundRoom f) ∧
       (s.room 95).drooped.contains 12 = true ∧
       after (.inrushFaultClear 12 5) s (fun u => (u.room 95).recheck && (u.room 95).seq == 9 && (u.room 22).heldUntil == some 50005) = true) ∧
    ((at_ { heldUntil := some 50000, held := true }).room 12).heldUntil = some 50000 := by decide +kernel

/-- R437, R439: a header stage ends at a rail of 0.2 V and a current of 250 A, not below it nor above; a room that drooped is named. -/
theorem test_headerStageEnd :
    let s : State := { pwr := { rooms := [(12, { conv := true, seq := 3 }), (13, { conv := true, seq := 2 }), (99, { conv := true, seq := 10 })] } }
    after (.headerStageEnd 12 200 (2500, []) 5) s (fun t => (t.room 12).seq == 4) = true ∧
    after (.headerStageEnd 12 199 (2500, [99]) 5) s (fun t => (t.room 13).held && t.fld F.PWR_ROOM_STAT_FAILED 12 0 == 1 &&
      (t.room 99).drooped == [12]) = true ∧
    after (.headerStageEnd 12 200 (2501, []) 5) s (fun t => t.room 12 == {}) = true := by decide +kernel

/-- A logical room that works beside a partition's step and apart from it; one whose room is retired, with a spare; a bring-up with
everything powered and tested. -/
theorem witness_BringupsEnd :
    let up := tSet ({ parts := [(511, tPart)], pwr := { off := false } } : State) [(F.TACK_BRINGUP_READY, 0, 0, 1)]
    up.canon = true ∧ keysRise up.pwr.rooms = true ∧ bringOk {} = true ∧ up.bring.kind = 0 ∧ up.fld F.GLB_POWER_STATE_STATE 0 0 = 0 ∧
      up.fld F.TACK_BRINGUP_READY 0 0 = 1 ∧ up.fld F.GLB_ROOM_MAP_OUT_OF_SERVICE 0 95 = 0 ∧ up.pwr.off = false ∧ up.roomBusy 95 = true ∧
      up.roomBusy 94 = false ∧
      tget up.roomRetire (up.physRoom 94) 0 = 0 ∧ up.fld F.GLB_ROOM_MAP_SHORT 0 94 = 0 ∧ up.hole (up.physRoom 94) = false ∧
      up.canPower (up.physRoom 94) = true ∧
      (let u := tSet up [(F.GLB_ROOM_MAP_PHYS_X, 0, 94, 2), (F.GLB_ROOM_MAP_PHYS_Y, 0, 94, 1), (F.GLB_ROOM_MAP_SHORT, 0, 94, 1),
         (F.GLB_SPARE_ROOM_STAT_NW_FREE, 0, 0, 1)]
       u.physRoom 94 = 12 ∧ u.fld F.GLB_ROOM_MAP_SHORT 0 94 = 1 ∧ ((u.retireRoom 12).pickSpare 12).isSome = true) ∧
      (let s : State := { bring := { kind := 1 } }
       s.canon = true ∧ s.bring.waves = [] ∧ s.anyPowering = false ∧ s.bring.untested = [] ∧ s.surveying = false ∧
         ({ s.trainCellar with hall := { s.hall with links := [] } } : State).hallFault = none) := by decide +kernel

/-- The pages of every row of its own, and the last page of each type that has more. -/
theorem witness_RegisterWritesRunTheirRows :
    let s := tHall {}
    ([(0x3, 0x3, 0), (0x7, 0x7, 0), (0x8, 0x8, 0), (0x9, 0x9, 0), (0x1, 0, 0), (0x20, 0x1F6, 374), (0x22, 0x5FF, 511), (0x27, 0xFFF, 511),
      (0x31, 0xF15F, 95), (0x33, 0xF301, 1), (0x34, 0xF302, 0), (0x32, 0xF200, 0), (0x35, 0xF7FF, 1023), (0x41, 0xFF01, 0),
      (0x50, 0x10, 512), (0x51, 0x12, 513), (0x54, 0x17, 2051)] : List (Nat × Nat × Nat)).all (fun q =>
        s.pageAt 513 (pg q.2.1 0x40) == some (q.1, q.2.2) && !s.pageShut q.1 q.2.2 && decide (q.2.2 < pagesOf q.1) &&
          decide (pg q.2.1 0xFFC < barBytes 513)) = true ∧
    [(0, 0x50, 511), (1, 0x51, 511), (7, 0x54, 2047)].all (fun q => s.pageAt 511 (pg q.1 0x40) == some q.2 && !s.pageShut q.2.1 q.2.2) = true ∧
    s.canon = true ∧ s.recovery = false ∧ s.pageIdle 0x25 511 = false := by decide +kernel

/-- A command whose operands name units that exist, and the same row beyond them (each row's own pair stands above); a queue with a
command in front; and an empty one. -/
theorem witness_CommandsRunWhenWellFormed :
    (Instr.mac 12287 1 []).wf = true ∧ (Instr.mac 12288 1 []).wf = false := by decide

/-- A step of a canonical state with a command in front (StepRunsFront, StepKeepsCanon, StepKeepsWhatIsBurnt), and an empty queue. -/
theorem witness_StepKeepsCanon :
    let s : State := { State.reset with pending := [.quiesceDone 511, .glbReqDark 5] }
    s.canon = true ∧ (match step s with
      | .next t => t.pending == [.glbReqDark 5] && t.canon
      | _ => false) = true ∧ State.reset.pending = [] := by decide +kernel

/-! ## Partitions, steps and boundaries -/

/-- A creation that nothing refuses (tile 3071, no cellar), one whose tile is taken; a partition in each of its states; a
destruction that a record holds. -/
theorem witness_PartitionLives :
    let s := ((State.reset.setFld F.TACK_BRINGUP_READY 0 0 1).setReg RG.TACK_PART_TILES 511 95 (2 ^ 31)).setFld F.HALL_CFG_SHARED 0 0 1
    s.canon = true ∧ keysRise s.host.rings = true ∧ s.fld F.TACK_BRINGUP_READY 0 0 = 1 ∧ (s.part 511).pstate = .free ∧
      s.createRefusal 511 = none ∧ s.mtr.lines.all (fun e => e.1 != 511) = true ∧ s.namedTiles RG.TACK_PART_TILES 511 = [3071] ∧
      ({ s with parts := [(0, { pstate := .live, tiles := [3071] })] } : State).createRefusal 511 = some St.PART_FAULT ∧
      (tHall {}).canon = true ∧ ((tHall {}).part 511).pstate = .live ∧ (tHall {}).host.rings = [] ∧ (tHall {}).mtr.due = [] ∧
      (({ parts := [(511, { pstate := .zeroising, tiles := [3071] })] } : State).part 511).pstate = .zeroising ∧
      (({ parts := [(511, { pstate := .zeroising, tiles := [3071] })] } : State).zeroReached [3071]) = true ∧
      (({ parts := [(511, { pstate := .zeroising, tiles := [3071] })] } : State).operCellSlot) = true := by decide +kernel

/-- R397: the record of a request that had ended waits for its ring, whose consumer has left it no room, and holds the
destruction's disabling of the rings back. -/
theorem test_destroyHeld :
    let s := (tRing (some { op := 2, cring := 127, status := some St.OK })).setRf F.RING_CTX_PTR_HEAD 511 127 1
    after (.partDestroy 511 0) s (fun u => (u.part 511).pstate == .zeroising && (u.part 511).leaving && u.recordsHeld 511 &&
      u.rf F.RING_CTX_CFG_EN 511 127 == 1) = true := by decide +kernel

/-- A move to tile 2 of another room, while an attempt runs and between steps; to a tile that is taken; links that may train. -/
theorem witness_MovesAndResets :
    let to_ := fun (x : PartSt) => (({ parts := [(511, x)] } : State).setReg RG.TACK_PART_NEW_TILES 511 0 4)
    let s := to_ { tPart with running := true }
    let idle := to_ { tPart with running := false }
    s.canon = true ∧ keysRise s.host.rings = true ∧ (s.part 511).pstate = .live ∧ (s.part 511).moveTo = none ∧
      s.moveOk 511 (s.namedTiles RG.TACK_PART_NEW_TILES 511) = true ∧ (s.part 511).running = true ∧
      idle.moveOk 511 (idle.namedTiles RG.TACK_PART_NEW_TILES 511) = true ∧ (idle.part 511).running = false ∧ (idle.part 511).migrating = 0 ∧
      (idle.part 511).tail = none ∧ (idle.fld F.HALL_GEN_GEN 511 0 + 1) % 32768 ≠ 0 ∧
      (let t := { s with parts := [(0, { pstate := .live, tiles := [2] }), (511, tPart)] }
       t.moveOk 511 (t.namedTiles RG.TACK_PART_NEW_TILES 511) = false) ∧
      (let up := tSet { s with pwr := { s.pwr with off := false } }
        [(F.CLK_REF_STAT_A_PRESENT, 0, 0, 1), (F.CLK_REF_STAT_B_PRESENT, 0, 0, 1), (F.TACK_BRINGUP_STAGE, 0, 0, 3)]
       up.linkMayTrain 0 = true ∧ up.linkMayTrain 1 = true) := by decide +kernel

/-- R557: PERST_N low for 100 µs resets its port, for 99 µs nothing. -/
theorem test_perstN :
    after (.perstN 1 100 5) (tRing none) (fun t => !t.linkUp 1 && (t.part 511).flrHold) = true ∧
    after (.perstN 1 99 5) (tRing none) (fun t => t.linkUp 1 && !(t.part 511).flrHold) = true := by decide +kernel

/-- A LOAD_HARNESS, a replay's result, a scalar load and a copy unit that have waited exactly 50 ms for port 1. -/
theorem witness_HostWindowTimeouts :
    [({ op := 1, arg0 := 5 * 2 ^ 60, len := 64 } : Req), { op := 7, started := true, bursts := 0, hostSince := some 0 }].all (fun q =>
      let s := (tRing (some q)).setFld F.PCIE_LINK_STAT_RATE 1 0 0
      s.canon && keysRise s.host.rings && s.req (ringKey 511 126) == some q && q.status == none && s.hostIssue 511 q == some 0 &&
       !s.linkUp (portOf 511) && decide (0 + 50000000 ≤ max s.mono 50000000) &&
       after (.hostWindowTimeout 2 511 126 50000000) s (fun u => ((u.req (ringKey 511 126)).bind (fun q => q.status)) == some St.LINK_LOST)) = true ∧
    (let f : Flit := { id := 3, part := 511, dst := .host 1 0 }
     let s := tHall f
     s.hall.flits.find? (fun g => g.id == 3) = some f ∧ f.dst = .host 1 0 ∧ f.resp = false ∧ s.linkUp 1 = false ∧ f.born + 50000000 ≤ 50000000) ∧
    (let y : CopySlot := { linkWait := some (5, 0) }
     let s := tCore { slots := [(47, some y)] } 0 0 0 0 0
     s.canon = true ∧ s.partOfCore 12287 = some 511 ∧ tget (s.core 12287).slots 47 none = some y ∧ s.linkUp (portOf 511) = false ∧
       keysRise (s.core 12287).slots = true ∧ y.worst = 0) := by decide +kernel

/-- An attempt that may start, first, again with a checkpoint asked for, and in a replay; one whose cores have all ended, also
with a norm to check; and one that is closed, with each vote, and in a replay. -/
theorem witness_AttemptsAndVotes :
    [0, 1].all (fun att =>
      let s : State := { parts := [(511, { tPart with running := false, attempt := att, run := some (ringKey 511 126) })], pwr := { off := false } }
      let s := if att = 0 then s else (tCell s).setFld F.TACK_JRNL_CFG_AUTO_CKPT 511 0 1
      s.canon && s.mayStart 511 && (s.part 511).attempt == att && (s.part 511).finalVote != voteSkip && s.boundaryServed 511 64 &&
       s.fld F.TACK_JRNL_CFG_AUTO_CKPT 511 0 == att && (s.part 511).replayOpen.isNone) = true ∧
    (let g : ReplayRun := { key := ringKey 511 126, to_ := 0, result := 0, stopOn := false, ents := [{ kind := 1, payload := List.replicate 64 0 }, { kind := 7 }] }
     let s : State := { parts := [(511, { tPart with running := false, long := { replay := some g } })], pwr := { off := false } }
     s.mayStart 511 = true ∧ (s.part 511).replayOpen.isSome = true) ∧
    [none, some 4096].all (fun (b : Option Nat) =>
      let s : State := { parts := [(511, { tPart with harn := some { tPart.harness with voteBase := b, voteGroups := if b.isSome then 1 else 0 } })]
                         cores := [(12284, { ended := true }), (12285, { ended := true }), (12286, { ended := true }), (12287, { ended := true })] }
      s.canon && (s.part 511).active && (s.part 511).cores.all (fun c => (s.core c).ended) && (s.part 511).jobs == [] &&
       (s.part 511).harness.voteBase == b && decide (s.pcount 511 ≤ 1) && (s.part 511).xg.outbox.isEmpty &&
       after (.attemptClose 511 0) s (fun t => (t.part 511).closed)) = true ∧
    [(0, 0), (1, 0), (2, 0), (1, 2)].all (fun q =>
      let s : State := { parts := [(511, { tPart with closed := true, vote := q.1, attempt := q.2 })] }
      let x := s.part 511
      s.canon && x.running && x.closed && x.stopped.isNone && !x.boundaryHeld && decide (s.pcount 511 ≤ 1) && x.long.replay.isNone &&
        (s.replayMessage 511).isNone && !s.noEntry 511 0 0xFFFFFFFF && s.boundaryServed 511 128 && x.xg.outbox.isEmpty) = true ∧
    (let g : ReplayRun := { key := ringKey 511 126, to_ := 0, result := 0, stopOn := false, ents := [{ kind := 1 }, { kind := 7, key1 := 1 }] }
     let s : State := { parts := [(511, { tPart with closed := true, long := { replay := some g } })] }
     let x := s.part 511
     x.replayClose.map (fun e => e.key1) = some 1 ∧ s.replayMessage 511 = none ∧ s.noEntry 511 0 0xFFFFFFFF = false ∧
       s.boundaryServed 511 128 = true ∧ after (.finalVote 511 0) s (fun t => (t.part 511).finalVote == voteReplay) = true) ∧
    [(0, 0), (1, 1), (2, 1)].all (fun q =>
      let s : State := { parts := [(511, { tPart with closed := true, xg := { closes := [(1, q.2)] } })] }
      let s := tSet s [(F.BRDL_XG_CFG_PCOUNT, 511, 0, 2)]
      s.allClosed 511 && s.ordinal 511 == 0) = true := by decide +kernel

/-- R309: a third REPLAY is a SKIP. -/
theorem test_finalVote :
    let at_ := fun (n : Nat) => ({ parts := [(511, { tPart with closed := true, vote := voteReplay, attempt := n, step := 6 })] } : State)
    after (.finalVote 511 5) (at_ 1) (fun t => (t.part 511).attempt == 2 && (t.part 511).step == 6) = true ∧
    after (.finalVote 511 5) (at_ 2) (fun t => (t.part 511).attempt == 0 && (t.part 511).step == 7 && (t.part 511).finalVote == voteSkip) = true := by
  decide +kernel

/-- A partition that migrates with nothing in flight and with something; a substitution in another room than a neighbour's; a move
of one tile; and the same with contents that cannot be read. -/
theorem witness_Migrations :
    (let s : State := { parts := [(511, { tPart with running := false, migrating := 1 })] }
     s.canon = true ∧ (s.part 511).migrating = 1 ∧ s.inFlight 511 = 0 ∧
       ({ s with hall := { flits := [{ part := 511, inj := true }] } } : State).inFlight 511 = 1) ∧
    (let s : State := { parts := [(511, { tPart with running := false, migrating := 2, subs := [(95, 31, 35)] })] }
     s.canon = true ∧ s.mgmtDone 511 = true ∧ s.boundaryServed 511 64 = true ∧ (s.part 511).moveTo = none ∧ (s.part 511).subs = [(95, 31, 35)] ∧
       s.physRoom 95 < 100 ∧ s.sliceMarked (32 * 95 + 31) = false ∧ (s.part 511).stopped = none ∧
       after (.migrationDone (511, true)) s (fun u => (u.part 511).stopped == some St.TILE_LOST) = true) ∧
    (let s : State := { parts := [(511, { tPart with running := false, migrating := 2, moveTo := some [2] })] }
     s.canon = true ∧ s.mgmtDone 511 = true ∧ (s.part 511).subs = [] ∧ (s.part 511).tiles = [3071] ∧ (s.part 511).moveTo = some [2] ∧ s.sliceMarked 3071 = false) := by
  decide +kernel

/-! ## The Meter -/

/-- An interval's end within a day, and a moment before it; a tick of the budget, and a moment before it. -/
theorem witness_MeterIntervals :
    let s := State.reset.setFld F.MTR_STAT_RUNNING 0 0 1
    s.canon = true ∧ keysRise s.mtr.lines = true ∧ s.fld F.MTR_STAT_RUNNING 0 0 ≠ 0 ∧ s.mtr.lastEnd + 10 ^ 6 ≤ max s.mono (10 ^ 6) ∧
      ({ s with mono := max s.mono (s.mtr.lastEnd + 10 ^ 6) } : State).ledgerDay ≤ s.mtr.day ∧ max s.mono 999999 < s.mtr.lastEnd + 10 ^ 6 ∧
      s.mtr.lastTick + 50000 ≤ max s.mono 50000 ∧ max s.mono 49999 < s.mtr.lastTick + 50000 ∧
      after (.meterInterval 7 [] [] (10 ^ 6)) s (fun u => u.mtr.total == 7) = true := by decide +kernel

/-- A receipt of partition 511 for a ring that takes it and for one that is off, a budget of one; records and keys intact. -/
theorem witness_ReceiptsAndFaults :
    let r : Rcpt := { id := 7, fn := 511, ring := 126, rring := 125 }
    let s := tRing none
    let s := { s with mtr := { s.mtr with due := [r] } }
    let s := tSet s [(F.MTR_SIGNED_BUDGET, 0, 0, 1)]
    let on := tSet s [(F.RING_CTX_CFG_LOG2, 2047, 29, 4), (F.RING_CTX_CFG_TYPE, 2047, 29, 2), (F.RING_CTX_CFG_EN, 2047, 29, 1)]
    (s.canon = true ∧ keysRise s.host.rings = true ∧ keysRise s.host.mem = true ∧ s.fld F.MTR_SIGNED_BUDGET 0 0 ≠ 0 ∧ s.mtr.ledger = [] ∧
      s.mtr.due = [r] ∧ s.settled r = true ∧ s.mtr.due.all (fun q => q.signed.isNone) = true ∧ (s.part 511).leaving = false ∧
      s.ringTakes 511 125 = false ∧ on.ringTakes 511 125 = true ∧ s.recovery = false) ∧
    ((tSet s [(F.MTR_STAT_CAL_OK, 0, 0, 1), (F.MTR_STAT_KEY_OK, 0, 0, 1)]).fld F.MTR_STAT_CAL_OK 0 0 = 1 ∧
      (tSet s [(F.MTR_STAT_CAL_OK, 0, 0, 1), (F.MTR_STAT_KEY_OK, 0, 0, 1)]).fld F.MTR_STAT_KEY_OK 0 0 = 1) := by decide +kernel

/-! ## The Curriers -/

/-- Partition 511 on the whole of logical room 95, with job 0 of its harness waiting, job 1 a PACK job beside it, and in its larder
descriptors 0 and 1 (BF16, 2 x 2, at 4096 and 8192), 2 (FP32, at 12288), 3 (BF16, at 8192 too) and the matrices. -/
def tCur (j : CurJob) (q : JobRun) : State :=
  let pk : CurJob := { kind := 6, inp := 0, aux := 1, aux2 := 3, mode := 3, msgFirst := 5 }
  let h : Harness := { cur := { jobs := [j, pk], sets := [{ coef := [(0x3F800000, 0x3F000000, 0x3F000000)] }], recvBase := 65536, rslots := 4,
                                pmax := 2, stageSlots := 1, stageBase := 32768, release := 20480 }, descCount := 4 }
  let x : PartSt := { pstate := .live, tiles := (List.range 32).map (fun i => 3040 + i), key := 1, running := true, harn := some h, jobs := [q] }
  let at_ := fun (off : Nat) => 2 * 2 ^ 60 + off
  let s := ({ parts := [(511, x)] } : State).setLard 511 0 ([tWide 1 2 2 (at_ 4096) 0, tWide 1 2 2 (at_ 8192) 0, tWide 0 2 2 (at_ 12288) 0,
    tWide 1 2 2 (at_ 8192) 0].flatten)
  (s.setLard 511 4096 ([0x3F80, 0x4000, 0x4040, 0x3F80].flatMap (leBytes 2))).setLard 511 8192 ([0x3F80, 0, 0, 0x3F80].flatMap (leBytes 2))

/-- Each matrix job on 2 x 2 matrices, with the output it leaves open after a failure; a root of a 2 x 2 matrix into an output of
another shape. -/
theorem witness_MatrixJobs :
    [1, 2, 3, 4].all (fun k =>
      let j : CurJob := { kind := k, inp := 0, aux := 1, aux2 := 1, out := 2, scratch := 40960, done := 49152 }
      let s := tCur j { job := 0 }
      let s0 := s.modPart 511 (fun x => x.modJob 0 (fun q => { q with started := true }))
      s.canon && s.jobStarts 511 0 k && decide ((s.part 511).job 0 = j) && decide (j.pwin + 2 ^ 19 ≤ 2 ^ 21) &&
        (match s0.matrixJob 511 j with
          | .ok (v, d, rnd, m) =>
            (match v.putElems 511 d rnd 0 m.flatten with
              | .ok w => keysRise w.parts
              | .error _ => false) &&
            isOk ((v.freeBytes (d.rows * d.cols * wideBytes d.fmt)).1.devWrite 511 .agent d.base (v.freeBytes (d.rows * d.cols * wideBytes d.fmt)).2 false)
          | .error _ => false)) = true ∧
    (let j : CurJob := { kind := 3, inp := 0, aux := 0, out := 0 }
     let s := (tCur j { job := 0 }).setLard 511 0 (tWide 1 1 2 (2 * 2 ^ 60 + 4096) 0)
     let s0 := s.modPart 511 (fun x => x.modJob 0 (fun q => { q with started := true }))
     s.jobStarts 511 0 3 = true ∧ (s.part 511).pstate = .live ∧ isOk (s0.matrixJob 511 j) = false) := by decide +kernel

/-- R284, R286: KRON_APPLY of the identity, the input and the identity gives the input, written as FP32. -/
theorem test_kronApply :
    (match (tCur { kind := 4, inp := 0, aux := 1, aux2 := 1, out := 2 } { job := 0 }).matrixJob 511 { kind := 4, inp := 0, aux := 1, aux2 := 1, out := 2 } with
      | .ok (_, _, _, m) => m.map (fun r => r.map (fun x => (fl x).toNat)) == [[0x3F800000, 0x40000000], [0x40400000, 0x3F800000]]
      | .error _ => false) = true := by decide +kernel

/-- GRADCHECK and PACK of one chunk, on tensors that allow it and with no tensor. -/
theorem witness_ChecksAndPacks :
    [0, 9].all (fun inp =>
      let j : CurJob := { kind := 5, inp := inp }
      let s := tCur j { job := 0 }
      let s0 := s.modPart 511 (fun x => x.modJob 0 (fun q => { q with started := true }))
      s.canon && s.jobStarts 511 0 5 && j.chunkCount == 1 && (s.part 511).pstate == .live &&
       (match s0.desc 511 j.inp with
         | some d => inp == 0 && isOk (s0.chunk 511 d j.chunkFirst) && (match s0.gradChunks 511 j d with
           | .ok (v, _) => keysRise v.parts
           | .error _ => false)
         | none => inp == 9)) = true ∧
    (let s0 := ((tCur { kind := 5 } { job := 0 }).setLard 511 0 (tWide 1 2 2 (2 * 2 ^ 60 + 2 ^ 59) 0)).modPart 511
       (fun x => x.modJob 0 (fun q => { q with started := true }))
     (match s0.desc 511 0 with
       | some d => isOk (s0.gradChunks 511 { kind := 5 } d)
       | none => true) = false) ∧
    [3, 9].all (fun aux2 =>
      let j : CurJob := { kind := 6, inp := 0, aux := 1, aux2 := aux2, mode := 3 }
      let s := tCur j { job := 0 }
      let s0 := s.modPart 511 (fun x => x.modJob 0 (fun q => { q with started := true }))
      s.canon && s.jobStarts 511 0 6 && (match s0.packPlan 511 j with
        | .ok (g, r, o) => aux2 == 3 && isOk (s0.packOne 511 j g r o (0, 0) j.chunkFirst) && (match s0.packChunks 511 0 j g r o with
          | .ok (w, _) => keysRise w.parts
          | .error _ => false)
        | .error _ => aux2 == 9)) = true := by decide +kernel

/-- R296: the square sum 1 + 4 + 9 + 1 of the input is the pair (15, 0). -/
theorem test_gradCheck :
    (match (tCur {} { job := 0 }).desc 511 0 with
      | some d => (match (tCur {} { job := 0 }).chunk 511 d 0 with
        | .ok (_, xs) => gradCheck (0, 0) xs == ((0x41700000, 0), false)
        | .error _ => false)
      | none => false) = true := by decide +kernel

/-- UNPACK that starts; a chunk that is there, staged and written to its tensor; a job whose work is done. -/
theorem witness_UnpacksAndJobEnds :
    (let s := tCur { kind := 7 } { job := 0 }
     s.canon = true ∧ s.jobStarts 511 0 7 = true) ∧
    [8, 0].all (fun mode =>
      let j : CurJob := { kind := 7, mode := mode, msgFirst := 5, out := 2 }
      let q : JobRun := { job := 0, started := true }
      let s := (tCur j q).modPart 511 (fun x => { x with xg := { x.xg with chunks := [(0, 5)] } })
      let s := tSet s [(F.BRDL_XG_CFG_PCOUNT, 511, 0, 1)]
      s.canon && (s.part 511).jobs.find? (fun q => q.job == 0 && q.started && !q.worked) == some q && (s.part 511).active &&
       s.chunkReady 511 j q.chunks && bitOf j.mode 3 == (mode == 8) && (s.part 511).xg.outbox.isEmpty && (s.part 511).long.replay.isNone &&
       (match (s.part 511).packOf (j.msgFirst + q.chunks / j.cpm) with
         | some pj => (match s.desc 511 pj.inp with
           | some d =>
             let n := chunkValid d.elems (j.chunkFirst + q.chunks)
             let r := s.sumChunk 511 (j.msgFirst + q.chunks / j.cpm) (q.chunks % j.cpm) pj.k n
             keysRise r.1.parts && (match r.1.desc 511 j.out with
               | some (.wide o) => decide (chunkElems * (j.chunkFirst + q.chunks) + n ≤ o.rows * o.cols) &&
                 (match r.1.putElems 511 o 0 (chunkElems * (j.chunkFirst + q.chunks)) (r.2.map f32) with
                   | .ok z => keysRise z.parts
                   | .error _ => false)
               | _ => false)
           | none => false)
         | none => false)) = true ∧
    (let q : JobRun := { job := 0, started := true, worked := true }
     let s := tCur { kind := 7, done := 49152 } q
     s.canon = true ∧ (s.part 511).jobs = [q] ∧ (s.part 511).active = true ∧ (s.part 511).xg.outbox = []) := by decide +kernel

/-- R327: one byte of the CRC. -/
def tCrc (c : Nat) (b : Byte) : Nat :=
  (List.range 8).foldl (fun c _ => if c % 2 = 1 then c / 2 ^^^ 0xEDB88320 else c / 2) (c ^^^ b.toNat)

/-- The CRC of a byte string, one byte at a time. -/
def tCrcs : Bytes → Nat → Nat
  | [], c => c
  | b :: bs, 0 => tCrcs bs (tCrc 0 b)
  | b :: bs, c + 1 => tCrcs bs (tCrc (c + 1) b)

theorem tCrcs_eq (m : Bytes) (c : Nat) : tCrcs m c = m.foldl tCrc c := by
  induction m generalizing c with
  | nil => simp [tCrcs]
  | cons b m ih => cases c <;> simp [tCrcs, ih]

theorem crc32_tCrcs (m : Bytes) : crc32 m = tCrcs m 0xFFFFFFFF ^^^ 0xFFFFFFFF := by
  rw [tCrcs_eq]; rfl

/-- The header of an export stream of partition 511's harness at step 9, with no ranges. -/
def tExportHead : Bytes := [0x54, 0x4E, 0x43, 0x4B, 1, 0, 0xFF, 1] ++ leBytes 8 9 ++ List.replicate 0xFEC 0

theorem tExport_crc : crc32 tExportHead = 1233630729 := by rw [crc32_tCrcs]; decide +kernel

/-- The stream: the header and its CRC. -/
def tExport : Bytes := tExportHead ++ leBytes 4 1233630729

theorem tExport_intact : ckptIntact (tExport.take 4096) 0xFF = true := by
  have hl : tExportHead.length = 0xFFC := by
    unfold tExportHead; rw [List.length_append, List.length_append, List.length_replicate]; rfl
  have ht : (tExport.take 4096).take 0xFFC = tExportHead := by
    rw [List.take_take]; exact List.take_left' hl
  simp only [ckptIntact, ht, tExport_crc]; decide +kernel

/-- A RESTORE that imports that stream from the host, of at most 4096 bytes. -/
theorem witness_RestoresAndReplays_import :
    let s := tCell (tParam 6 4 (5 * 2 ^ 60) 4096 tIdle)
    (match s.longParam 511 (2 * 2 ^ 60) [] with
      | .error _ => false
      | .ok a => s.canon && (s.opReq 511 126 6).isSome && (s.part 511).longOk && (s.part 511).long.snap == none && s.cellarServes 511 &&
        a.limit == 4096 && !s.hostWaits 511 [2 * 2 ^ 60, a.addr] && a.import_ && spaceOf a.addr == 5) = true ∧
      slice tExport 0x10 32 = padTo (s.part 511).harness.digest 32 ∧
      bitOf (fieldAt tExport 7 1) 0 = true ∧ fieldAt (tExport.take 4096) 8 8 = 9 ∧
      (let n := fieldAt (tExport.take 4096) 0x38 8
       let body := slice tExport 4096 n
       body.length = n ∧ lineDigest 0 (body.take (halfLen n)) = fieldAt (tExport.take 4096) 0x40 8 ∧
         lineDigest (halfLen n) (body.drop (halfLen n)) = fieldAt (tExport.take 4096) 0x48 8) := by decide +kernel

/-- A harness image of R241-R246 for one tile: each core's program is one END_STEP bundle at pantry offset 4096; a descriptor table of one
unused entry, one variant, and the section digests; signed under the key of `tLoad`. -/
def tImage : Bytes :=
  let pad := fun (b : Bytes) => padTo b 256
  let prog := leBytes 4 4096 ++ leBytes 4 32 ++ leBytes 4 8192 ++ leBytes 4 0 ++ List.replicate 112 0 ++ List.replicate 24 0 ++ leBytes 8 8
  let header := [0x54, 0x4E, 0x48, 0x53] ++ leBytes 2 3 ++ leBytes 2 256 ++ leBytes 8 2304 ++ leBytes 8 1 ++ leBytes 4 6 ++ leBytes 4 0 ++
    leBytes 8 0 ++ leBytes 4 1 ++ leBytes 2 7 ++ leBytes 2 1 ++ leBytes 2 0 ++ leBytes 2 0 ++ leBytes 2 16 ++ leBytes 2 0 ++ leBytes 2 0 ++
    leBytes 1 10 ++ leBytes 1 0 ++ leBytes 2 0 ++ leBytes 2 0 ++ leBytes 2 0 ++ leBytes 6 0 ++
    [0, 256, 512, 1024, 4096, 2048, 3072].flatMap (fun n => leBytes 8 n)
  let entry := fun (ty item off size : Nat) =>
    leBytes 2 ty ++ leBytes 2 0xFFFF ++ leBytes 4 item ++ leBytes 8 off ++ leBytes 8 size ++ leBytes 8 0
  let table := entry 1 0 512 160 ++ entry 1 1 768 160 ++ entry 1 2 1024 160 ++ entry 1 3 1280 160 ++ entry 2 0 1536 48 ++ entry 9 0 1792 12 ++
    entry 11 0 2048 224
  let dp := leBytes 32 0x1aab593a54617de8df816d06f1d4b9e91cdf7d619574ebfc0d146b8a3a8f93e4
  let digests := dp ++ dp ++ dp ++ dp ++ leBytes 32 0xd1bcdc1007b3658b28df292e0ec755e32bf189cc7c7510cfd581b0871f76b017 ++
    leBytes 32 0xd9d2179d0d9457b55af5fb18b39f14f467ba118c32a7616cb4b18fe432bbf58a
  pad header ++ pad table ++ pad prog ++ pad prog ++ pad prog ++ pad prog ++ pad [] ++ pad (leBytes 4 0 ++ leBytes 4 0xFFFFFFFF) ++ pad digests ++
    List.replicate 64 0 ++
    leBytes 64 0xe9897c62ff419d09e9872d25f409b2dc8026d5d1a74ecd2cccbfe90ad45ffea3be846231c8889b8cf5a46024b8112e52159b11c73c610bf61be57cee8e50085 ++
    List.replicate 64 0

/-- A LOAD_HARNESS of that image, its key registered as key 0. -/
def tLoadReq : Req := { op := 1, cring := 127, arg0 := 5 * 2 ^ 60, len := 2496, bursts := 2 }

def tLoad : State :=
  let key := leBytes 32 0xb83155126486dc1d5f0da59b30d6e46799c04be718dd701dbe10cef3bf07a103
  let s := tSet (tRing (some tLoadReq) { pstate := .live, tiles := [3071], key := 1 })
    [(F.TACK_HKEY_VALID_VALID, 0, 0, 1), (F.BRDL_XG_CFG_PCOUNT, 511, 0, 1), (F.TACK_FW_ABI_SEL_ABI, 0, 0, 1)]
  [0, 1, 2, 3, 4, 5, 6, 7].foldl (fun (s : State) w => s.setReg RG.TACK_HKEY 0 w (fieldAt key (4 * w) 4)) s

/-- The image has the length asked for, and its form is right (order 3). -/
theorem tLoad_form : (padTo tImage 2496).take 2496 = tImage ∧ tLoad.imageForm 511 tImage 2496 = none := by decide +kernel

/-- Its signature (order 4). -/
theorem tLoad_sig : tLoad.sigBad 511 tImage = false := by decide +kernel

/-- Its section digests (order 5). -/
theorem tLoad_digests : digestBad tImage = false := by decide +kernel

/-- Its contents (order 6). -/
theorem tLoad_content : tLoad.contentFault 511 tImage = none := by decide +kernel

/-- A LOAD_HARNESS that nothing refuses; read again as it was, and as nothing. -/
theorem witness_LoadsEnd_ok :
    (let s := tLoad
     s.canon = true ∧ keysRise s.host.rings = true ∧ s.opReq 511 126 1 = some tLoadReq ∧ (s.part 511).long.snap = none ∧
       s.portServes 511 = true ∧ s.flushServed 511 = true) ∧
    tLoad.loadRefusal 511 tLoadReq.arg0 tLoadReq.len tImage = none := by
  refine ⟨by decide +kernel, ?_⟩
  have h1 : (tLoad.part 511).stepRuns = false := by decide +kernel
  have h2 : (tLoad.part 511).tiles.any (fun t => tLoad.fld F.GLB_ROOM_MAP_OUT_OF_SERVICE 0 (t / 32) == 1) = false := by decide +kernel
  have h3 : tLoad.resolve 511 .agent tLoadReq.arg0 (max 1 tLoadReq.len) = .ok (.host 1 0) := by decide +kernel
  have h5 : spaceOf tLoadReq.arg0 = 5 := by decide
  have h4 : tLoad.imageForm 511 tImage tLoadReq.len = none := tLoad_form.2
  simp [State.loadRefusal, h1, h2, h3, h4, h5, tLoad_sig, tLoad_digests, tLoad_content]
end

section
/-! PROOFS. Writes of Rein's power caps and of its shed level (R457). -/

namespace Sys2Proof.Machine
open Sys2Proof

/-! ### One register word, one field -/

theorem State.onlyWord_setRegAt (s : State) (typ inst off : Nat) (v : Word) :
    s.OnlyWord (s.setRegAt typ inst off v) typ inst off :=
  ⟨rfl, fun ty i o h => regAt_setRegAt_other s typ inst off ty i o v h⟩

theorem State.regSet_setReg (s : State) (r : Reg) (inst k w : Nat) (hs : keysRise s.regs = true) (hw : w < 2 ^ 32) :
    s.RegSet (s.setReg r inst k w) r inst k w := by
  refine ⟨s.onlyWord_setRegAt _ _ _ _, ?_⟩
  rw [reg_setReg_same s r inst k w hs, Nat.mod_eq_of_lt hw]

/-- Storing a field sets that field and leaves every other bit of the state. -/
theorem State.fieldSet_setFld (s : State) (f : Fld) (inst k v : Nat) (hs : keysRise s.regs = true)
    (hl : f.lo ≤ f.hi) (hh : f.hi < 32) : s.FieldSet (s.setFld f inst k v) f inst k v :=
  s.regSet_setReg f.reg inst k _ hs (withBits_lt _ _ _ _ hl hh (reg_lt s f.reg inst k))

/-! ### Writes through the PF -/

/-- R501: outside recovery the write takes place, whatever its page. -/
theorem viaPf_of_not_recovery (typ : Nat) (f : State → State) (s : State) (hr : s.recovery = false) :
    viaPf typ f s = .next (f s) := by
  simp [viaPf, hr]

section
variable (v : Nat) (s : State) (hv : v < 2 ^ 32) (hr : s.recovery = false)
include hv hr

theorem exec_reinOpCapWrite_next : exec (.reinOpCapWrite v) s = .next (s.opOpCap v) := by
  rw [exec_reinOpCapWrite, execReinOpCapWrite, if_pos hv, viaPf_of_not_recovery _ _ _ hr]

theorem exec_reinFacTargetWrite_next : exec (.reinFacTargetWrite v) s = .next (s.opFacTarget v) := by
  rw [exec_reinFacTargetWrite, execReinFacTargetWrite, if_pos hv, viaPf_of_not_recovery _ _ _ hr]

theorem exec_reinShedLevelWrite_next : exec (.reinShedLevelWrite v) s = .next (s.opShedLevel v) := by
  rw [exec_reinShedLevelWrite, execReinShedLevelWrite, if_pos hv, viaPf_of_not_recovery _ _ _ hr]

end

/-! ### The bounds of R457 -/

theorem clampCap_eq_ite (v : Nat) :
    clampCap v = if 10000 < v then 10000 else if v < 1000 then 1000 else v := by
  unfold clampCap
  split
  · omega
  · split <;> omega

theorem State.opShedLevel_of_locked (s : State) (v : Nat) (h : s.locked 0x7 0 = true) : s.opShedLevel v = s :=
  if_pos h

theorem State.opShedLevel_of_unlocked (s : State) (v : Nat) (h : s.locked 0x7 0 = false) :
    s.opShedLevel v = s.setFld F.REIN_SHED_LEVEL_W 0 0 (max 3000 (min 10000 (v % 2 ^ 14))) := by
  simp [State.opShedLevel, h]

/-- The operator cap's field takes the written word, clamped; nothing else changes. -/
theorem State.fieldSet_opOpCap (s : State) (v : Nat) (hs : s.canon = true) :
    s.FieldSet (s.opOpCap v) F.REIN_OP_CAP_W 0 0 (clampCap (v % 2 ^ 14)) :=
  s.fieldSet_setFld F.REIN_OP_CAP_W 0 0 _ (canon_regs s hs) (by decide) (by decide)

/-- The facility target's field takes the written word, clamped; nothing else changes. -/
theorem State.fieldSet_opFacTarget (s : State) (v : Nat) (hs : s.canon = true) :
    s.FieldSet (s.opFacTarget v) F.REIN_FAC_TARGET_W 0 0 (clampCap (v % 2 ^ 14)) :=
  s.fieldSet_setFld F.REIN_FAC_TARGET_W 0 0 _ (canon_regs s hs) (by decide) (by decide)

/-- On an unlocked page the shed level's field takes the written word, between 3,000 W and 10,000 W; nothing else changes. -/
theorem State.fieldSet_opShedLevel (s : State) (v : Nat) (hs : s.canon = true) (hu : s.locked 0x7 0 = false) :
    s.FieldSet (s.opShedLevel v) F.REIN_SHED_LEVEL_W 0 0 (max 3000 (min 10000 (v % 2 ^ 14))) := by
  rw [s.opShedLevel_of_unlocked v hu]
  exact s.fieldSet_setFld F.REIN_SHED_LEVEL_W 0 0 _ (canon_regs s hs) (by decide) (by decide)

/-- Settles O6: each write stores one field of the Rein global page, and the value it stores is the written one within its
bounds; a locked page leaves the shed level's write without effect. -/
theorem powerCapWrites : Obligations.PowerCapWrites := by
  intro v s hs hv hr cap
  have hv32 : v < 2 ^ 32 := by omega
  have hmod : v % 2 ^ 14 = v := Nat.mod_eq_of_lt hv
  have hcap : clampCap (v % 2 ^ 14) = cap := by rw [hmod, clampCap_eq_ite]
  refine ⟨⟨_, exec_reinOpCapWrite_next v s hv32 hr, hcap ▸ s.fieldSet_opOpCap v hs⟩,
    ⟨_, exec_reinFacTargetWrite_next v s hv32 hr, hcap ▸ s.fieldSet_opFacTarget v hs⟩, fun hu => ?_, fun hl => ?_⟩
  · refine ⟨_, _, exec_reinShedLevelWrite_next v s hv32 hr, s.fieldSet_opShedLevel v hs hu, ?_, ?_⟩
    · intro hlow
      omega
    · intro hlow hhigh
      omega
  · rw [exec_reinShedLevelWrite_next v s hv32 hr, s.opShedLevel_of_locked v hl]

end Sys2Proof.Machine
end

section
/-! PROOFS. Writes of the date and the time of day of a set-time command (R484, R485). -/

namespace Sys2Proof.Machine
open Sys2Proof

/-! ### Days that exist (R484) -/

/-- Month `m` of year `y` exists and has a day `d`. -/
abbrev DateExists (y m d : Nat) : Prop := 1 ≤ m ∧ m ≤ 12 ∧ 1 ≤ d ∧ d ≤ daysInMonth y m

theorem not_dateExists_iff (y m d : Nat) : ¬DateExists y m d ↔ m < 1 ∨ 12 < m ∨ d < 1 ∨ daysInMonth y m < d := by
  omega

theorem isLeap_iff (y : Nat) : isLeap y = true ↔ (y % 4 = 0 ∧ y % 100 ≠ 0) ∨ y % 400 = 0 := by
  simp [isLeap]

/-- R484: the lengths of the months, the leap years written out. -/
theorem daysInMonth_eq_ite (y m : Nat) :
    daysInMonth y m = if m = 2 then (if (y % 4 = 0 ∧ y % 100 ≠ 0) ∨ y % 400 = 0 then 29 else 28)
      else if m ∈ [4, 6, 9, 11] then 30 else 31 := by
  simp only [daysInMonth, isLeap_iff, List.contains_iff_mem]

/-! ### What a set-time register's write leaves -/

/-- `u` is `s` but for register `r` of the time page, which holds `x`, and for TIME_STAT. -/
def State.TimeRegKept (s u : State) (r : Reg) (x : Nat) : Prop :=
  u = { s with regs := u.regs } ∧ u.reg r 0 0 = x ∧
    ∀ ty i o, regKey ty i o ≠ regKey 0x41 0 r.off → regKey ty i o ≠ regKey 0x41 0 RG.TIME_STAT.off → u.regAt ty i o = s.regAt ty i o

/-- Setting SET_STATUS sets that field alone. -/
theorem State.fieldSet_setStatus (s : State) (x : Nat) (hs : s.canon = true) :
    s.FieldSet (s.setFld F.TIME_STAT_SET_STATUS 0 0 x) F.TIME_STAT_SET_STATUS 0 0 x :=
  s.fieldSet_setFld F.TIME_STAT_SET_STATUS 0 0 x (canon_regs s hs) (by decide) (by decide)

/-- Setting SET_STATUS leaves every register word but TIME_STAT. -/
theorem State.regAt_setStatus_other (s : State) (x ty i o : Nat) (h : regKey ty i o ≠ regKey 0x41 0 RG.TIME_STAT.off) :
    (s.setFld F.TIME_STAT_SET_STATUS 0 0 x).regAt ty i o = s.regAt ty i o :=
  regAt_setRegAt_other s 0x41 0 RG.TIME_STAT.off ty i o _ h

/-- A value stored in a register of the time page stays there when SET_STATUS is set after it. -/
theorem State.timeRegKept_setReg_setStatus (s : State) (off w x : Nat) (hs : s.canon = true) (hw : w < 2 ^ 32)
    (hne : regKey 0x41 0 off ≠ regKey 0x41 0 RG.TIME_STAT.off) :
    s.TimeRegKept ((s.setReg ⟨0x41, off, 0, 1⟩ 0 0 w).setFld F.TIME_STAT_SET_STATUS 0 0 x) ⟨0x41, off, 0, 1⟩ w := by
  obtain ⟨⟨-, hother⟩, hsame⟩ := s.regSet_setReg ⟨0x41, off, 0, 1⟩ 0 0 w (canon_regs s hs) hw
  refine ⟨rfl, ?_, fun ty i o hr ht => ?_⟩
  · exact (congrArg BitVec.toNat (State.regAt_setStatus_other _ x 0x41 0 off hne)).trans hsame
  · exact (State.regAt_setStatus_other _ x ty i o ht).trans (hother ty i o hr)

/-! ### The checks of R485, as equations -/

theorem exec_timeSetYmdWrite_next (v : Nat) (s : State) (hv : v < 2 ^ 32) :
    exec (.timeSetYmdWrite v) s = .next (s.opSetYmd v) := by
  rw [exec_timeSetYmdWrite, execTimeSetYmdWrite, if_pos hv]

theorem exec_timeSetHmsWrite_next (v : Nat) (s : State) (hv : v < 2 ^ 32) :
    exec (.timeSetHmsWrite v) s = .next (s.opSetHms v) := by
  rw [exec_timeSetHmsWrite, execTimeSetHmsWrite, if_pos hv]

theorem bitsOf_from_zero (x hi : Nat) : bitsOf x hi 0 = x % 2 ^ (hi + 1) := by
  simp [bitsOf]

/-- R485: a year outside the calendar is OUT_OF_RANGE (3), a date that does not exist DATE_INVALID (1); any other is stored. -/
theorem State.opSetYmd_eq_ite (s : State) (v : Nat) (hr : s.recovery = false) :
    s.opSetYmd v =
      if v % 2 ^ 16 < 2000 ∨ 2399 < v % 2 ^ 16 then s.setFld F.TIME_STAT_SET_STATUS 0 0 3
      else if ¬DateExists (v % 2 ^ 16) (v / 2 ^ 16 % 16) (v / 2 ^ 20 % 32) then s.setFld F.TIME_STAT_SET_STATUS 0 0 1
      else (s.setReg RG.TIME_SET_YMD 0 0 (v % 2 ^ 25)).setFld F.TIME_STAT_SET_STATUS 0 0 0 := by
  have hm : bitsOf v 19 16 = v / 2 ^ 16 % 16 := rfl
  have hd : bitsOf v 24 20 = v / 2 ^ 20 % 32 := rfl
  simp only [State.opSetYmd, hr, Bool.false_eq_true, if_false, bitsOf_from_zero, hm, hd, not_dateExists_iff]

/-- R485: an hour above 23 or a minute or second above 59 is TIME_INVALID (2); any other time of day is stored. -/
theorem State.opSetHms_eq_ite (s : State) (v : Nat) (hr : s.recovery = false) :
    s.opSetHms v =
      if 23 < v % 32 ∨ 59 < v / 32 % 64 ∨ 59 < v / 2 ^ 11 % 64 then s.setFld F.TIME_STAT_SET_STATUS 0 0 2
      else (s.setReg RG.TIME_SET_HMS 0 0 (v % 2 ^ 17)).setFld F.TIME_STAT_SET_STATUS 0 0 0 := by
  have hhour : bitsOf v 4 0 = v % 32 := bitsOf_from_zero v 4
  have hmin : bitsOf v 10 5 = v / 32 % 64 := rfl
  have hsec : bitsOf v 16 11 = v / 2 ^ 11 % 64 := rfl
  simp only [State.opSetHms, hr, Bool.false_eq_true, if_false, hhour, hmin, hsec, bitsOf_from_zero]

/-- Settles O15: each answer of R485's checks is one branch of the write's equation, and what it stores is one field of TIME_STAT, after
the register's word where the date or time of day is possible. -/
theorem impossibleDatesRefused : Obligations.ImpossibleDatesRefused := by
  intro v s hs hr hv y m d valid bad kept
  have hvalid : valid ↔ DateExists y m d := by
    rw [DateExists, daysInMonth_eq_ite]
  have hymd := exec_timeSetYmdWrite_next v s hv
  have hhms := exec_timeSetHmsWrite_next v s hv
  rw [s.opSetYmd_eq_ite v hr] at hymd
  rw [s.opSetHms_eq_ite v hr] at hhms
  refine ⟨fun hy => ?_, fun hlo hhi hd => ?_, fun hlo hhi hd => ?_, fun hb => ?_, fun hb => ?_⟩
  · rw [if_pos hy] at hymd
    exact ⟨_, hymd, s.fieldSet_setStatus 3 hs⟩
  · rw [if_neg (by omega), if_pos (mt hvalid.mpr hd)] at hymd
    exact ⟨_, hymd, s.fieldSet_setStatus 1 hs⟩
  · rw [if_neg (by omega), if_neg (not_not.mpr (hvalid.mp hd))] at hymd
    exact ⟨_, hymd, s.timeRegKept_setReg_setStatus RG.TIME_SET_YMD.off _ 0 hs (by omega) (by decide)⟩
  · rw [if_pos hb] at hhms
    exact ⟨_, hhms, s.fieldSet_setStatus 2 hs⟩
  · rw [if_neg hb] at hhms
    exact ⟨_, hhms, s.timeRegKept_setReg_setStatus RG.TIME_SET_HMS.off _ 0 hs (by omega) (by decide)⟩

end Sys2Proof.Machine
end

section
/-! PROOFS. Register accesses by size and alignment, and the latch of an RO pair (R532, R533). -/

namespace Sys2Proof.Machine
open Sys2Proof

/-! ### Accesses the bar takes -/

theorem exec_registerWrite_next {fn addr n : Nat} (v t : Nat) {env : WriteEnv} (s : State) (hf : fn ≤ 513)
    (ha : addr < barBytes fn) (hn : n ∈ [1, 2, 4, 8]) (ho : bringOk env.out = true) :
    exec (.registerWrite fn addr n v env t) s = .next ((s.toTime t).regWrite fn addr n v env) := by
  rw [exec_registerWrite, execRegisterWrite, if_pos ⟨hf, ha, List.contains_iff_mem.mpr hn, ho⟩]

/-- A read stands for its answer: what is left of the state, with the value sent to the requester. -/
theorem exec_loRegisterRead_next {fn addr n t v : Nat} {s u : State} (hf : fn ≤ 513) (ha : addr < barBytes fn)
    (hn : n ∈ [1, 2, 4, 8]) (hr : (s.toTime t).regRead fn addr n = (u, v)) :
    exec (.loRegisterRead fn addr n t) s = .next { u with host := { u.host with reads := u.host.reads ++ [v] } } := by
  rw [exec_loRegisterRead, execLoRegisterRead, if_pos ⟨hf, ha, List.contains_iff_mem.mpr hn⟩, hr]

/-! ### Writes that R532 discards -/

theorem State.regWrite_of_misaligned (s : State) (fn v : Nat) {addr n : Nat} (env : WriteEnv) (h : addr % n ≠ 0) :
    s.regWrite fn addr n v env = s := by
  unfold State.regWrite
  cases s.pageAt fn addr with
  | none => rfl
  | some q => exact if_pos h

theorem State.regWrite_of_narrow (s : State) (fn addr v : Nat) {n : Nat} (env : WriteEnv) (h4 : n ≠ 4) (h8 : n ≠ 8) :
    s.regWrite fn addr n v env = s := by
  unfold State.regWrite
  cases s.pageAt fn addr with
  | none => rfl
  | some q => simp only [if_neg h4, if_neg h8, ite_self]

/-! ### What a read answers (R532) -/

theorem State.regRead_of_misaligned (s : State) (fn : Nat) {addr n : Nat} (h : addr % n ≠ 0) :
    s.regRead fn addr n = (s, 0) := by
  unfold State.regRead
  cases s.pageAt fn addr with
  | none => rfl
  | some q => exact if_pos h

section
variable {s : State} {fn addr typ inst : Nat} (hp : s.pageAt fn addr = some (typ, inst))
include hp

theorem State.regRead_eight (ha : addr % 8 = 0) :
    s.regRead fn addr 8 =
      (s, s.readWord typ inst (addr % 4096) + 2 ^ 32 * s.readWord typ inst (addr % 4096 + 4)) := by
  simp only [State.regRead, hp, ha, ne_eq, not_true_eq_false, if_false, if_true]

theorem State.regRead_four (ha : addr % 4 = 0) : s.regRead fn addr 4 = s.read4 typ inst (addr % 4096) := by
  simp [State.regRead, hp, ha]

theorem State.regRead_narrow {n : Nat} (ha : addr % n = 0) (h4 : n ≠ 4) (h8 : n ≠ 8) :
    s.regRead fn addr n =
      (s, s.readWord typ inst (addr % 4096 / 4 * 4) / 2 ^ (8 * (addr % 4)) % 2 ^ (8 * n)) := by
  have hoff : addr % 4096 % 4 = addr % 4 := by omega
  simp only [State.regRead, hp, ha, ne_eq, not_true_eq_false, if_false, if_neg h8, if_neg h4, hoff]
end

/-! ### The latch of a pair (R533) -/

section
variable {s : State} {typ inst off : Nat}

/-- A read of a word that nothing holds leaves it, and the latch alone changes where the word is the lower one of a pair. -/
theorem State.read4_of_free (h : tget s.latch (regKey typ inst off) 0 = 0) :
    s.read4 typ inst off =
      ({ s with latch := if latches typ off then tput s.latch (regKey typ inst (off + 4)) (s.readWord typ inst (off + 4) + 1) 0
                         else s.latch }, s.readWord typ inst off) := by
  unfold State.read4
  rw [if_neg (not_not.mpr h)]
  cases latches typ off <;> rfl

/-- A read of a latched word answers the latched value, not the present one, and releases it. -/
theorem State.read4_of_held {v : Nat} (h : tget s.latch (regKey typ inst off) 0 = v + 1) :
    s.read4 typ inst off = ({ s with latch := tdel s.latch (regKey typ inst off) }, v) := by
  simp [State.read4, h]
end

/-- R532: sizes and alignment of reads and writes. -/
theorem accessSizes : Claims.AccessSizes := by
  intro fn addr n v t env s hf ha ho s1
  refine ⟨fun hn => ?_, fun hn hmis => ?_, fun typ inst hp hal => ⟨fun hn => ?_, fun hn => ?_⟩⟩
  · have hsize : n ∈ [1, 2, 4, 8] := by simp; omega
    have hkept : (s.toTime t).regWrite fn addr n v env = s1 := by
      by_cases hmis : addr % n = 0
      · exact State.regWrite_of_narrow _ fn addr v env (by omega) (by omega)
      · exact State.regWrite_of_misaligned _ fn v env hmis
    rw [exec_registerWrite_next v t s hf ha hsize ho, hkept]
  · exact exec_loRegisterRead_next hf ha (by simp; omega) (State.regRead_of_misaligned _ fn hmis)
  · subst hn
    exact exec_loRegisterRead_next hf ha (by decide) (State.regRead_eight hp hal)
  · exact exec_loRegisterRead_next hf ha (by simp; omega) (State.regRead_narrow hp hal (by omega) (by omega))

/-- R533: the first read stores the upper word plus one under the key of the _HI register; the second finds it there, since
nothing else of the state is asked but the latch. -/
theorem pairsReadWithoutTearing : Claims.PairsReadWithoutTearing := by
  intro fn addr typ inst t s hf ha hal hpage hk s1 off hp hfree
  have hlo := State.read4_of_free (s := s1) hfree
  refine ⟨_, exec_loRegisterRead_next hf (by omega) (by decide) ((State.regRead_four hp hal).trans hlo), rfl,
    fun hl => by simp [hl, s1], fun hl w t' hw hp' => ?_⟩
  have hoff : (addr + 4) % 4096 = off + 4 := by omega
  have hlatch : w.latch = tput s.latch (regKey typ inst (off + 4)) (s1.readWord typ inst (off + 4) + 1) 0 := by
    rw [hw, hl]; rfl
  have hheld : tget (w.toTime t').latch (regKey typ inst (off + 4)) 0 = s1.readWord typ inst (off + 4) + 1 := by
    rw [State.toTime_latch, hlatch, tget_tput_same _ _ _ _ hk]
  have hrise : keysRise w.latch = true := hlatch ▸ keysRise_tput _ _ _ _ hk
  have hhi := State.regRead_four hp' (by omega)
  rw [hoff, State.read4_of_held hheld] at hhi
  exact ⟨_, exec_loRegisterRead_next hf ha (by decide) hhi, rfl, tget_tdel_same _ 0 _ _ hrise⟩

/-- Settles O43: sizes and alignment, then the latch that a read of a pair sets and its second read releases. -/
theorem registerReads : Obligations.RegisterReads := ⟨accessSizes, pairsReadWithoutTearing⟩

end Sys2Proof.Machine
end
